-- ==== Sys2Proof/Word.lean ====
section
/-! DEFINITION. The plain types the whole model is written in: bytes of frames and telegrams, the numbers of
units, waterways, converters, gauges and slots, handles, and plant time. -/

namespace Sys2Proof

/-- One byte of a frame or telegram (R193). -/
abbrev Byte := BitVec 8

/-- A unit number, U0..U7 (1.6). -/
abbrev UnitNo := Fin 8

/-- A waterway number, W0 or W1 (1.6). -/
abbrev WaterwayNo := Fin 2

/-- A starting converter, C0 or C1 (1.6). -/
abbrev ConverterNo := Fin 2

/-- A gauge number, G0..G3 (1.6). -/
abbrev GaugeNo := Fin 4

/-- A slot of the Order Table, 0..63 (R10). -/
abbrev SlotNo := Fin 64

/-- The number by which an order is named: generation × 64 + slot (R2). -/
abbrev Handle := Nat

/-- The last value of plant time, at which it holds (R164, R165). -/
abbrev plantTimeMax : Nat := 4294967295

/-- The exact fraction `a / b` rounded up to the next whole number (R24): −5.5 rounds to −5. -/
def ceilDiv (a b : Int) : Int := -((-a) / b)

end Sys2Proof
end

