-- ==== Sys2Proof/Config.lean ====
section
/-! DEFINITION. What is fixed in the part, and the values the spec leaves open: each open value is a constant
without a body, so that no proof can rest on one of its values. -/

namespace Sys2Proof.Config

/-- The part code IDENTIFY reports (R180, 12.2). -/
def partCode : Nat := 0x5D08

/-- The design revision IDENTIFY reports (12.2). -/
def designRevision : Nat := 3

/-- The fixed capacities of the part, in the order IDENTIFY reports them (R180). -/
def capacities : List Nat := [64, 8, 2, 2, 4, 8, 8]

/-- The length of a good or bad run that changes a gauge's state (R154, 11.2). -/
def runLength : Nat := 3

/-- Converter runs an order may begin (R8, R72). -/
def maxAttempts : Nat := 2

/-- The bound on the inner steps of one event (log entry 22). -/
def cascadeBound : Nat := 512

/-- FREE VALUE (log entry 3). Which of `n` arrivals or expiries of one instant is taken first, where the spec lets
any be first (R165, R166); `k` counts the choices made. It is used modulo `n`. -/
opaque freePick (k n : Nat) : Nat

/-- FREE VALUE (log entry 9). The reference flow of a power that lies outside the unit's generating table, for which
R25 states none. It is used modulo 10000. -/
opaque flowOutsideTable (powers flows : Vector Nat 8) (power : Nat) : Nat

/-- FREE VALUE (log entry 58). The magnitude of the step of a PUMP order's START entry at a head, while the unit's current record
has no pump table: R39 states none. It is used modulo 10000. -/
opaque stepWithoutTable (head : Nat) : Nat

end Sys2Proof.Config
end

