-- ==== Sys2Proof/Syntax.lean ====
section
/-! DEFINITION. The commands of the block: one constructor of `Instr` for each row of spec/opcode_table.json, and
the types of their operands.

A request of the plant computer carries its tag and the bytes of its body (R173), so that the judgement of lengths,
codes and presence bits is part of its meaning. A report of a control panel carries its decoded content, since its row
stands for a frame that has passed the frame check (R139). A gauge telegram carries its bytes (R153). -/

namespace Sys2Proof

/-- The machine states a STATE report names, in the order of Table 7-6. -/
inductive MachineState
  | standstill | runupG | generating | condensingG | spinupP | syncedP | pumping | condensingP | rundown | tripped
  deriving DecidableEq, Repr

/-- The control place of a unit (R139). -/
inductive ControlPlace
  | remote | locally
  deriving DecidableEq, Repr

/-- A STATE report: machine state, measured power in 0.1 MW (signed), control place (R139). -/
structure Report where
  state : MachineState
  power : Int
  place : ControlPlace
  deriving DecidableEq, Repr

/-- The figures of capability page 0 (Table 7-2), as the page carries them. -/
structure Figures where
  unitEcho : Nat
  modeSet : Byte
  href : Nat
  pmin : Nat
  pmax : Nat
  genStart : Nat
  pumpStart : Nat
  genStop : Nat
  pumpStop : Nat
  dwell : Nat
  deriving DecidableEq, Repr

/-- A generating breakpoint: power P and flow Q (Table 7-2). -/
structure GenPoint where
  p : Nat
  q : Nat
  deriving DecidableEq, Repr

/-- A pump breakpoint: head H, flow Qp and power Pp (Table 7-2). -/
structure PumpPoint where
  h : Nat
  qp : Nat
  pp : Nat
  deriving DecidableEq, Repr

/-- The contents of the five capability pages (Table 7-2). -/
inductive PageContents
  | figures (f : Figures)
  | genLow (v : Vector GenPoint 4)
  | genHigh (v : Vector GenPoint 4)
  | pumpLow (v : Vector PumpPoint 4)
  | pumpHigh (v : Vector PumpPoint 4)
  deriving DecidableEq, Repr

/-- The page number, 0..4, that a page of these contents carries. -/
def PageContents.number : PageContents → Nat
  | .figures _ => 0
  | .genLow _ => 1
  | .genHigh _ => 2
  | .pumpLow _ => 3
  | .pumpHigh _ => 4

/-- A capability page: page toggle, more flag and contents (R130), the first two as the bytes received. -/
structure Page where
  toggle : Byte
  more : Byte
  contents : PageContents
  deriving DecidableEq, Repr

/-- The commands of the UM-8: the rows of spec/opcode_table.json. -/
inductive Instr
  /-- POWER_ON: bit k of `straps` is set when the strap of unit k is present (R188). -/
  | powerOn (straps : BitVec 8)
  /-- SECOND_MARK (R165). -/
  | secondMark
  /-- START_ARRIVAL of the record named by the handle (R64). -/
  | startArrival (h : Handle)
  /-- END_ARRIVAL (R68). -/
  | endArrival (h : Handle)
  /-- LATENESS_ARRIVAL (R67). -/
  | latenessArrival (h : Handle)
  /-- SUPERVISION_TIMER_EXPIRY of a unit (R74). -/
  | supervisionTimerExpiry (u : UnitNo)
  /-- RUN_TIMER_EXPIRY of a converter (R100). -/
  | runTimerExpiry (c : ConverterNo)
  /-- COOL_DOWN_EXPIRY of a converter (R99). -/
  | coolDownExpiry (c : ConverterNo)
  /-- SPACING_TIMER_EXPIRY of a waterway's gate (R110). -/
  | spacingTimerExpiry (w : WaterwayNo)
  /-- RAMP_PERIOD_EXPIRY of a waterway's Ramp Controller (R115). -/
  | rampPeriodExpiry (w : WaterwayNo)
  /-- HELLO_INTERVAL of a unit's link (R128). -/
  | helloInterval (u : UnitNo)
  /-- ACK_TIMER_EXPIRY of a unit's link (R143). -/
  | ackTimerExpiry (u : UnitNo)
  /-- BURST_WINDOW_EXPIRY of a unit's link (R141). -/
  | burstWindowExpiry (u : UnitNo)
  /-- LINK_SILENCE_COUNT of a unit's link (R142). -/
  | linkSilenceCount (u : UnitNo)
  /-- GAUGE_SILENCE_COUNT of a gauge (R155). -/
  | gaugeSilenceCount (g : GaugeNo)
  /-- PAGE_REPORT from a unit's panel (R131). -/
  | pageReport (u : UnitNo) (p : Page)
  /-- ACK_REPORT: the directive kind and the toggle it echoes, as received (R137). -/
  | ackReport (u : UnitNo) (kind toggle : Byte)
  /-- STATE_REPORT (R140). -/
  | stateReport (u : UnitNo) (r : Report)
  /-- LINK_FRAME_BAD: a Unit Link frame that fails the frame check (R139). -/
  | linkFrameBad (u : UnitNo)
  /-- GAUGE_TELEGRAM: the bytes received on a Gauge Input, length byte to CRC (R153). -/
  | gaugeTelegram (g : GaugeNo) (bytes : List Byte)
  /-- CONVERTER_FAULT_ASSERT (R101). -/
  | converterFaultAssert (c : ConverterNo)
  /-- CONVERTER_FAULT_CLEAR (R101). -/
  | converterFaultClear (c : ConverterNo)
  /-- PLACE (R42, R52). -/
  | place (tag : Byte) (body : List Byte)
  /-- PLACE_PAIR (R54, R55). -/
  | placePair (tag : Byte) (body : List Byte)
  /-- AMEND (R56 to R59). -/
  | amend (tag : Byte) (body : List Byte)
  /-- RETIRE (R17 to R20). -/
  | retire (tag : Byte) (body : List Byte)
  /-- LOOKUP (R14). -/
  | lookup (tag : Byte) (body : List Byte)
  /-- LIST_UNIT (R15). -/
  | listUnit (tag : Byte) (body : List Byte)
  /-- LIST_STATE (R16). -/
  | listState (tag : Byte) (body : List Byte)
  /-- ISOLATE (R90). -/
  | isolate (tag : Byte) (body : List Byte)
  /-- RESTORE (R90). -/
  | restore (tag : Byte) (body : List Byte)
  /-- HALT_UNIT (R89). -/
  | haltUnit (tag : Byte) (body : List Byte)
  /-- SET_CONVERTER with direction out (R102). -/
  | setConverterOut (tag : Byte) (body : List Byte)
  /-- SET_CONVERTER with direction in (R103). -/
  | setConverterIn (tag : Byte) (body : List Byte)
  /-- CONVERTER_STATUS (R104). -/
  | converterStatus (tag : Byte) (body : List Byte)
  /-- WATERWAY_STATUS (R125). -/
  | waterwayStatus (tag : Byte) (body : List Byte)
  /-- UNIT_STATUS (R150). -/
  | unitStatus (tag : Byte) (body : List Byte)
  /-- LINK_STATUS (R146). -/
  | linkStatus (tag : Byte) (body : List Byte)
  /-- RELINK (R145). -/
  | relink (tag : Byte) (body : List Byte)
  /-- GAUGE_STATUS (R162). -/
  | gaugeStatus (tag : Byte) (body : List Byte)
  /-- READ_CLOCK (R170). -/
  | readClock (tag : Byte) (body : List Byte)
  /-- SET_TIME (R169). -/
  | setTime (tag : Byte) (body : List Byte)
  /-- TRIM_CLOCK (R168). -/
  | trimClock (tag : Byte) (body : List Byte)
  /-- READ_EVENTS (R191). -/
  | readEvents (tag : Byte) (body : List Byte)
  /-- SET_EVENT_MASK (R191). -/
  | setEventMask (tag : Byte) (body : List Byte)
  /-- CLEAR_EVENTS (R191). -/
  | clearEvents (tag : Byte) (body : List Byte)
  /-- CONFIGURE_WATERWAY (R184). -/
  | configureWaterway (tag : Byte) (body : List Byte)
  /-- CONFIGURE_GAUGE (R184). -/
  | configureGauge (tag : Byte) (body : List Byte)
  /-- CONFIGURE_UNIT (R184). -/
  | configureUnit (tag : Byte) (body : List Byte)
  /-- CONFIGURE_CONVERTER (R184). -/
  | configureConverter (tag : Byte) (body : List Byte)
  /-- CONFIGURE_SUPERVISION (R184). -/
  | configureSupervision (tag : Byte) (body : List Byte)
  /-- START_DISPATCH (R186). -/
  | startDispatch (tag : Byte) (body : List Byte)
  /-- STOP_DISPATCH (R187). -/
  | stopDispatch (tag : Byte) (body : List Byte)
  /-- IDENTIFY (R180). -/
  | identify (tag : Byte) (body : List Byte)
  /-- RESET (R181). -/
  | reset (tag : Byte) (body : List Byte)
  /-- BAD_FRAME: the bytes of a request period that fail the frame check (R173). -/
  | badFrame (bytes : List Byte)
  /-- UNKNOWN_REQUEST: a checked frame whose kind is no request kind (R174). -/
  | unknownRequest (kind tag : Byte) (body : List Byte)
  /-- READ_PERIOD in which `n` bytes are clocked after the first (R177). -/
  | readPeriod (n : Nat)
  deriving DecidableEq, Repr

end Sys2Proof
end

