-- ==== Sys2Proof/Machine/State.lean ====
section
/-! DEFINITION. The state of the UM-8 as plain data, its reasons for a fault or a refusal, and the state after
power-on (`State.reset`).

A figure the spec works out afresh whenever it is needed (the unit chains, ATTN, the waterway plan, the effective
target, a handle) is a function of this state and no field of it. -/

namespace Sys2Proof.Machine

/-! ## Enumerations -/

/-- The commanded mode of an order (Table 1-1); numbered in this order (R194). -/
inductive Mode
  | generate | pump | condenseG | condenseP
  deriving DecidableEq, Repr

/-- The dispatch class of an order (Table 1-1). -/
inductive DispatchClass
  | firm | flexible
  deriving DecidableEq, Repr

/-- Net direction of a pair, fixed at admission (R38). -/
inductive PairSense
  | pumping | generating
  deriving DecidableEq, Repr

/-- The phases of STARTING (Table 1-3). -/
inductive StartPhase
  | queuedConverter | converterRun | coasting | pairHold | awaitingGate | runup
  deriving DecidableEq, Repr

/-- The phases of STOPPING (Table 1-3). -/
inductive StopPhase
  | unloading | awaitingGate | rundown
  deriving DecidableEq, Repr

/-- The causes of DONE (Table 1-4). -/
inductive DoneCause
  | windowEnd | handover | limit | partner | capability
  deriving DecidableEq, Repr

/-- The causes of FAILED (Table 1-4). -/
inductive FailCause
  | startTimeout | converter | late | linkLost | trip | localControl | dropped | stopTimeout | capability | isolated
  | halted
  deriving DecidableEq, Repr

/-- Where an order stands in its life: its state, with the phase, the intended cause (R63), the cause and the
actual end that exist in that state and in no other (R1, R5, R6). -/
inductive Life
  | held
  | due
  | starting (p : StartPhase)
  | running
  | stopping (p : StopPhase) (intended : DoneCause)
  | done (cause : DoneCause) (actualEnd : Nat)
  | failed (cause : FailCause) (actualEnd : Nat)
  deriving DecidableEq, Repr

/-- The unit contexts (R147); numbered in this order (R194). -/
inductive Context
  | absent | dark | idle | engaged | recovering | orphan | locally
  deriving DecidableEq, Repr

/-- The link states (Table 7-1); numbered in this order (R194). -/
inductive LinkState
  | down | exchange | up | refused | lost
  deriving DecidableEq, Repr

/-- Why an offered capability record was refused (R132); numbered in this order (R194). -/
inductive RefusalReason
  | unitNumber | range | genTable | pumpTable
  deriving DecidableEq, Repr

/-- The acknowledged directives (Table 7-4). -/
inductive Directive
  | startGen | startCondenseG | startPump (c : ConverterNo) | startCondenseP (c : ConverterNo) | waterUp
  | setPower (p : Nat) | toStandstill | abortStart
  deriving DecidableEq, Repr

/-- A frame the UM-8 sends on a Unit Link (12.3): HELLO, PAGE_ACK or an acknowledged directive with its toggle. -/
inductive LinkFrame
  | hello
  | pageAck (page : Nat) (toggle : Byte)
  | directive (toggle : Bool) (d : Directive)
  deriving DecidableEq, Repr

/-- The states of a gauge (R154); numbered in this order (R194). -/
inductive GaugeState
  | unknown | valid | fault
  deriving DecidableEq, Repr

/-- Why a telegram was bad (R153); numbered in this order (R194). -/
inductive BadReason
  | frame | notValid | range | jump
  deriving DecidableEq, Repr

/-- The kinds of transient queue entry (R106); numbered in this order (R194). -/
inductive EntryKind
  | start | stop
  deriving DecidableEq, Repr

/-- The dispatch modes (R183). -/
inductive DispatchMode
  | config | dispatch
  deriving DecidableEq, Repr

/-- The ten event kinds (Table 11-2), each the bit of its place (R194). -/
inductive EventKind
  | orderDone | orderFailed | orderChanged | linkChange | capabilityChange | unitChange | gaugeChange | inhibitChange
  | converterChange | portOverrun
  deriving DecidableEq, Repr

/-! ## The Order Table -/

/-- An order record (Table 1-1). The handle is formed from the slot and its generation (R2). `target`, `ramp`,
`derated` and `curtailed` are the record's for mode GENERATE and `attempts` for PUMP and CONDENSE_P; they are absent
for the other modes, and hold 0 or no. `awaited` is the intended cause of a PUMP leg whose stop is awaited (R63, R81). -/
structure Order where
  unit : UnitNo
  mode : Mode
  cls : DispatchClass
  start : Nat
  finish : Option Nat
  target : Nat
  ramp : Nat
  tolerance : Option Nat
  life : Life
  partner : Option Handle
  pairSense : Option PairSense
  successor : Option Handle
  plannedFlow : Int
  actualStart : Option Nat
  attempts : Nat
  retirePending : Bool
  derated : Bool
  curtailed : Bool
  unseen : Bool
  awaited : Option DoneCause
  deriving DecidableEq, Repr

/-- A slot of the Order Table: its generation counter and the record it holds, if any (R3, R10). -/
structure Slot where
  generation : Nat
  order : Option Order
  deriving DecidableEq, Repr

/-! ## The Start Arbiter -/

/-- An entry of the start queue (R93). -/
structure StartEntry where
  handle : Handle
  unit : UnitNo
  cls : DispatchClass
  start : Nat
  deriving DecidableEq, Repr

/-- The state of a converter with the order, unit and timer that exist in it (R91): the run timer runs in RUNNING, the
cool-down timer in COOLING. -/
inductive ConverterState
  | free
  | running (handle : Handle) (unit : UnitNo) (left : Nat)
  | cooling (left : Nat)
  | out
  deriving DecidableEq, Repr

/-- A converter context with its two settings and the level of its fault line (R91). -/
structure Converter where
  runLimit : Nat
  coolDown : Nat
  state : ConverterState
  outRequest : Bool
  faultLine : Bool
  deriving DecidableEq, Repr

/-! ## Waterways: settings, Flow Calculator, inhibits, Waterway Gate, Ramp Controller -/

/-- An entry of a transient queue (R106). -/
structure GateEntry where
  handle : Handle
  unit : UnitNo
  kind : EntryKind
  cls : DispatchClass
  rank : Nat
  deriving DecidableEq, Repr

/-- A waterway: its settings (Table 11-1), live head, head low and live net flow (R29, R36), inhibits (R158), gate
(R106 to R112) and Ramp Controller items (R113). The gate is OPEN when `spacing` is absent, and SPACING with that many
seconds left otherwise. `nextRank` is the joining rank the next entry receives. -/
structure Waterway where
  configured : Bool
  hAdm : Nat
  qgLim : Nat
  qpLim : Nat
  allowance : Nat
  spacingTime : Nat
  upper : GaugeNo
  lower : GaugeNo
  liveHead : Nat
  headLow : Bool
  netFlow : Int
  pumpInhibit : Bool
  genInhibit : Bool
  spacing : Option Nat
  queue : List GateEntry
  nextRank : Nat
  pointer : UnitNo
  excessUnresolved : Bool
  pumpExcess : Bool
  deriving DecidableEq, Repr

/-! ## Units: link, context, progress items, setpoint -/

/-- The pump table of a capability record (R27). -/
structure PumpTable where
  head : Vector Nat 8
  flow : Vector Nat 8
  power : Vector Nat 8
  deriving DecidableEq, Repr

/-- A capability record (R130): bit m of `modes` is set when mode m is offered. The pump table is present exactly when
the record offers PUMP or CONDENSE_P. -/
structure Capability where
  modes : BitVec 4
  href : Nat
  pmin : Nat
  pmax : Nat
  genStart : Nat
  pumpStart : Nat
  genStop : Nat
  pumpStop : Nat
  dwell : Nat
  powers : Vector Nat 8
  flows : Vector Nat 8
  pump : Option PumpTable
  deriving DecidableEq, Repr

/-- What a Unit Link Controller holds of its line (R127). `collecting` is the record under collection, with the pages
taken so far in their order. `heard` tells whether a valid frame came since the last second mark, and `heardBefore` whether one
had come between that mark and the one before it (R142). -/
structure Link where
  state : LinkState
  current : Option Capability
  collecting : Option (List Page)
  lastPage : Option (Nat × Byte)
  toggle : Bool
  outstanding : Option Directive
  held : Option Directive
  ackTimer : Option Nat
  silenceCount : Nat
  silent : Bool
  heard : Bool
  heardBefore : Bool
  frameErrors : Nat
  burstTimer : Option Nat
  lostLatch : Bool
  refusal : Option RefusalReason
  lastReport : Option Report
  sinceUp : Bool
  deriving DecidableEq, Repr

/-- A unit: latched strap (R188), settings (Table 11-1), link, context (R147), isolated flag (R90), supervision timer
and motion mark (R63), last converter item (R91), contribution with its two indications (R31 to R35), and the
setpoint, ceiling and pending setpoint its waterway's Ramp Controller keeps (R113). -/
structure UnitBlock where
  present : Bool
  waterway : WaterwayNo
  eligible : BitVec 2
  link : Link
  context : Context
  isolated : Bool
  supervision : Option Nat
  motion : Bool
  lastConverter : Option ConverterNo
  contribution : Int
  saturated : Bool
  headOutside : Bool
  setpoint : Option Nat
  ceiling : Option Nat
  pendingSetpoint : Option Nat
  deriving DecidableEq, Repr

/-! ## Gauges -/

/-- A gauge: its five settings (Table 11-1), state, held level, limit flags, runs, silence count, last bad reason, and
the level and validity flag of the last telegram heard (R153 to R162). -/
structure Gauge where
  highLimit : Nat
  lowLimit : Nat
  hysteresis : Nat
  jumpLimit : Nat
  silenceLimit : Nat
  state : GaugeState
  level : Option Nat
  high : Bool
  low : Bool
  goodRun : Nat
  badRun : Nat
  silence : Nat
  lastBad : Option BadReason
  lastTelegram : Option (Nat × Bool)
  deriving DecidableEq, Repr

/-! ## Settings, Order Port, due work -/

/-- The supervision settings (Table 11-1). -/
structure Supervision where
  startMargin : Nat
  stopMargin : Nat
  ackTimeout : Nat
  silenceHold : Nat
  burstCount : Nat
  burstWindow : Nat
  deriving DecidableEq, Repr

/-- The Order Port (10): request buffer, response buffer, response-unread flag, overrun flag, and whether the buffer
holds the response to a RESET (R181). -/
structure Port where
  requestBuffer : List Byte
  response : List Byte
  unread : Bool
  overrun : Bool
  resetResponse : Bool
  deriving DecidableEq, Repr

/-- What a second mark or a new value of plant time has brought and what is not yet taken: arrivals (R166), expiries
of timers, and the works each mark brings to a block (R165, R167). -/
inductive DueEvent
  | startArrival (h : Handle)
  | endArrival (h : Handle)
  | latenessArrival (h : Handle)
  | supervision (u : UnitNo)
  | run (c : ConverterNo)
  | coolDown (c : ConverterNo)
  | spacing (w : WaterwayNo)
  | ramp (w : WaterwayNo)
  | hello (u : UnitNo)
  | ack (u : UnitNo)
  | burst (u : UnitNo)
  | linkSilence (u : UnitNo)
  | gaugeSilence (g : GaugeNo)
  deriving DecidableEq, Repr

/-- The state of the UM-8, and the queue of waiting commands. `linkOut` and `portOut` hold what the last command sent
on the Unit Links and on the Order Port (log entry 8); `due` what the last mark brought and is not yet taken (log entry
1); `named` the handles the request in progress names, empty between commands (R9, log entry 29); `picks` counts the
free choices made (log entry 3). -/
structure State where
  mode : DispatchMode
  supervision : Supervision
  retry : Bool
  slots : Vector Slot 64
  startQueue : List StartEntry
  units : Vector UnitBlock 8
  waterways : Vector Waterway 2
  converters : Vector Converter 2
  gauges : Vector Gauge 4
  plantTime : Nat
  pendingTrim : Nat
  latches : BitVec 10
  mask : BitVec 10
  port : Port
  linkOut : List (UnitNo × LinkFrame)
  portOut : List Byte
  due : List DueEvent
  named : List Handle
  picks : Nat
  pending : List Instr
  deriving DecidableEq, Repr

/-- The reasons for a fault. There is none: the spec gives no command, and no state, in which the part stops. -/
inductive Fault
  deriving DecidableEq, Repr

/-- The reasons for a refusal. -/
inductive Refusal
  /-- A command that has no meaning in the model. Safe: nothing is claimed of it. No arm of `exec` raises it. -/
  | notModelled (mnemonic : String)
  deriving DecidableEq, Repr

/-! ## Power-on values -/

/-- A link at power-on (R151). -/
def Link.reset : Link where
  state := .down
  current := none
  collecting := none
  lastPage := none
  toggle := false
  outstanding := none
  held := none
  ackTimer := none
  silenceCount := 0
  silent := false
  heard := false
  heardBefore := false
  frameErrors := 0
  burstTimer := none
  lostLatch := false
  refusal := none
  lastReport := none
  sinceUp := false

/-- A present unit on waterway `w` at power-on (R40, R105, R126, R147, R151, Table 11-1). -/
def UnitBlock.reset (w : WaterwayNo) : UnitBlock where
  present := true
  waterway := w
  eligible := 3
  link := Link.reset
  context := .dark
  isolated := false
  supervision := none
  motion := false
  lastConverter := none
  contribution := 0
  saturated := false
  headOutside := false
  setpoint := none
  ceiling := none
  pendingSetpoint := none

/-- A waterway with the given gauges at power-on (R40, R112, R126, R163, Table 11-1). -/
def Waterway.reset (upper lower : GaugeNo) : Waterway where
  configured := false
  hAdm := 40000
  qgLim := 1000
  qpLim := 1000
  allowance := 50
  spacingTime := 60
  upper := upper
  lower := lower
  liveHead := 40000
  headLow := false
  netFlow := 0
  pumpInhibit := true
  genInhibit := true
  spacing := none
  queue := []
  nextRank := 0
  pointer := 0
  excessUnresolved := false
  pumpExcess := false

/-- A converter with a clear fault line at power-on: COOLING with 600 s (R105, Table 11-1). -/
def Converter.reset : Converter where
  runLimit := 300
  coolDown := 600
  state := .cooling 600
  outRequest := false
  faultLine := false

/-- A gauge at power-on (R163, Table 11-1). -/
def Gauge.reset : Gauge where
  highLimit := 100000
  lowLimit := 0
  hysteresis := 20
  jumpLimit := 50
  silenceLimit := 5
  state := .unknown
  level := none
  high := false
  low := false
  goodRun := 0
  badRun := 0
  silence := 0
  lastBad := none
  lastTelegram := none

/-- The state right after power-on, with every strap present and every fault line clear (DESIGN CHOICE, log entry 5),
and no command waiting. -/
def State.reset : State where
  mode := .config
  supervision :=
    { startMargin := 60, stopMargin := 60, ackTimeout := 2, silenceHold := 3, burstCount := 8, burstWindow := 10 }
  retry := true
  slots := Vector.replicate 64 { generation := 1, order := none }
  startQueue := []
  units := #v[UnitBlock.reset 0, UnitBlock.reset 0, UnitBlock.reset 0, UnitBlock.reset 0,
    UnitBlock.reset 1, UnitBlock.reset 1, UnitBlock.reset 1, UnitBlock.reset 1]
  waterways := #v[Waterway.reset 0 1, Waterway.reset 2 3]
  converters := #v[Converter.reset, Converter.reset]
  gauges := #v[Gauge.reset, Gauge.reset, Gauge.reset, Gauge.reset]
  plantTime := 0
  pendingTrim := 0
  latches := 0
  mask := 0
  port := { requestBuffer := [], response := [], unread := false, overrun := false, resetResponse := false }
  linkOut := []
  portOut := []
  due := []
  named := []
  picks := 0
  pending := []

end Sys2Proof.Machine
end

