-- ==== Sys2Proof/Machine/Bytes.lean ====
section
/-! DEFINITION. Byte order, CRC-16 and code numbers (R193, R194), and the bytes of a Unit Link frame (12.3). -/

namespace Sys2Proof.Machine

/-! ## Numbers in bytes (R193) -/

/-- `v` in `n` bytes, most significant byte first; the bits above are dropped. -/
def beBytes : Nat → Nat → List Byte
  | 0, _ => []
  | n + 1, v => beBytes n (v / 256) ++ [BitVec.ofNat 8 v]

/-- A signed value in `n` bytes, two's complement, most significant byte first. -/
def beSigned (n : Nat) (v : Int) : List Byte := beBytes n (v % (256 ^ n : Nat)).toNat

/-- The number that bytes hold, most significant byte first. -/
def readBytes (bs : List Byte) : Nat := bs.foldl (fun acc b => acc * 256 + b.toNat) 0

/-- The field of `size` bytes at `offset` of a body. -/
def field (body : List Byte) (offset size : Nat) : Nat := readBytes ((body.drop offset).take size)

/-- The byte at `offset` of a body. -/
def byteAt (body : List Byte) (offset : Nat) : Byte := body.getD offset 0

/-- A byte as a signed value (R193). -/
def signedByte (b : Byte) : Int := b.toInt

/-- Two bytes as a signed value (R193). -/
def signedField (body : List Byte) (offset : Nat) : Int := (BitVec.ofNat 16 (field body offset 2)).toInt

/-! ## CRC-16 (R193) -/

/-- One bit shifted through the CRC register: generator x¹⁶ + x¹² + x⁵ + 1. -/
def crcBit (reg : BitVec 16) (bit : Bool) : BitVec 16 :=
  if reg.msb != bit then (reg <<< 1) ^^^ 0x1021 else reg <<< 1

/-- One byte shifted in, most significant bit first. -/
def crcByte (reg : BitVec 16) (b : Byte) : BitVec 16 :=
  [7, 6, 5, 4, 3, 2, 1, 0].foldl (fun r i => crcBit r (b.getLsbD i)) reg

/-- The CRC-16 of bytes: the register starts at all ones, with no final inversion. -/
def crc16 (bs : List Byte) : BitVec 16 := bs.foldl crcByte 0xFFFF

/-- Bytes followed by their CRC, high byte first. -/
def withCrc (bs : List Byte) : List Byte := bs ++ beBytes 2 (crc16 bs).toNat

/-- Whether the last two of the bytes are the CRC of those before them. -/
def crcRight (bs : List Byte) : Bool :=
  bs == withCrc (bs.take (bs.length - 2))

/-! ## Code numbers (R194) -/

def Mode.code : Mode → Nat
  | .generate => 0
  | .pump => 1
  | .condenseG => 2
  | .condenseP => 3

/-- The mode a code names, if it names one. -/
def Mode.ofCode : Nat → Option Mode
  | 0 => some .generate
  | 1 => some .pump
  | 2 => some .condenseG
  | 3 => some .condenseP
  | _ => none

def DispatchClass.code : DispatchClass → Nat
  | .firm => 0
  | .flexible => 1

/-- The class a code names, if it names one. -/
def DispatchClass.ofCode : Nat → Option DispatchClass
  | 0 => some .firm
  | 1 => some .flexible
  | _ => none

def PairSense.code : PairSense → Nat
  | .pumping => 0
  | .generating => 1

def StartPhase.code : StartPhase → Nat
  | .queuedConverter => 0
  | .converterRun => 1
  | .coasting => 2
  | .pairHold => 3
  | .awaitingGate => 4
  | .runup => 5

def StopPhase.code : StopPhase → Nat
  | .unloading => 6
  | .awaitingGate => 4
  | .rundown => 7

/-- The state number of Table 1-2. -/
def Life.stateCode : Life → Nat
  | .held => 0
  | .due => 1
  | .starting _ => 2
  | .running => 3
  | .stopping _ _ => 4
  | .done _ _ => 5
  | .failed _ _ => 6

/-- The phase number, present in STARTING and STOPPING (R5). -/
def Life.phaseCode : Life → Option Nat
  | .starting p => some p.code
  | .stopping p _ => some p.code
  | _ => none

def DoneCause.code : DoneCause → Nat
  | .windowEnd => 0
  | .handover => 1
  | .limit => 2
  | .partner => 3
  | .capability => 4

def FailCause.code : FailCause → Nat
  | .startTimeout => 5
  | .converter => 6
  | .late => 7
  | .linkLost => 8
  | .trip => 9
  | .localControl => 10
  | .dropped => 11
  | .stopTimeout => 12
  | .capability => 13
  | .isolated => 14
  | .halted => 15

/-- The cause number by row of Table 1-4, present in DONE and FAILED. -/
def Life.causeCode : Life → Option Nat
  | .done c _ => some c.code
  | .failed c _ => some c.code
  | _ => none

def Context.code : Context → Nat
  | .absent => 0
  | .dark => 1
  | .idle => 2
  | .engaged => 3
  | .recovering => 4
  | .orphan => 5
  | .locally => 6

def LinkState.code : LinkState → Nat
  | .down => 0
  | .exchange => 1
  | .up => 2
  | .refused => 3
  | .lost => 4

def RefusalReason.code : RefusalReason → Nat
  | .unitNumber => 0
  | .range => 1
  | .genTable => 2
  | .pumpTable => 3

def GaugeState.code : GaugeState → Nat
  | .unknown => 0
  | .valid => 1
  | .fault => 2

def BadReason.code : BadReason → Nat
  | .frame => 0
  | .notValid => 1
  | .range => 2
  | .jump => 3

def EntryKind.code : EntryKind → Nat
  | .start => 0
  | .stop => 1

def ConverterState.code : ConverterState → Nat
  | .free => 0
  | .running _ _ _ => 1
  | .cooling _ => 2
  | .out => 3

def MachineState.code : MachineState → Nat
  | .standstill => 0
  | .runupG => 1
  | .generating => 2
  | .condensingG => 3
  | .spinupP => 4
  | .syncedP => 5
  | .pumping => 6
  | .condensingP => 7
  | .rundown => 8
  | .tripped => 9

/-- The machine state a code names, if it names one. -/
def MachineState.ofCode : Nat → Option MachineState
  | 0 => some .standstill
  | 1 => some .runupG
  | 2 => some .generating
  | 3 => some .condensingG
  | 4 => some .spinupP
  | 5 => some .syncedP
  | 6 => some .pumping
  | 7 => some .condensingP
  | 8 => some .rundown
  | 9 => some .tripped
  | _ => none

def ControlPlace.code : ControlPlace → Nat
  | .remote => 0
  | .locally => 1

/-- The control place a code names, if it names one. -/
def ControlPlace.ofCode : Nat → Option ControlPlace
  | 0 => some .remote
  | 1 => some .locally
  | _ => none

/-- The Unit Link kind code of an acknowledged directive (12.3, in the order of Table 7-4). -/
def Directive.code : Directive → Nat
  | .startGen => 3
  | .startCondenseG => 4
  | .startPump _ => 5
  | .startCondenseP _ => 6
  | .waterUp => 7
  | .setPower _ => 8
  | .toStandstill => 9
  | .abortStart => 10

/-- The parameter bytes of an acknowledged directive (12.3). -/
def Directive.parameter : Directive → List Byte
  | .startPump c => beBytes 1 c
  | .startCondenseP c => beBytes 1 c
  | .setPower p => beBytes 2 p
  | _ => []

/-- A yes-or-no item as a byte (12.2). -/
def boolByte (b : Bool) : List Byte := beBytes 1 b.toNat

/-- Yes-or-no items as the bits of a number, the first at bit 0. -/
def bitsOf : List Bool → Nat
  | [] => 0
  | b :: bs => b.toNat + 2 * bitsOf bs

/-- An optional item: its value in `n` bytes, or zeros where it is absent (12.1). -/
def optBytes (n : Nat) (v : Option Nat) : List Byte := beBytes n (v.getD 0)

/-! ## Unit Link frames (12.3) -/

/-- The kind code and body of a frame the UM-8 sends. -/
def LinkFrame.content : LinkFrame → List Byte
  | .hello => beBytes 1 1
  | .pageAck n t => beBytes 1 2 ++ beBytes 1 n ++ [t]
  | .directive t d => beBytes 1 d.code ++ boolByte t ++ d.parameter

/-- A Unit Link frame as it goes on the line: length byte, kind, body, CRC. -/
def LinkFrame.bytes (f : LinkFrame) : List Byte :=
  withCrc (beBytes 1 (f.content.length + 2) ++ f.content)

end Sys2Proof.Machine
end

