-- ==== Sys2Proof/Machine/Operands.lean ====
section
/-! DEFINITION. The operand forms of the requests: the fields of their bodies (Tables 12-2, 12-6, 12-7) with the ranges and
codes that R43, R184 and R194 allow; `none` stands for a body the owner answers BAD_FIELD. -/

namespace Sys2Proof.Machine

/-! ## Plain fields -/

/-- A number in a range, both ends included. -/
def inRange (lo hi v : Nat) : Bool := lo ≤ v && v ≤ hi

/-- Whether no bit at or above position `n` is set in a byte (R194). -/
def bitsBelow (n : Nat) (b : Byte) : Bool := b.toNat < 2 ^ n

def unitOf (b : Byte) : Option UnitNo := if h : b.toNat < 8 then some ⟨b.toNat, h⟩ else none

def waterwayOf (b : Byte) : Option WaterwayNo := if h : b.toNat < 2 then some ⟨b.toNat, h⟩ else none

def converterOfByte (b : Byte) : Option ConverterNo := if h : b.toNat < 2 then some ⟨b.toNat, h⟩ else none

def gaugeOf (b : Byte) : Option GaugeNo := if h : b.toNat < 4 then some ⟨b.toNat, h⟩ else none

/-- A yes-or-no item: a byte of 0 or 1 (12.2). -/
def boolOf (b : Byte) : Option Bool := if b = 0 then some false else if b = 1 then some true else none

/-- An event set: two bytes with bits 0 to 9 (12.2); a bit outside is refused (R191). -/
def eventSetOf (body : List Byte) : Option (BitVec 10) :=
  if field body 0 2 < 1024 then some (BitVec.ofNat 10 (field body 0 2)) else none

/-- An optional field: its value when its presence bit is set. -/
def whenPresent {α : Type} (present : Bool) (v : α) : Option α := if present then some v else none

/-! ## Offered orders (R43, Table 12-2) -/

/-- An order as offered by PLACE, or a leg as offered by PLACE_PAIR. Target and ramp are 0 outside GENERATE. -/
structure Offer where
  unit : UnitNo
  mode : Mode
  cls : DispatchClass
  start : Nat
  finish : Option Nat
  tolerance : Option Nat
  target : Nat
  ramp : Nat
  deriving DecidableEq, Repr

/-- A GENERATE target in its range (R43). -/
def targetInRange (t : Nat) : Bool := inRange 1 9999 t

/-- A ramp rate in its range (R43). -/
def rampInRange (r : Nat) : Bool := inRange 1 500 r

/-- The presence of target and ramp is right for the mode, and their values are in range (R43). -/
def powerFieldsRight (m : Mode) (hasTarget hasRamp : Bool) (target ramp : Nat) : Bool :=
  if m = .generate then hasTarget && hasRamp && targetInRange target && rampInRange ramp else !hasTarget && !hasRamp

/-- The offer that a body of Table 12-2 makes for the unit and mode given (check 1, R43). -/
def offerOf (unit : UnitNo) (mode : Mode) (body : List Byte) : Option Offer :=
  let presence := byteAt body 3
  match DispatchClass.ofCode (byteAt body 2).toNat with
  | none => none
  | some cls =>
    if bitsBelow 4 presence &&
        powerFieldsRight mode (presence.getLsbD 2) (presence.getLsbD 3) (field body 14 2) (field body 16 2) then
      some
        { unit := unit
          mode := mode
          cls := cls
          start := field body 4 4
          finish := whenPresent (presence.getLsbD 0) (field body 8 4)
          tolerance := whenPresent (presence.getLsbD 1) (field body 12 2)
          target := if mode = .generate then field body 14 2 else 0
          ramp := if mode = .generate then field body 16 2 else 0 }
    else none

/-- The offer of a PLACE (R43). -/
def placeOf (body : List Byte) : Option Offer :=
  match unitOf (byteAt body 0), Mode.ofCode (byteAt body 1).toNat with
  | some u, some m => offerOf u m body
  | _, _ => none

/-- The two legs of a PLACE_PAIR, the PUMP leg first (R54, 12.2). -/
def pairOf (body : List Byte) : Option (Offer × Offer) :=
  match unitOf (byteAt body 0), unitOf (byteAt body 1) with
  | some p, some g =>
    (offerOf g .generate body).map fun q => ({ q with unit := p, mode := .pump, target := 0, ramp := 0 }, q)
  | _, _ => none

/-! ## Amendments (R56, Table 12-6) -/

/-- The fields an AMEND names, each with its new value; an end or tolerance may be named absent. -/
structure Amendment where
  start : Option Nat
  finish : Option (Option Nat)
  tolerance : Option (Option Nat)
  target : Option Nat
  ramp : Option Nat
  cls : Option DispatchClass
  deriving DecidableEq, Repr

/-- Whether the amendment names start or end (check A4). -/
def Amendment.namesWindow (a : Amendment) : Bool := a.start.isSome || a.finish.isSome

/-- Whether it names a field that a pair shares (R59). -/
def Amendment.namesShared (a : Amendment) : Bool := a.namesWindow || a.cls.isSome || a.tolerance.isSome

/-- Whether it names target or ramp. -/
def Amendment.namesPower (a : Amendment) : Bool := a.target.isSome || a.ramp.isSome

/-- The amendment that a body of Table 12-6 makes to an order of the mode (check A2). -/
def amendmentOf (mode : Mode) (body : List Byte) : Option Amendment :=
  let named := byteAt body 2
  let presence := byteAt body 3
  let target := field body 14 2
  let ramp := field body 16 2
  let cls := DispatchClass.ofCode (byteAt body 18).toNat
  if named ≠ 0 ∧ bitsBelow 6 named ∧ bitsBelow 4 presence ∧
      (named.getLsbD 3 → mode = .generate ∧ presence.getLsbD 2 ∧ targetInRange target) ∧
      (named.getLsbD 4 → mode = .generate ∧ presence.getLsbD 3 ∧ rampInRange ramp) ∧
      (named.getLsbD 5 → cls.isSome) then
    some
      { start := whenPresent (named.getLsbD 0) (field body 4 4)
        finish := whenPresent (named.getLsbD 1) (whenPresent (presence.getLsbD 0) (field body 8 4))
        tolerance := whenPresent (named.getLsbD 2) (whenPresent (presence.getLsbD 1) (field body 12 2))
        target := whenPresent (named.getLsbD 3) target
        ramp := whenPresent (named.getLsbD 4) ramp
        cls := if named.getLsbD 5 then cls else none }
  else none

/-! ## Configuration bodies (R184, Table 11-1, Table 12-7) -/

/-- The settings of CONFIGURE_WATERWAY. -/
structure WaterwaySettings where
  hAdm : Nat
  qgLim : Nat
  qpLim : Nat
  allowance : Nat
  spacingTime : Nat
  upper : GaugeNo
  lower : GaugeNo
  deriving DecidableEq, Repr

def waterwaySettingsOf (body : List Byte) : Option (WaterwayNo × WaterwaySettings) :=
  match waterwayOf (byteAt body 0), gaugeOf (byteAt body 13), gaugeOf (byteAt body 14) with
  | some w, some up, some lo =>
    if inRange 500 90000 (field body 1 4) && inRange 1 9999 (field body 5 2) && inRange 1 9999 (field body 7 2) &&
        inRange 1 9999 (field body 9 2) && inRange 0 900 (field body 11 2) then
      some (w,
        { hAdm := field body 1 4
          qgLim := field body 5 2
          qpLim := field body 7 2
          allowance := field body 9 2
          spacingTime := field body 11 2
          upper := up
          lower := lo })
    else none
  | _, _, _ => none

/-- The settings of CONFIGURE_GAUGE. -/
structure GaugeSettings where
  highLimit : Nat
  lowLimit : Nat
  hysteresis : Nat
  jumpLimit : Nat
  silenceLimit : Nat
  deriving DecidableEq, Repr

def gaugeSettingsOf (body : List Byte) : Option (GaugeNo × GaugeSettings) :=
  match gaugeOf (byteAt body 0) with
  | some g =>
    if inRange 0 100000 (field body 1 4) && inRange 0 100000 (field body 5 4) && inRange 1 1000 (field body 9 2) &&
        inRange 1 1000 (field body 11 2) && inRange 1 60 (field body 13 2) then
      some (g,
        { highLimit := field body 1 4
          lowLimit := field body 5 4
          hysteresis := field body 9 2
          jumpLimit := field body 11 2
          silenceLimit := field body 13 2 })
    else none
  | none => none

/-- The unit, waterway and set of eligible converters of CONFIGURE_UNIT. -/
def unitSettingsOf (body : List Byte) : Option (UnitNo × WaterwayNo × BitVec 2) :=
  match unitOf (byteAt body 0), waterwayOf (byteAt body 1) with
  | some u, some w =>
    if bitsBelow 2 (byteAt body 2) then some (u, w, BitVec.ofNat 2 (byteAt body 2).toNat) else none
  | _, _ => none

/-- The converter, run limit, cool-down and retry setting of CONFIGURE_CONVERTER. -/
def converterSettingsOf (body : List Byte) : Option (ConverterNo × Nat × Nat × Bool) :=
  match converterOfByte (byteAt body 0), boolOf (byteAt body 5) with
  | some c, some retry =>
    if inRange 30 1200 (field body 1 2) && inRange 0 3600 (field body 3 2) then
      some (c, field body 1 2, field body 3 2, retry)
    else none
  | _, _ => none

/-- The settings of CONFIGURE_SUPERVISION. -/
def supervisionOf (body : List Byte) : Option Supervision :=
  if inRange 0 900 (field body 0 2) && inRange 0 900 (field body 2 2) && inRange 1 10 (field body 4 2) &&
      inRange 1 30 (field body 6 2) && inRange 1 255 (field body 8 1) && inRange 1 60 (field body 9 2) then
    some
      { startMargin := field body 0 2
        stopMargin := field body 2 2
        ackTimeout := field body 4 2
        silenceHold := field body 6 2
        burstCount := field body 8 1
        burstWindow := field body 9 2 }
  else none

end Sys2Proof.Machine
end

