-- ==== Sys2Proof/Machine/Flags.lean ====
section
/-! DEFINITION. Flag computations: the event latches, the mask and ATTN (R189, R190), and the predicates on states and
phases that the rules test. -/

namespace Sys2Proof.Machine

/-! ## Events (11.5) -/

/-- The bit position of an event kind (R194). -/
def EventKind.index : EventKind → Nat
  | .orderDone => 0
  | .orderFailed => 1
  | .orderChanged => 2
  | .linkChange => 3
  | .capabilityChange => 4
  | .unitChange => 5
  | .gaugeChange => 6
  | .inhibitChange => 7
  | .converterChange => 8
  | .portOverrun => 9

/-- The latch of an event kind, as a bit of the ten. -/
def EventKind.bit (e : EventKind) : BitVec 10 := 1#10 <<< e.index

/-- An event is raised: its latch is set, whatever the mask and whatever it was before (R189). -/
def State.raise (e : EventKind) (s : State) : State := { s with latches := s.latches ||| e.bit }

/-- Whether the latch of a kind is set. -/
def State.latched (s : State) (e : EventKind) : Bool := s.latches.getLsbD e.index

/-- The ATTN line: asserted while a latch is set whose enable is set (R190). -/
def State.attn (s : State) : Bool := s.latches &&& s.mask != 0

/-! ## Orders -/

/-- STARTING, RUNNING or STOPPING (R4). -/
def Life.engaged : Life → Bool
  | .starting _ => true
  | .running => true
  | .stopping _ _ => true
  | _ => false

/-- HELD, DUE, STARTING, RUNNING or STOPPING (R4). -/
def Life.live : Life → Bool
  | .held => true
  | .due => true
  | l => l.engaged

def Life.isStarting : Life → Bool
  | .starting _ => true
  | _ => false

def Life.isStopping : Life → Bool
  | .stopping _ _ => true
  | _ => false

/-- STOPPING in UNLOADING. -/
def Life.isUnloading : Life → Bool
  | .stopping .unloading _ => true
  | _ => false

/-- HELD or DUE. -/
def Life.waiting : Life → Bool
  | .held => true
  | .due => true
  | _ => false

/-- The states whose orders enter the waterway plan: HELD, DUE, STARTING, RUNNING (R50). -/
def Life.planned (l : Life) : Bool := l.live && !l.isStopping

/-- PUMP and CONDENSE_P are started by a converter (Table 4-1). -/
def Mode.pumpDirection : Mode → Bool
  | .pump => true
  | .condenseP => true
  | _ => false

/-- The early STARTING phases, in which the machine is still at standstill (R17, Table 4-3, R82). -/
def earlyStart (m : Mode) : StartPhase → Bool
  | .queuedConverter => true
  | .pairHold => true
  | .awaitingGate => m != .pump
  | _ => false

/-- The GENERATE leg of a pair is on line in RUNUP and RUNNING (R160). -/
def Life.onLine : Life → Bool
  | .starting .runup => true
  | .running => true
  | _ => false

def Order.isPairLeg (r : Order) : Bool := r.partner.isSome

/-- Whether plant time `t` lies in the window of the order (1.6). -/
def inWindow (start : Nat) (finish : Option Nat) (t : Nat) : Bool :=
  start ≤ t && (match finish with | some e => t < e | none => true)

/-- Whether an end is present and at or before `t`. -/
def endReached (finish : Option Nat) (t : Nat) : Bool :=
  match finish with
  | some e => e ≤ t
  | none => false

/-- Whether a tolerance is present and the lateness time start + tolerance is at or before `t` (4.1). -/
def latenessReached (start : Nat) (tolerance : Option Nat) (t : Nat) : Bool :=
  match tolerance with
  | some d => start + d ≤ t
  | none => false

/-! ## Capability records -/

/-- Whether the record offers the mode (R130). -/
def Capability.offers (c : Capability) (m : Mode) : Bool :=
  match m with
  | .generate => c.modes.getLsbD 0
  | .pump => c.modes.getLsbD 1
  | .condenseG => c.modes.getLsbD 2
  | .condenseP => c.modes.getLsbD 3

/-- Whether the record offers PUMP or CONDENSE_P. -/
def Capability.offersPump (c : Capability) : Bool := c.offers .pump || c.offers .condenseP

/-- The stop time of a mode's direction (R48, R77). -/
def Capability.stopTime (c : Capability) (m : Mode) : Nat := if m.pumpDirection then c.pumpStop else c.genStop

/-! ## Limit flags and inhibits (Chapter 8) -/

/-- The HIGH flag evaluated against a held level (R157). -/
def evalHigh (limit hysteresis level : Nat) (flag : Bool) : Bool :=
  if limit ≤ level then true else if level + hysteresis ≤ limit then false else flag

/-- The LOW flag evaluated against a held level (R157). -/
def evalLow (limit hysteresis level : Nat) (flag : Bool) : Bool :=
  if level ≤ limit then true else if limit + hysteresis ≤ level then false else flag

/-- PUMP_INHIBIT from the upper and the lower gauge (R158). -/
def pumpInhibitOf (upper lower : Gauge) : Bool :=
  upper.high || lower.low || upper.state == .unknown || lower.state == .unknown

/-- GEN_INHIBIT from the upper and the lower gauge (R158). -/
def genInhibitOf (upper lower : Gauge) : Bool :=
  upper.low || lower.high || upper.state == .unknown || lower.state == .unknown

end Sys2Proof.Machine
end

