-- ==== Sys2Proof/Machine/Ops.lean ====
section
/-! DEFINITION. The named operations over the state: reading and writing the parts, the Order Table (R2, R3, R9, R10,
R13), unit contexts (R149), directives on the Unit Links (R124, R136, R138), timers (R167). -/

namespace Sys2Proof.Machine

/-! ## Parts -/

/-- A function applied to every place of a vector. -/
def mapVector {α β : Type} {n : Nat} (f : α → β) (v : Vector α n) : Vector β n :=
  ⟨⟨v.toList.map f⟩, by simp⟩

def State.unit (s : State) (u : UnitNo) : UnitBlock := s.units[u]

def State.setUnit (s : State) (u : UnitNo) (b : UnitBlock) : State := { s with units := s.units.set u b }

def State.modUnit (s : State) (u : UnitNo) (f : UnitBlock → UnitBlock) : State := s.setUnit u (f (s.unit u))

def State.modLink (s : State) (u : UnitNo) (f : Link → Link) : State :=
  s.modUnit u fun b => { b with link := f b.link }

def State.waterway (s : State) (w : WaterwayNo) : Waterway := s.waterways[w]

def State.setWaterway (s : State) (w : WaterwayNo) (x : Waterway) : State :=
  { s with waterways := s.waterways.set w x }

def State.modWaterway (s : State) (w : WaterwayNo) (f : Waterway → Waterway) : State :=
  s.setWaterway w (f (s.waterway w))

def State.converter (s : State) (c : ConverterNo) : Converter := s.converters[c]

def State.setConverter (s : State) (c : ConverterNo) (x : Converter) : State :=
  { s with converters := s.converters.set c x }

def State.modConverter (s : State) (c : ConverterNo) (f : Converter → Converter) : State :=
  s.setConverter c (f (s.converter c))

def State.gauge (s : State) (g : GaugeNo) : Gauge := s.gauges[g]

def State.setGauge (s : State) (g : GaugeNo) (x : Gauge) : State := { s with gauges := s.gauges.set g x }

def State.modGauge (s : State) (g : GaugeNo) (f : Gauge → Gauge) : State := s.setGauge g (f (s.gauge g))

def State.slot (s : State) (k : SlotNo) : Slot := s.slots[k]

def State.setSlot (s : State) (k : SlotNo) (x : Slot) : State := { s with slots := s.slots.set k x }

/-- The units in increasing number. -/
def allUnits : List UnitNo := [0, 1, 2, 3, 4, 5, 6, 7]

def allWaterways : List WaterwayNo := [0, 1]

def allConverters : List ConverterNo := [0, 1]

def allGauges : List GaugeNo := [0, 1, 2, 3]

/-- The units a waterway has, in increasing number. -/
def State.unitsOf (s : State) (w : WaterwayNo) : List UnitNo := allUnits.filter fun u => (s.unit u).waterway == w

/-! ## The Order Table -/

/-- The slot a handle carries: the handle modulo 64 (R2). -/
def slotOf (h : Handle) : SlotNo := ⟨h % 64, Nat.mod_lt _ (by decide)⟩

/-- The handle of the record in a slot of the given generation (R2). -/
def handleOf (k : SlotNo) (generation : Nat) : Handle := generation * 64 + k

/-- The record a handle names: that of its slot, when the slot is occupied and has the handle's generation; a stale
handle names none (R2). -/
def State.order? (s : State) (h : Handle) : Option Order :=
  if (s.slot (slotOf h)).generation = h / 64 then (s.slot (slotOf h)).order else none

/-- The records of the table with their handles, in increasing slot order. -/
def State.orders (s : State) : List (Handle × Order) :=
  s.slots.toList.zipIdx.filterMap fun p => p.1.order.map fun r => (p.1.generation * 64 + p.2, r)

/-- The record a handle names is changed; a stale handle changes nothing. -/
def State.modOrder (s : State) (h : Handle) (f : Order → Order) : State :=
  match s.order? h with
  | some r => s.setSlot (slotOf h) { (s.slot (slotOf h)) with order := some (f r) }
  | none => s

/-- The next generation of a freed slot: 1023 is followed by 1 (R3). -/
def nextGeneration (g : Nat) : Nat := if g = 1023 then 1 else g + 1

/-- Every successor field that holds the handle is cleared. -/
def State.unlinkTo (s : State) (h : Handle) : State :=
  { s with
    slots := mapVector (fun x =>
      { x with order := x.order.map fun r => if r.successor = some h then { r with successor := none } else r })
      s.slots }

/-- Every successor link in which the record takes part is cleared (R13). -/
def State.unlink (s : State) (h : Handle) : State := (s.unlinkTo h).modOrder h fun r => { r with successor := none }

/-- A record is freed: links cleared, slot free, generation raised (R3, R10). -/
def State.freeOrder (s : State) (h : Handle) : State :=
  match s.order? h with
  | some _ => (s.unlinkTo h).setSlot (slotOf h)
      { generation := nextGeneration (s.slot (slotOf h)).generation, order := none }
  | none => s

/-- Slot numbers in increasing order. -/
def allSlots : List SlotNo := List.finRange 64

/-- The free slots in increasing number (R3). -/
def State.freeSlots (s : State) : List SlotNo := allSlots.filter fun k => (s.slot k).order.isNone

/-- The engaged order of a unit with its handle; there is at most one (R11). -/
def State.engagedOrder (s : State) (u : UnitNo) : Option (Handle × Order) :=
  s.orders.find? fun p => p.2.unit == u && p.2.life.engaged

/-- The live orders of a unit (R11), in slot order. -/
def State.liveOrders (s : State) (u : UnitNo) : List (Handle × Order) :=
  s.orders.filter fun p => p.2.unit == u && p.2.life.live

/-- Insertion by increasing start. -/
def insertByStart (x : Handle × Order) : List (Handle × Order) → List (Handle × Order)
  | [] => [x]
  | y :: ys => if x.2.start ≤ y.2.start then x :: y :: ys else y :: insertByStart x ys

/-- The unit chain: the live orders of a unit in increasing order of start (R11). -/
def State.chain (s : State) (u : UnitNo) : List (Handle × Order) := (s.liveOrders u).foldr insertByStart []

/-- The orders that name the given handle as their successor (R13, which allows one at most: `State.writeLinks` keeps that). -/
def State.predecessors (s : State) (h : Handle) : List (Handle × Order) := s.orders.filter fun p => p.2.successor == some h

/-- An event about a record is raised, unless the request in progress names the record (R9, R19). -/
def State.raiseFor (s : State) (h : Handle) (e : EventKind) : State := if s.named.contains h then s else s.raise e

/-- A listed change of a record: its unseen flag is set and the event raised, unless the request in progress names the
record or its partner (R9). -/
def State.note (s : State) (h : Handle) (e : EventKind) : State :=
  if s.named.contains h then s else (s.modOrder h fun r => { r with unseen := true }).raise e

/-- An order enters a state: the record is changed and the change noted (R9, Table 1-5). -/
def State.enter (s : State) (h : Handle) (l : Life) (e : EventKind) : State :=
  (s.modOrder h fun r => { r with life := l }).note h e

/-! ## Unit context (R149) -/

/-- The context of a unit changes. UNIT_CHANGE is raised except into or out of ENGAGED (R149); leaving ENGAGED clears the
last converter item (R92) and the motion mark (R63); becoming LOCAL drops the held directive (R138). -/
def State.setContext (s : State) (u : UnitNo) (c : Context) : State :=
  let old := (s.unit u).context
  let s := s.modUnit u fun b =>
    { b with
      context := c
      lastConverter := if old = .engaged ∧ c ≠ .engaged then none else b.lastConverter
      motion := if old = .engaged ∧ c ≠ .engaged then false else b.motion
      link := if c = .locally then { b.link with held := none } else b.link }
  if old = c ∨ old = .engaged ∨ c = .engaged then s else s.raise .unitChange

/-! ## Directives (R136 to R138, R124) -/

/-- A frame goes out on a unit's link. -/
def State.emit (s : State) (u : UnitNo) (f : LinkFrame) : State := { s with linkOut := s.linkOut ++ [(u, f)] }

/-- An acknowledged directive is sent: it becomes outstanding with the link's toggle, and the ack timer is started
(R136, R143). -/
def State.send (s : State) (u : UnitNo) (d : Directive) : State :=
  (s.modLink u fun l => { l with outstanding := some d, ackTimer := some s.supervision.ackTimeout }).emit u
    (.directive (s.unit u).link.toggle d)

/-- Whether a held directive bars a SET_POWER (R138). -/
def Directive.isStop : Directive → Bool
  | .toStandstill => true
  | .abortStart => true
  | _ => false

/-- A block asks for a directive: dropped while the link is not UP (R127), sent at once when none is outstanding, and
otherwise kept as pending setpoint or held directive (R124, R138). -/
def State.ask (s : State) (u : UnitNo) (d : Directive) : State :=
  let b := s.unit u
  if b.link.state ≠ .up then s
  else if b.link.outstanding.isNone then s.send u d
  else match d with
    | .setPower p =>
      if b.link.held.any Directive.isStop then s else s.modUnit u fun b => { b with pendingSetpoint := some p }
    | d => s.modUnit u fun b =>
        { b with
          link := { b.link with held := some d }
          pendingSetpoint := if d.isStop then none else b.pendingSetpoint }

/-- At a matching ACK the held directive goes, or else the pending setpoint (R138). -/
def State.sendNext (s : State) (u : UnitNo) : State :=
  match (s.unit u).link.held, (s.unit u).pendingSetpoint with
  | some d, _ => (s.modLink u fun l => { l with held := none }).send u d
  | none, some p => (s.modUnit u fun b => { b with pendingSetpoint := none }).send u (.setPower p)
  | none, none => s

/-! ## Timers (R167) -/

/-- A running timer counts one second mark. -/
def countDown (t : Option Nat) : Option Nat := t.map (· - 1)

/-- The unit's supervision timer is started afresh (R74). -/
def State.startSupervision (s : State) (u : UnitNo) (n : Nat) : State :=
  s.modUnit u fun b => { b with supervision := some n }

def State.stopSupervision (s : State) (u : UnitNo) : State := s.modUnit u fun b => { b with supervision := none }

/-- A figure of the unit's current capability record; 0 where none is held. -/
def State.capTime (s : State) (u : UnitNo) (f : Capability → Nat) : Nat :=
  ((s.unit u).link.current.map f).getD 0

/-- The supervision time of a generating-direction start (R69). -/
def State.genStartTime (s : State) (u : UnitNo) : Nat := s.capTime u (·.genStart) + s.supervision.startMargin

/-- The supervision time of a water-up (R71). -/
def State.waterUpTime (s : State) (u : UnitNo) : Nat := s.capTime u (·.pumpStart) + s.supervision.startMargin

/-- The supervision time of COASTING (R72). -/
def State.coastTime (s : State) (u : UnitNo) : Nat := s.capTime u (·.pumpStop) + s.supervision.stopMargin

/-- The supervision time of RUNDOWN (R77). -/
def State.rundownTime (s : State) (u : UnitNo) (m : Mode) : Nat :=
  s.capTime u (·.stopTime m) + s.supervision.stopMargin

/-! ## Free choices -/

/-- One of `n` things of one instant is picked to be taken first; the pick is free (log entry 3). -/
def State.pick (s : State) (n : Nat) : Nat × State :=
  if n ≤ 1 then (0, s) else (Config.freePick s.picks n % n, { s with picks := s.picks + 1 })

/-- The things of a list, each next one by a free pick; `n` is the length of the list. -/
def drawAll {α : Type} : Nat → List α → State → List α × State
  | 0, _, s => ([], s)
  | n + 1, xs, s =>
    let (k, s) := s.pick xs.length
    match xs[k]? with
    | some x =>
      let (ys, s) := drawAll n (xs.eraseIdx k) s
      (x :: ys, s)
    | none => ([], s)

/-- The things of one instant in a free order (log entry 3). -/
def State.inFreeOrder {α : Type} (s : State) (xs : List α) : List α × State := drawAll xs.length xs s

end Sys2Proof.Machine
end

