-- ==== Sys2Proof/Machine/Port.lean ====
section
/-! DEFINITION. The Order Port (Chapter 10): request frames, their judging, responses, read periods. -/

namespace Sys2Proof.Machine

/-- The result codes, in the order of Table 10-2. -/
inductive Result
  | ok | acceptedStopping | badFrame | unknownRequest | badField | wrongMode | noSuchOrder | wrongState | tableFull
  | unitUnavailable | modeNotSupported | targetRange | badWindow | overlap | changeoverShort | flowLimit | headRange
  | pairInvalid | linked | busy | badConfig
  deriving DecidableEq, Repr

/-- The code number of a result: its place in Table 10-2, from 0 (R194). -/
def Result.code : Result → Nat
  | .ok => 0
  | .acceptedStopping => 1
  | .badFrame => 2
  | .unknownRequest => 3
  | .badField => 4
  | .wrongMode => 5
  | .noSuchOrder => 6
  | .wrongState => 7
  | .tableFull => 8
  | .unitUnavailable => 9
  | .modeNotSupported => 10
  | .targetRange => 11
  | .badWindow => 12
  | .overlap => 13
  | .changeoverShort => 14
  | .flowLimit => 15
  | .headRange => 16
  | .pairInvalid => 17
  | .linked => 18
  | .busy => 19
  | .badConfig => 20

/-- What the owner of a request answers: OK with a body, ACCEPTED_STOPPING, OK after a RESET, or a refusal. A refusal carries no
state, so it has no effect on any block (R179). -/
inductive Answer
  | ok (s : State) (body : List Byte)
  | stopping (s : State)
  | afterReset (s : State)
  | refused (r : Result)
  deriving DecidableEq, Repr

/-! ## Frames (12.2) -/

/-- A request frame as it is written on the port (Table 12-1). -/
def requestFrame (kind : Nat) (tag : Byte) (body : List Byte) : List Byte :=
  withCrc (beBytes 1 (body.length + 4) ++ beBytes 1 kind ++ [tag] ++ body)

/-- The request buffer holds at most 245 bytes (R172). -/
def bufferSize : Nat := 245

/-- The frame check of the Order Port (R173). -/
def frameRight (bytes : List Byte) : Bool :=
  inRange 4 244 (byteAt bytes 0).toNat && bytes.length == (byteAt bytes 0).toNat + 1 && crcRight bytes

/-- The flags byte of a response: overrun, ATTN, dispatch mode (R176). -/
def State.flagsByte (s : State) : Nat := bitsOf [s.port.overrun, s.attn, s.mode == .dispatch]

/-- The response frame to the request in the request buffer, whose kind and tag it echoes (R173, R176, Table 12-1). -/
def State.responseFrame (s : State) (r : Result) (body : List Byte) : List Byte :=
  withCrc (beBytes 1 (body.length + 6) ++ [byteAt s.port.requestBuffer 1, byteAt s.port.requestBuffer 2] ++
    beBytes 1 r.code ++ beBytes 1 s.flagsByte ++ body)

/-! ## The end of a request frame -/

/-- What the last command sent is no longer on the lines (log entry 8). -/
def State.quiet (s : State) : State := { s with linkOut := [], portOut := [] }

/-- The response standing unread is discarded, and the overrun flag and PORT_OVERRUN tell of it (R178). -/
def State.discardUnread (s : State) : State :=
  if s.port.unread then
    ({ s with port := { s.port with response := [], unread := false, overrun := true, resetResponse := false } }).raise
      .portOverrun
  else s

/-- A request frame has ended: its bytes are in the request buffer, zeros were sent meanwhile, and an unread response is
discarded (R172, R178). -/
def State.frameEnded (s : State) (bytes : List Byte) : State :=
  let s := s.quiet.discardUnread
  { s with
    port := { s.port with requestBuffer := bytes.take bufferSize }
    portOut := List.replicate bytes.length 0 }

/-- The response is formed: it replaces the buffer, is unread, and the overrun flag, once reported, is cleared (R176,
R178). -/
def State.respond (s : State) (r : Result) (body : List Byte) : State :=
  { s with
    port :=
      { requestBuffer := []
        response := s.responseFrame r body
        unread := true
        overrun := false
        resetResponse := false }
    named := [] }

/-- The response in the buffer is one to a RESET (R181). -/
def State.markReset (s : State) : State := { s with port := { s.port with resetResponse := true } }

/-- The response to what the owner answers; one that refuses carries an empty body (R176). -/
def State.answer (s : State) : Answer → State
  | .ok s' body => s'.respond .ok body
  | .stopping s' => s'.respond .acceptedStopping []
  | .afterReset s' => (s'.respond .ok []).markReset
  | .refused r => s.respond r []

/-- The dispatch modes that admit a kind (Table 10-1). -/
structure Admits where
  config : Bool
  dispatch : Bool

/-- A kind taken in both modes. -/
def anyMode : Admits := { config := true, dispatch := true }

/-- A kind taken in CONFIG alone. -/
def onlyConfig : Admits := { config := true, dispatch := false }

/-- A kind taken in DISPATCH alone. -/
def onlyDispatch : Admits := { config := false, dispatch := true }

/-- Whether the present mode admits the kind. -/
def Admits.admits (a : Admits) (m : DispatchMode) : Bool :=
  match m with
  | .config => a.config
  | .dispatch => a.dispatch

/-- A request frame of a known kind that passed the frame check: the dispatch mode is judged, then the body length, and
then the owner carries the request out (R174). -/
def State.request (s : State) (kind : Nat) (modes : Admits) (length : Nat) (tag : Byte) (body : List Byte)
    (owner : State → Answer) : State :=
  let s := s.frameEnded (requestFrame kind tag body)
  if !modes.admits s.mode then s.respond .wrongMode []
  else if body.length ≠ length then s.respond .badField []
  else s.answer (owner s)

/-- The owner checks that an operand is one its ranges allow, and goes on with it (BAD_FIELD otherwise). -/
def withField {α : Type} (f : Option α) (k : α → Answer) : Answer :=
  match f with
  | some a => k a
  | none => .refused .badField

/-! ## Frames that reach no owner -/

/-- BAD_FRAME: a request period whose bytes fail the frame check is answered BAD_FRAME with the kind and tag bytes
received; a period without a whole byte has no effect (R172, R173). -/
def execBadFrame (bytes : List Byte) (s : State) : Host.Outcome State Fault Refusal :=
  .next (if bytes = [] then s.quiet else (s.frameEnded bytes).respond .badFrame [])

/-- UNKNOWN_REQUEST (R174). -/
def execUnknownRequest (kind tag : Byte) (body : List Byte) (s : State) : Host.Outcome State Fault Refusal :=
  .next ((s.frameEnded (requestFrame kind.toNat tag body)).respond .unknownRequest [])

/-! ## Read periods (R177) -/

/-- A read period was closed after every byte of the response was sent: the response is no longer unread, and the response
to a RESET leaves the buffer (R177, R181). -/
def State.readInFull (s : State) : State :=
  { s with
    port :=
      { s.port with
        response := if s.port.resetResponse then [] else s.port.response
        unread := false
        resetResponse := false } }

/-- READ_PERIOD in which `n` bytes are clocked after the first: a byte of 0, then the response buffer, then zeros (R172,
R177). -/
def execReadPeriod (n : Nat) (s : State) : Host.Outcome State Fault Refusal :=
  let s' := { s.quiet with portOut := 0 :: (s.port.response ++ List.replicate (n - s.port.response.length) 0).take n }
  .next (if s.port.response ≠ [] ∧ s.port.response.length ≤ n then s'.readInFull else s')

end Sys2Proof.Machine
end

