-- ==== Sys2Proof/Decode.lean ====
section
/-! DEFINITION. From the bytes of the lines to commands: select periods of the Order Port (R172 to R174), Unit Link frames (R139,
Table 12-4), level telegrams. The opcode table gives no row any bits, so `decodeTableWord` spells no command. -/

namespace Sys2Proof

open Machine

/-- The command a word spells by the bits of the opcode table: none, since no row of it gives bits. -/
def decodeTableWord (_nbits _w : Nat) : Option Instr := none

/-! ## The Order Port -/

/-- The request a checked frame of the given kind carries (R194); the direction byte tells the two SET_CONVERTER commands apart
(log entry 7). -/
def requestCommand (kind tag : Byte) (body : List Byte) : Instr :=
  match kind.toNat with
  | 1 => .place tag body
  | 2 => .placePair tag body
  | 3 => .amend tag body
  | 4 => .retire tag body
  | 5 => .lookup tag body
  | 6 => .listUnit tag body
  | 7 => .listState tag body
  | 8 => .isolate tag body
  | 9 => .restore tag body
  | 10 => .haltUnit tag body
  | 11 => if byteAt body 1 = 1 then .setConverterIn tag body else .setConverterOut tag body
  | 12 => .converterStatus tag body
  | 13 => .waterwayStatus tag body
  | 14 => .unitStatus tag body
  | 15 => .linkStatus tag body
  | 16 => .relink tag body
  | 17 => .gaugeStatus tag body
  | 18 => .readClock tag body
  | 19 => .setTime tag body
  | 20 => .trimClock tag body
  | 21 => .readEvents tag body
  | 22 => .setEventMask tag body
  | 23 => .clearEvents tag body
  | 24 => .configureWaterway tag body
  | 25 => .configureGauge tag body
  | 26 => .configureUnit tag body
  | 27 => .configureConverter tag body
  | 28 => .configureSupervision tag body
  | 29 => .startDispatch tag body
  | 30 => .stopDispatch tag body
  | 31 => .identify tag body
  | 32 => .reset tag body
  | _ => .unknownRequest kind tag body

/-- The command of a select period closed after these whole bytes; none where no whole byte came (R172, R173). -/
def selectPeriod (bytes : List Byte) : Option Instr :=
  match bytes with
  | [] => none
  | b :: rest =>
    if b = 0 then some (.readPeriod rest.length)
    else if frameRight bytes then
      some (requestCommand (byteAt bytes 1) (byteAt bytes 2) ((bytes.drop 3).take (bytes.length - 5)))
    else some (.badFrame bytes)

/-! ## Unit Links -/

/-- The figures of a PAGE 0 body (Table 12-4). -/
def figuresOf (body : List Byte) : Figures where
  unitEcho := field body 3 1
  modeSet := byteAt body 4
  href := field body 5 4
  pmin := field body 9 2
  pmax := field body 11 2
  genStart := field body 13 2
  pumpStart := field body 15 2
  genStop := field body 17 2
  pumpStop := field body 19 2
  dwell := field body 21 2

/-- The four generating breakpoints of a PAGE 1 or 2 body. -/
def genPointsOf (body : List Byte) : Vector GenPoint 4 :=
  Vector.ofFn fun i => { p := field body (3 + 4 * i) 2, q := field body (5 + 4 * i) 2 }

/-- The four pump breakpoints of a PAGE 3 or 4 body. -/
def pumpPointsOf (body : List Byte) : Vector PumpPoint 4 :=
  Vector.ofFn fun i => { h := field body (3 + 8 * i) 4, qp := field body (7 + 8 * i) 2, pp := field body (9 + 8 * i) 2 }

/-- The contents of a page by its number, when the length byte is the one its number gives (12.3). -/
def pageContentsOf (length : Nat) (body : List Byte) : Option PageContents :=
  match (byteAt body 0).toNat, length with
  | 0, 26 => some (.figures (figuresOf body))
  | 1, 22 => some (.genLow (genPointsOf body))
  | 2, 22 => some (.genHigh (genPointsOf body))
  | 3, 38 => some (.pumpLow (pumpPointsOf body))
  | 4, 38 => some (.pumpHigh (pumpPointsOf body))
  | _, _ => none

/-- The command of a frame with a right length byte and CRC, by its report kind (R139, R194). -/
def reportCommand (u : UnitNo) (length : Nat) (kind : Byte) (body : List Byte) : Instr :=
  match kind.toNat with
  | 64 =>
    match pageContentsOf length body with
    | some c => .pageReport u { toggle := byteAt body 1, more := byteAt body 2, contents := c }
    | none => .linkFrameBad u
  | 65 => if length = 5 then .ackReport u (byteAt body 0) (byteAt body 1) else .linkFrameBad u
  | 66 =>
    match length, MachineState.ofCode (byteAt body 0).toNat, ControlPlace.ofCode (byteAt body 3).toNat with
    | 7, some st, some pl => .stateReport u { state := st, power := signedField body 1, place := pl }
    | _, _, _ => .linkFrameBad u
  | _ => .linkFrameBad u

/-- The command of a Unit Link frame that has ended, length byte to CRC (R139, R193). -/
def linkFrame (u : UnitNo) (bytes : List Byte) : Instr :=
  if bytes.length = (byteAt bytes 0).toNat + 1 ∧ crcRight bytes then
    reportCommand u (byteAt bytes 0).toNat (byteAt bytes 1) ((bytes.drop 2).take (bytes.length - 4))
  else .linkFrameBad u

/-! ## Where a frame ends on its line (R193) -/

/-- Whether the bytes received of a Unit Link frame or a telegram are the whole of it: as many as its length byte gives have come
after that byte. -/
def lineEnded (bytes : List Byte) : Bool := bytes.length == (byteAt bytes 0).toNat + 1

/-- One byte received on a line, with the frames that have ended and the bytes of the one in progress: it completes that frame, or
is collected into it. The byte after an ended frame is the length byte of the next. -/
def takeLineByte (x : List (List Byte) × List Byte) (b : Byte) : List (List Byte) × List Byte :=
  if lineEnded (x.2 ++ [b]) then (x.1 ++ [x.2 ++ [b]], []) else (x.1, x.2 ++ [b])

/-- The frames that bytes on a line complete, and the bytes then collected of the next, when `begun` had been collected before. -/
def cutLine (begun bytes : List Byte) : List (List Byte) × List Byte := bytes.foldl takeLineByte ([], begun)

/-- The commands that bytes on the Unit Link of a unit bring, and the bytes then collected of the next frame. -/
def linkCommands (u : UnitNo) (begun bytes : List Byte) : List Instr × List Byte :=
  ((cutLine begun bytes).1.map (linkFrame u), (cutLine begun bytes).2)

/-- The commands that bytes on a Gauge Input bring, and the bytes then collected of the next telegram. -/
def gaugeCommands (g : GaugeNo) (begun bytes : List Byte) : List Instr × List Byte :=
  ((cutLine begun bytes).1.map (.gaugeTelegram g), (cutLine begun bytes).2)

end Sys2Proof
end

