-- ==== Sys2Proof/Machine/Flow.lean ====
section
/-! DEFINITION. The Flow Calculator (Chapter 2): generating flow, pump flow and power, live head, contributions and
live net flow, planned flow. -/

namespace Sys2Proof.Machine

/-! ## Tables (2.1 to 2.3) -/

/-- The largest index from 0 to 6 whose breakpoint is at or below `x`; 0 where there is none (R25, R27). -/
def segment (xs : Vector Nat 8) (x : Nat) : Fin 7 :=
  if xs[6] ≤ x then 6
  else if xs[5] ≤ x then 5
  else if xs[4] ≤ x then 4
  else if xs[3] ≤ x then 3
  else if xs[2] ≤ x then 2
  else if xs[1] ≤ x then 1
  else 0

/-- The value on the segment from breakpoint i to i + 1, rounded up (R24, R25, R27). -/
def interpolateAt (xs ys : Vector Nat 8) (i : Fin 7) (x : Nat) : Int :=
  ys[i.val] + ceilDiv (((ys[i.val + 1] : Int) - ys[i.val]) * ((x : Int) - xs[i.val])) ((xs[i.val + 1] : Int) - xs[i.val])

/-- Interpolation in a table (R25, R27). -/
def interpolate (xs ys : Vector Nat 8) (x : Nat) : Nat := (interpolateAt xs ys (segment xs x) x).toNat

/-- A value below the range is taken as its lower end, one above it as its upper end (R25, R27). -/
def clampTo (lo hi x : Nat) : Nat := if x < lo then lo else if hi < x then hi else x

/-- Saturation: a flow or pump power above 9999 is replaced by 9999 (R24). -/
def saturate (x : Nat) : Nat := min x 9999

/-- The reference flow Qref(P) (R25). For a power outside the table the spec states none, and it is a free value (log
entry 9). -/
def Capability.refFlow (c : Capability) (p : Nat) : Nat :=
  if c.powers[0] ≤ p ∧ p ≤ c.powers[7] then interpolate c.powers c.flows p
  else Config.flowOutsideTable c.powers c.flows p % 10000

/-- The generating flow before saturation: the ceiling of Qref(P) × Href / H (R26). -/
def Capability.rawGenFlow (c : Capability) (p head : Nat) : Nat :=
  (ceilDiv ((c.refFlow p : Int) * c.href) head).toNat

/-- The generating flow Q(P, H) (R26). -/
def Capability.genFlow (c : Capability) (p head : Nat) : Nat := saturate (c.rawGenFlow p head)

/-- Whether Q(P, H) saturates (R24, R32). -/
def Capability.genSaturates (c : Capability) (p head : Nat) : Bool := 9999 < c.rawGenFlow p head

/-- A measured power taken into the generating table (R25). -/
def Capability.clampPower (c : Capability) (p : Int) : Nat :=
  if p < c.powers[0] then c.powers[0] else if c.powers[7] < p then c.powers[7] else p.toNat

/-- The pump flow Qp(H) (R27). -/
def PumpTable.pumpFlow (t : PumpTable) (h : Nat) : Nat :=
  saturate (interpolate t.head t.flow (clampTo t.head[0] t.head[7] h))

/-- The pump power Pp(H) (R27). -/
def PumpTable.pumpPower (t : PumpTable) (h : Nat) : Nat :=
  saturate (interpolate t.head t.power (clampTo t.head[0] t.head[7] h))

/-- Whether a head lies below H₀ or above H₇ (R31). -/
def PumpTable.outside (t : PumpTable) (h : Nat) : Bool := h < t.head[0] || t.head[7] < h

/-! ## Live head (2.4) -/

/-- The live head and head low of a waterway, from its gauges as they stand (R29). -/
def State.headOf (s : State) (w : WaterwayNo) : Nat × Bool :=
  let x := s.waterway w
  let upper := s.gauge x.upper
  let lower := s.gauge x.lower
  if upper.state = .unknown ∨ lower.state = .unknown then (x.hAdm, false)
  else
    let d : Int := (upper.level.getD 0 : Int) - (lower.level.getD 0 : Int)
    if d < 500 then (500, true) else if 90000 < d then (90000, false) else (d.toNat, false)

/-- The live head of a unit's waterway. -/
def State.headFor (s : State) (u : UnitNo) : Nat := (s.waterway (s.unit u).waterway).liveHead

/-! ## Contributions and live net flow (2.5) -/

/-- The setpoint of a unit whose engaged order is RUNNING in GENERATE mode (Table 2-1, first row). -/
def State.runningSetpoint (s : State) (u : UnitNo) : Option Nat :=
  match s.engagedOrder u with
  | some (_, r) => if r.life = .running ∧ r.mode = .generate then (s.unit u).setpoint else none
  | none => none

/-- The contribution of a unit by Table 2-1, with whether its computation saturates; none where the contribution stands as it
is (R33, R35). -/
def State.contributionOf (s : State) (u : UnitNo) : Option (Int × Bool) :=
  let b := s.unit u
  let head := s.headFor u
  if !b.present then some (0, false)
  else if b.context = .dark then none
  else match b.link.lastReport, b.link.current with
    | some r, some c =>
      match r.state with
      | .generating =>
        let p := (s.runningSetpoint u).getD (c.clampPower r.power)
        some (c.genFlow p head, c.genSaturates p head)
      | .runupG => some (c.genFlow c.pmin head, c.genSaturates c.pmin head)
      | .pumping => c.pump.map fun t => (-(t.pumpFlow head : Int), false)
      | _ => some (0, false)
    | _, _ => none

/-- The unit's contribution and its flow saturated indication are recomputed (R32, R33). -/
def State.refreshContribution (s : State) (u : UnitNo) : State :=
  match s.contributionOf u with
  | some (q, sat) => s.modUnit u fun b => { b with contribution := q, saturated := sat }
  | none => s

/-- The live net flow of a waterway: the sum of the contributions of its units (R36). -/
def State.sumFlow (s : State) (w : WaterwayNo) : Int := ((s.unitsOf w).map fun u => (s.unit u).contribution).sum

/-- The live net flow of a waterway is brought up to date. -/
def State.refreshFlow (s : State) (w : WaterwayNo) : State :=
  s.modWaterway w fun x => { x with netFlow := s.sumFlow w }

/-- The unit's flow saturated indication is set where a calculation for it has saturated (R32). -/
def State.markSaturated (s : State) (u : UnitNo) (sat : Bool) : State :=
  if sat then s.modUnit u fun b => { b with saturated := true } else s

/-- The head outside pump table indication of a unit whose link is UP is brought up to date (R31). -/
def State.refreshOutside (s : State) (u : UnitNo) : State :=
  if (s.unit u).link.state = .up then
    s.modUnit u fun b => { b with headOutside :=
      match b.link.current with
      | some c => (c.pump.map fun t => t.outside (s.headFor u)).getD false
      | none => false }
  else s

/-- Whether a unit's row of Table 2-1 depends on head (R34). -/
def State.headDependent (s : State) (u : UnitNo) : Bool :=
  match (s.unit u).link.lastReport with
  | some r => r.state == .generating || r.state == .runupG || r.state == .pumping
  | none => false

/-! ## Planned flow (2.6) -/

/-- The planned flow of an order of the unit at the H_adm of its waterway, and whether it saturates (R37). It is none where
the current record has no table for it. -/
def State.plannedFlow (s : State) (u : UnitNo) (m : Mode) (target : Nat) : Option (Int × Bool) :=
  let hAdm := (s.waterway (s.unit u).waterway).hAdm
  match m, (s.unit u).link.current with
  | .generate, some c => some (c.genFlow target hAdm, c.genSaturates target hAdm)
  | .pump, some c => c.pump.map fun t => (-(t.pumpFlow hAdm : Int), false)
  | .condenseG, _ => some (0, false)
  | .condenseP, _ => some (0, false)
  | _, none => none

/-! ## Figures for the gate (2.7) -/

/-- The step of a water-up at a head, −Qp(H) (R39). A swap may take the pump table away from a PUMP order that waits at a gate, and
the recompute of the swap may test its entry before the re-check ends the order: R39 states no step there, and it is a free value
(DESIGN CHOICE, log entry 58). -/
def Capability.waterUpStep (c : Capability) (head : Nat) : Int :=
  match c.pump with
  | some t => -(t.pumpFlow head : Int)
  | none => -((Config.stepWithoutTable head % 10000 : Nat) : Int)

/-- The step of a START entry of an order of the mode, with whether its computation saturates (R39). No order waits at a gate for a unit
that has no record (R28). -/
def State.startStep (s : State) (u : UnitNo) (m : Mode) : Int × Bool :=
  match m, (s.unit u).link.current with
  | .generate, some c => (c.genFlow c.pmin (s.headFor u), c.genSaturates c.pmin (s.headFor u))
  | .pump, some c => (c.waterUpStep (s.headFor u), false)
  | _, _ => (0, false)

/-- The step of a STOP entry: the negative of the unit's present contribution (R39). -/
def State.stopStep (s : State) (u : UnitNo) : Int := -(s.unit u).contribution

end Sys2Proof.Machine
end

