-- ==== Sys2Proof/Machine/Gate.lean ====
section
/-! DEFINITION. The Waterway Gates (5.6): transient queues, the test of an entry, grants and spacing, and the recompute of
contributions, which is a grant opportunity for the gate. -/

namespace Sys2Proof.Machine

/-! ## The transient queue (R106, R107) -/

def EntryKind.order : EntryKind → Nat
  | .stop => 0
  | .start => 1

def DispatchClass.order : DispatchClass → Nat
  | .firm => 0
  | .flexible => 1

/-- Whether `a` stands before `b`: STOP before START, then FIRM before FLEXIBLE, then the lower joining rank (R106). -/
def GateEntry.before (a b : GateEntry) : Bool :=
  a.kind.order < b.kind.order ||
    (a.kind.order == b.kind.order &&
      (a.cls.order < b.cls.order || (a.cls.order == b.cls.order && a.rank < b.rank)))

/-- An entry takes its place in the queue. -/
def insertGate (e : GateEntry) : List GateEntry → List GateEntry
  | [] => [e]
  | x :: xs => if e.before x then e :: x :: xs else x :: insertGate e xs

/-- The queue without the entry of an order. -/
def withoutGate (h : Handle) (q : List GateEntry) : List GateEntry := q.filter fun e => e.handle != h

/-- The entry of an order leaves its gate's queue; the gate state stays and no grant is made (R107). -/
def State.leaveGate (s : State) (w : WaterwayNo) (h : Handle) : State :=
  s.modWaterway w fun x => { x with queue := withoutGate h x.queue }

/-! ## The test of an entry (R108) -/

/-- Whether the inhibit that Table 5-4 names for the order is set. -/
def Waterway.bars (x : Waterway) (r : Order) : Bool :=
  match r.mode with
  | .generate => if r.pairSense = some .pumping then x.pumpInhibit else x.genInhibit
  | .pump => x.pumpInhibit
  | _ => false

/-- Whether a step fits the limits of the waterway (R108). -/
def Waterway.fits (x : Waterway) (step : Int) : Bool :=
  if 0 < step then x.netFlow + step ≤ x.qgLim else if step < 0 then -(x.qpLim : Int) ≤ x.netFlow + step else true

/-- Whether an entry is allowed to go: a STOP entry always, a START entry when its inhibit is clear and its step fits
(R108). -/
def State.allowed (s : State) (w : WaterwayNo) (e : GateEntry) : Bool :=
  match e.kind with
  | .stop => true
  | .start =>
    match s.order? e.handle with
    | some r => !(s.waterway w).bars r && (s.waterway w).fits (s.startStep e.unit r.mode).1
    | none => false

/-- The step of a START entry is computed at its test, and a saturated one sets the unit's indication (R32, R39). -/
def State.markTest (s : State) (e : GateEntry) : State :=
  match e.kind, s.order? e.handle with
  | .start, some r => s.markSaturated e.unit (s.startStep e.unit r.mode).2
  | _, _ => s

/-- The first entry of a list allowed to go, tested in order. -/
def State.firstAllowed (w : WaterwayNo) : List GateEntry → State → State × Option GateEntry
  | [], s => (s, none)
  | e :: es, s =>
    if (s.markTest e).allowed w e then (s.markTest e, some e) else State.firstAllowed w es (s.markTest e)

/-! ## Grants (R109) -/

/-- The Order Table acts on a granted START entry: START_GEN, START_CONDENSE_G or WATER_UP, RUNUP, supervision
(R69, R71). -/
def State.startGranted (s : State) (h : Handle) : State :=
  match s.order? h with
  | none => s
  | some r =>
    let s := s.modOrder h fun r => { r with life := .starting .runup }
    match r.mode with
    | .generate =>
      ((s.modUnit r.unit fun b => { b with motion := false }).startSupervision r.unit (s.genStartTime r.unit)).ask r.unit .startGen
    | .condenseG =>
      ((s.modUnit r.unit fun b => { b with motion := false }).startSupervision r.unit (s.genStartTime r.unit)).ask r.unit
        .startCondenseG
    | _ => (s.startSupervision r.unit (s.waterUpTime r.unit)).ask r.unit .waterUp

/-- An order enters RUNDOWN with its intended cause, under stop supervision (R77). -/
def State.enterRundown (s : State) (h : Handle) (r : Order) (c : DoneCause) : State :=
  (s.modOrder h fun r => { r with life := .stopping .rundown c }).startSupervision r.unit (s.rundownTime r.unit r.mode)

/-- The Order Table acts on a granted STOP entry: TO_STANDSTILL, RUNDOWN (R77). -/
def State.stopGranted (s : State) (h : Handle) : State :=
  match s.order? h with
  | none => s
  | some r =>
    match r.life with
    | .stopping _ c => (s.enterRundown h r c).ask r.unit .toStandstill
    | _ => s

/-- A grant: the entry leaves the queue, spacing starts when S_w is above 0, and the Order Table acts (R109, R110). -/
def State.grantGate (s : State) (w : WaterwayNo) (e : GateEntry) : State :=
  let s := s.modWaterway w fun x =>
    { x with
      queue := withoutGate e.handle x.queue
      spacing := if x.spacingTime = 0 then none else some x.spacingTime }
  match e.kind with
  | .start => s.startGranted e.handle
  | .stop => s.stopGranted e.handle

/-- Grant opportunities of an OPEN gate: one grant, and with S_w = 0 further ones until no entry may go (R109, R110). -/
def State.gateLoop (w : WaterwayNo) : Nat → State → State
  | 0, s => s
  | n + 1, s =>
    match State.firstAllowed w (s.waterway w).queue s with
    | (s, none) => s
    | (s, some e) =>
      if (s.waterway w).spacingTime = 0 then State.gateLoop w n (s.grantGate w e) else s.grantGate w e

/-- A grant opportunity: none while the gate is SPACING (R109). -/
def State.gateOpportunity (s : State) (w : WaterwayNo) : State :=
  if (s.waterway w).spacing.isSome then s else s.gateLoop w ((s.waterway w).queue.length + 1)

/-- An order enters AWAITING_GATE: its entry joins the queue with the next joining rank, which is a grant opportunity of an OPEN
gate (R106, R107, R109). -/
def State.joinGate (s : State) (h : Handle) (r : Order) (kind : EntryKind) : State :=
  let w := (s.unit r.unit).waterway
  let s := s.modWaterway w fun x =>
    { x with
      queue := insertGate { handle := h, unit := r.unit, kind := kind, cls := r.cls, rank := x.nextRank } x.queue
      nextRank := x.nextRank + 1 }
  s.gateOpportunity w

/-- The spacing timer expires: the gate takes a grant opportunity and stays SPACING on a grant, else becomes OPEN (R110). -/
def State.spacingExpired (s : State) (w : WaterwayNo) : State :=
  (s.modWaterway w fun x => { x with spacing := none }).gateOpportunity w

/-- A trip or a halt on the waterway: the spacing timer starts afresh and the gate is SPACING; with S_w = 0 the gate is OPEN and
the timer stopped (R111). -/
def State.tripGate (s : State) (w : WaterwayNo) : State :=
  s.modWaterway w fun x => { x with spacing := if x.spacingTime = 0 then none else some x.spacingTime }

/-! ## Recompute (R34, R36) -/

/-- The live net flow is brought up to date; a change of it is a grant opportunity (R36, R109). -/
def State.updateFlow (s : State) (w : WaterwayNo) : State :=
  if s.sumFlow w = (s.waterway w).netFlow then s else (s.refreshFlow w).gateOpportunity w

/-- A unit's contribution is recomputed, and then the live net flow of its waterway (R34). -/
def State.recompute (s : State) (u : UnitNo) : State :=
  (s.refreshContribution u).updateFlow (s.unit u).waterway

/-- A new live head of a waterway: the head-dependent contributions of its units are recomputed, then its live net flow, then the
head outside pump table indications (R30). -/
def State.takeHead (s : State) (w : WaterwayNo) (head : Nat) (low : Bool) : State :=
  let s := s.modWaterway w fun x => { x with liveHead := head, headLow := low }
  let s := (s.unitsOf w).foldl (fun s u => if s.headDependent u then s.refreshContribution u else s) s
  let s := s.refreshFlow w
  (s.unitsOf w).foldl State.refreshOutside s

/-- The live head of a waterway is worked out anew, and a change of it is told to the gate (R30, R109). -/
def State.updateHead (s : State) (w : WaterwayNo) : State :=
  let (head, low) := s.headOf w
  if head = (s.waterway w).liveHead then s.modWaterway w fun x => { x with headLow := low }
  else (s.takeHead w head low).gateOpportunity w

/-! ## Setpoints (R113, R124) -/

/-- A RUNNING order whose setpoint equals its target loses its curtailed flag (R114). -/
def State.clearCurtailed (s : State) (u : UnitNo) (p : Nat) : State :=
  match s.engagedOrder u with
  | some (h, r) =>
    if r.life = Life.running ∧ r.target = p then s.modOrder h fun r => { r with curtailed := false } else s
  | none => s

/-- A setpoint change: the setpoint is written, the curtailed flag cleared where it now equals the target (R114), the
contribution recomputed (R34), and SET_POWER asked for (R124). -/
def State.commitSetpoint (s : State) (u : UnitNo) (p : Nat) : State :=
  (((s.modUnit u fun b => { b with setpoint := some p }).clearCurtailed u p).recompute u).ask u (.setPower p)

end Sys2Proof.Machine
end

