-- ==== Sys2Proof/Machine/Arbiter.lean ====
section
/-! DEFINITION. The Start Arbiter (5.1 to 5.4): start queue, grant walk, converter runs and their end. -/

namespace Sys2Proof.Machine

/-! ## The start queue (R93, R94) -/

/-- Whether `a` stands before `b`: FIRM first, then the earlier start, then the lower unit (R93). -/
def StartEntry.before (a b : StartEntry) : Bool :=
  a.cls.order < b.cls.order ||
    (a.cls.order == b.cls.order && (a.start < b.start || (a.start == b.start && a.unit < b.unit)))

/-- An entry takes its place in the start queue. -/
def insertStart (e : StartEntry) : List StartEntry → List StartEntry
  | [] => [e]
  | x :: xs => if e.before x then e :: x :: xs else x :: insertStart e xs

/-- The start queue without the entry of an order. -/
def withoutStart (h : Handle) (q : List StartEntry) : List StartEntry := q.filter fun e => e.handle != h

/-- The entry of an order leaves the start queue; no grant walk follows (R94). -/
def State.leaveStartQueue (s : State) (h : Handle) : State := { s with startQueue := withoutStart h s.startQueue }

/-! ## Grants (R92, R95, R96) -/

def State.isFree (s : State) (c : ConverterNo) : Bool := (s.converter c).state == .free

/-- The FREE converter an entry of the unit is granted, if any: C0 before C1, but for a retry the one its last converter item
does not name (R92, R95). -/
def State.chooseConverter (s : State) (u : UnitNo) : Option ConverterNo :=
  match s.isFree 0 && (s.unit u).eligible.getLsbD 0, s.isFree 1 && (s.unit u).eligible.getLsbD 1 with
  | true, true => if (s.unit u).lastConverter = some 0 then some 1 else some 0
  | true, false => some 0
  | false, true => some 1
  | false, false => none

/-- A grant of a converter to an entry, and the Order Table's part in it (R96, R70). -/
def State.grantConverter (s : State) (c : ConverterNo) (e : StartEntry) : State :=
  let s := s.leaveStartQueue e.handle
  let s := s.modConverter c fun x => { x with state := .running e.handle e.unit x.runLimit }
  let s := (s.modUnit e.unit fun b => { b with lastConverter := some c, motion := false }).raise .converterChange
  match s.order? e.handle with
  | none => s
  | some r =>
    (s.modOrder e.handle fun r => { r with attempts := r.attempts + 1, life := .starting .converterRun }).ask e.unit
      (if r.mode = .pump then .startPump c else .startCondenseP c)

/-- One entry considered by the grant walk. -/
def State.walkEntry (s : State) (e : StartEntry) : State :=
  match s.chooseConverter e.unit with
  | some c => s.grantConverter c e
  | none => s

/-- The grant walk: the entries in queue order (R95). -/
def State.grantWalk (s : State) : State := s.startQueue.foldl State.walkEntry s

/-- An order enters QUEUED_CONVERTER: its entry joins the start queue, and a grant walk follows (R94). -/
def State.joinStartQueue (s : State) (h : Handle) (r : Order) : State :=
  { s with
    startQueue := insertStart { handle := h, unit := r.unit, cls := r.cls, start := r.start } s.startQueue }.grantWalk

/-! ## The end of a run (R97 to R101) -/

/-- A converter's state changes, which raises CONVERTER_CHANGE (R104). -/
def State.setConverterState (s : State) (c : ConverterNo) (st : ConverterState) : State :=
  (s.modConverter c fun x => { x with state := st }).raise .converterChange

/-- A cooled converter becomes FREE and a grant walk follows, or OUT if its fault line is asserted (R99). -/
def State.cooled (s : State) (c : ConverterNo) : State :=
  if (s.converter c).faultLine then s.setConverterState c .out else (s.setConverterState c .free).grantWalk

/-- A converter enters COOLING with its full cool-down; with a cool-down of 0 s it leaves it in the same event (R99). -/
def State.startCooling (s : State) (c : ConverterNo) : State :=
  let s' := s.setConverterState c (.cooling (s.converter c).coolDown)
  if (s.converter c).coolDown = 0 then s'.cooled c else s'

/-- A run ends, by success, release or timeout: COOLING, or OUT when an out request stands (R97, R98, R100). -/
def State.endRun (s : State) (c : ConverterNo) : State :=
  if (s.converter c).outRequest then
    (s.modConverter c fun x => { x with outRequest := false }).setConverterState c .out
  else s.startCooling c

/-- Whether a converter runs for the order. -/
def Converter.serves (x : Converter) (h : Handle) : Bool :=
  match x.state with
  | .running k _ _ => k == h
  | _ => false

/-- The converter an order in CONVERTER_RUN holds (R91). -/
def State.converterOf (s : State) (h : Handle) : Option ConverterNo :=
  allConverters.find? fun c => (s.converter c).serves h

/-- The converter an order holds is released to the Start Arbiter (R98). -/
def State.releaseConverter (s : State) (h : Handle) : State :=
  match s.converterOf h with
  | some c => s.endRun c
  | none => s

/-- The Order Table's part in a failed run: ABORT_START, COASTING, supervision (R72, R100). -/
def State.runFailed (s : State) (h : Handle) (u : UnitNo) : State :=
  ((s.modOrder h fun r => { r with life := .starting .coasting }).startSupervision u (s.coastTime u)).ask u .abortStart

end Sys2Proof.Machine
end

