-- ==== Sys2Proof/Machine/Progress.lean ====
section
/-! DEFINITION. Order Progress (Chapter 4): arrivals, engagement, the beginning of stops, the end of orders, pairs and
handover.

The consequences of a change inside one event (an engagement test, a lateness test, the treatment of a partner) are a list of
`Task`s, taken in order, each with its own consequences before the next (`State.settle`). -/

namespace Sys2Proof.Machine

/-- What remains to be done within the event in progress. -/
inductive Task
  /-- A stop is begun for the order (R75). -/
  | stop (h : Handle) (c : DoneCause)
  /-- The other leg of this leg's pair has ended (R82). -/
  | partnerEnded (h : Handle)
  /-- The PUMP leg of this GENERATE leg's pair has begun its stop (R81, R82). -/
  | pumpStopped (h : Handle)
  /-- The engagement test of every DUE order of the unit (R65). -/
  | engagement (u : UnitNo)
  /-- The engagement test of one DUE order at its start arrival (R65). -/
  | engagementOf (h : Handle)
  /-- The lateness test of one DUE order (R67). -/
  | lateness (h : Handle)
  /-- The end arrival of an order that is not HELD (R68). -/
  | endArrival (h : Handle)
  deriving DecidableEq, Repr

/-- A state and what remains to be done. -/
abbrev Work := State × List Task

/-! ## The end of an order (R83, Table 4-4) -/

/-- How an order ends. -/
inductive Ending
  | done (c : DoneCause)
  | failed (c : FailCause)
  deriving DecidableEq, Repr

/-- The state of an order that has ended, with its cause and actual_end (R6). -/
def Ending.life (e : Ending) (now : Nat) : Life :=
  match e with
  | .done c => .done c now
  | .failed c => .failed c now

/-- The event of an ending (Table 1-5). -/
def Ending.event : Ending → EventKind
  | .done _ => .orderDone
  | .failed _ => .orderFailed

/-- The unit context after an engaged order has ended so (Table 4-4). -/
def Ending.context : Ending → Context
  | .done _ => .idle
  | .failed .converter => .idle
  | .failed .dropped => .idle
  | .failed .localControl => .locally
  | .failed .linkLost => .dark
  | .failed _ => .recovering

/-- The items an engaged order holds are released: queue entries, converter, supervision timer, setpoint, ceiling and pending
setpoint (R83), and the intended cause of a PUMP leg whose stop is awaited (R63). -/
def State.releaseItems (s : State) (h : Handle) (r : Order) : State :=
  let s := (s.leaveStartQueue h).leaveGate (s.unit r.unit).waterway h
  let s := if r.life = .starting .converterRun then s.releaseConverter h else s
  let s := if r.mode = .pump ∧ r.isPairLeg then s.modOrder h fun r => { r with awaited := none } else s
  s.modUnit r.unit fun b =>
    { b with supervision := none, setpoint := none, ceiling := none, pendingSetpoint := none }

/-- The record of an ended order: freed when retirement is pending, otherwise DONE or FAILED (R19, R83). -/
def State.closeOrder (s : State) (h : Handle) (e : Ending) : State :=
  match s.order? h with
  | none => s
  | some r =>
    if r.retirePending then (s.freeOrder h).raiseFor h e.event
    else s.enter h (e.life s.plantTime) e.event

/-- The partner's and the successor's part in an ending (R67, R82). -/
def endTasks (r : Order) (toIdle : Bool) : List Task :=
  (if toIdle then [Task.engagement r.unit] else []) ++
    (match r.successor with | some b => [Task.lateness b] | none => []) ++
    (match r.partner with | some p => [Task.partnerEnded p] | none => [])

/-- Whether an ending clears the links of the order (R13): a failure does. -/
def Ending.unlinks : Ending → Bool
  | .done _ => false
  | .failed _ => true

/-- A live order ends (R83, Table 4-4): release, record, links, unit context, contribution; then the engagement test, the
successor's lateness test and the partner's treatment are due. -/
def State.endOrder (s : State) (h : Handle) (e : Ending) : Work :=
  match s.order? h with
  | none => (s, [])
  | some r =>
    if r.life.live then
      let s := if r.life.engaged then s.releaseItems h r else s
      let s := if e.unlinks then s.unlink h else s
      let s := s.closeOrder h e
      let s := if r.life.engaged then s.setContext r.unit e.context else s
      let s := if r.life = .running then s.recompute r.unit else s
      (s, endTasks r (r.life.engaged && e.context == .idle))
    else (s, [])

/-! ## Beginning a stop (R75, Table 4-3, R81) -/

/-- An order in STOPPING enters AWAITING_GATE with a STOP entry (R76, Table 4-3). -/
def State.awaitStopGate (s : State) (h : Handle) (r : Order) (c : DoneCause) : State :=
  (s.modOrder h fun r => { r with life := .stopping .awaitingGate c }).joinGate h r .stop

/-- Whether the setpoint of the unit stands at or below its Pmin (R76, R122). -/
def State.atPmin (s : State) (u : UnitNo) : Bool :=
  match (s.unit u).setpoint with
  | some p => p ≤ s.capTime u (·.pmin)
  | none => true

/-- A start in progress is abandoned: ABORT_START is asked for and the order enters STOPPING in RUNDOWN (Table 4-3). -/
def State.abortToRundown (s : State) (h : Handle) (r : Order) (c : DoneCause) : State :=
  ((s.stopSupervision r.unit).enterRundown h r c |>.note h .orderChanged).ask r.unit .abortStart

/-- Table 4-3: the effect of a stop begun, by state and phase. The contribution of an order that leaves RUNNING is recomputed before
its STOP entry joins the gate (DESIGN CHOICE, log entry 49), and a stop in QUEUED_CONVERTER ends the order DONE with its intended
cause, whether its unit has an eligible converter or none (DEDUCED, log entry 52). -/
def State.stopEffect (s : State) (h : Handle) (r : Order) (c : DoneCause) : Work :=
  match r.life with
  | .running =>
    let s := (s.enter h (.stopping (if r.mode = .generate then .unloading else .awaitingGate) c) .orderChanged).recompute r.unit
    (if r.mode = .generate then (if s.atPmin r.unit then s.awaitStopGate h r c else s) else s.joinGate h r .stop, [])
  | .starting .queuedConverter => s.endOrder h (.done c)
  | .starting .pairHold => s.endOrder h (.done c)
  | .starting .awaitingGate =>
    if r.mode = .pump then ((s.leaveGate (s.unit r.unit).waterway h).abortToRundown h r c, [])
    else s.endOrder h (.done c)
  | .starting .converterRun => ((s.releaseConverter h).abortToRundown h r c, [])
  | .starting .runup => (s.abortToRundown h r c, [])
  | .starting .coasting => (((s.stopSupervision r.unit).enterRundown h r c).note h .orderChanged, [])
  | _ => (s, [])

/-- What follows a stop that has put the order into STOPPING: the GENERATE leg of a stopped PUMP leg is treated (R81, R82), and the
lateness test of a successor is made (R67). -/
def stopTasks (r : Order) : List Task :=
  (match r.mode, r.partner with | .pump, some g => [Task.pumpStopped g] | _, _ => []) ++
    (match r.successor with | some b => [Task.lateness b] | none => [])

/-- A stop begins at once, by Table 4-3. -/
def State.stopNow (s : State) (h : Handle) (c : DoneCause) : Work :=
  match s.order? h with
  | none => (s, [])
  | some r =>
    match r.life with
    | .starting _ => ((s.stopEffect h r c).1, (s.stopEffect h r c).2 ++ stopTasks r)
    | .running => ((s.stopEffect h r c).1, (s.stopEffect h r c).2 ++ stopTasks r)
    | _ => (s, [])

/-- The GENERATE leg of a PUMP leg, when it is in RUNUP, RUNNING or STOPPING, which defers the stop of the PUMP leg (R81). -/
def State.deferringLeg (s : State) (r : Order) : Option (Handle × Order) :=
  match r.mode, r.partner with
  | .pump, some g =>
    match s.order? g with
    | some q => if q.life.onLine || q.life.isStopping then some (g, q) else none
    | none => none
  | _, _ => none

/-- A stop is begun for an order (R75). A PUMP leg's stop is deferred while its GENERATE leg is in RUNUP, RUNNING or STOPPING: it is
awaited with its cause, the first cause standing, and a capability re-check gives the GENERATE leg a stop with cause
PARTNER (R81). -/
def State.beginStop (s : State) (h : Handle) (c : DoneCause) : Work :=
  match s.order? h with
  | none => (s, [])
  | some r =>
    if r.life.isStarting || r.life = .running then
      match s.deferringLeg r with
      | some (g, _) =>
        let s := s.modOrder h fun r => { r with awaited := some (r.awaited.getD c) }
        if c = .capability then s.stopNow g .partner else (s, [])
      | none => s.stopNow h c
    else (s, [])

/-! ## Pairs (R82) -/

/-- A partner that would end DONE with cause PARTNER in its state and phase: HELD, DUE, or an early phase of STARTING (R82). -/
def Order.endsWithPartner (r : Order) : Bool :=
  match r.life with
  | .held => true
  | .due => true
  | .starting p => earlyStart r.mode p
  | _ => false

/-- The partner of a leg that has ended is treated (R82). -/
def State.treatPartner (s : State) (h : Handle) : Work :=
  match s.order? h with
  | none => (s, [])
  | some r =>
    if r.endsWithPartner then s.endOrder h (.done .partner)
    else match r.awaited with
      | some c => (s.modOrder h fun r => { r with awaited := none }).stopNow h c
      | none => s.beginStop h .partner

/-- The GENERATE leg of a PUMP leg whose stop has begun is treated, where it is not yet turning (R81, R82). -/
def State.treatGenerateLeg (s : State) (h : Handle) : Work :=
  match s.order? h with
  | none => (s, [])
  | some r => if r.endsWithPartner then s.endOrder h (.done .partner) else (s, [])

/-! ## Engagement (R65, R66) -/

/-- The first phase of an engaged order (Table 4-1). -/
def State.firstPhase (s : State) (r : Order) : StartPhase :=
  if r.mode.pumpDirection then .queuedConverter
  else match r.mode, r.partner with
    | .generate, some p =>
      if (s.order? p).any fun q => q.life = .running then .awaitingGate else .pairHold
    | _, _ => .awaitingGate

/-- The queue entry a first phase needs is made (R66, Table 4-1). -/
def State.makeEntry (s : State) (h : Handle) (r : Order) : StartPhase → State
  | .queuedConverter => s.joinStartQueue h r
  | .awaitingGate => s.joinGate h r .start
  | _ => s

/-- An order engages: unit ENGAGED, STARTING in its first phase, motion mark cleared, queue entry made (R66). -/
def State.engage (s : State) (h : Handle) (r : Order) : State :=
  let p := s.firstPhase r
  let s := (s.setContext r.unit .engaged).enter h (.starting p) .orderChanged
  (s.modUnit r.unit fun b => { b with motion := false }).makeEntry h r p

/-- The DUE orders of a unit in order of start. -/
def State.dueOrders (s : State) (u : UnitNo) : List (Handle × Order) := (s.chain u).filter fun p => p.2.life = .due

/-- The engagement of a unit that is not isolated: when it is IDLE, the DUE order with the earliest start engages, orders whose
end has come being passed over (R65). -/
def State.engageFirst (s : State) (u : UnitNo) : State :=
  if (s.unit u).context = .idle then
    match (s.dueOrders u).find? fun p => !endReached p.2.finish s.plantTime with
    | some (h, r) => s.engage h r
    | none => s
  else s

/-- The engagement test of every DUE order of a unit (R65): an isolated unit fails them, one after another. -/
def State.engagementTest (s : State) (u : UnitNo) : Work :=
  if (s.unit u).isolated then
    match s.dueOrders u with
    | (h, _) :: _ => let (s, ts) := s.endOrder h (.failed .isolated); (s, ts ++ [.engagement u])
    | [] => (s, [])
  else (s.engageFirst u, [])

/-- The engagement test of one DUE order at its start arrival (R65). -/
def State.engagementTestOf (s : State) (h : Handle) : Work :=
  match s.order? h with
  | none => (s, [])
  | some r =>
    if r.life = .due then
      if (s.unit r.unit).isolated then s.endOrder h (.failed .isolated) else (s.engageFirst r.unit, [])
    else (s, [])

/-- Whether an order in STARTING or RUNNING names the order as its successor, which exempts it from the lateness test (R67). -/
def State.exemptFromLateness (s : State) (h : Handle) : Bool :=
  (s.predecessors h).any fun p => p.2.life.isStarting || p.2.life = .running

/-- The lateness test of an order (R67). -/
def State.latenessTest (s : State) (h : Handle) : Work :=
  match s.order? h with
  | none => (s, [])
  | some r =>
    if r.life = .due ∧ (latenessReached r.start r.tolerance s.plantTime ∨ endReached r.finish s.plantTime) ∧
        ¬ s.exemptFromLateness h then
      s.endOrder h (.failed .late)
    else (s, [])

/-! ## Entering RUNNING (R69 to R73) -/

/-- The GENERATE leg in PAIR_HOLD of a PUMP leg that has become RUNNING enters AWAITING_GATE (R73). -/
def State.releasePairHold (s : State) (r : Order) : State :=
  match r.mode, r.partner with
  | .pump, some g =>
    match s.order? g with
    | some q =>
      if q.life = .starting .pairHold then
        (s.modOrder g fun q => { q with life := .starting .awaitingGate }).joinGate g q .start
      else s
    | none => s
  | _, _ => s

/-- A start is completed: RUNNING, actual_start, supervision stopped; the Ramp Controller takes a GENERATE order with a setpoint
of Pmin and an empty ceiling; the GENERATE leg of a PUMP leg moves on (R69, R70, R71, R73). The contribution of a PUMP leg is
recomputed before the START entry of its GENERATE leg joins the gate (DESIGN CHOICE, log entry 48). -/
def State.completeStart (s : State) (h : Handle) (r : Order) : State :=
  let s := s.modOrder h fun r => { r with actualStart := some s.plantTime }
  let s := (s.enter h .running .orderChanged).stopSupervision r.unit
  if r.mode = .generate then
    (s.modUnit r.unit fun b => { b with ceiling := none }).commitSetpoint r.unit (s.capTime r.unit (·.pmin))
  else (s.recompute r.unit).releasePairHold r

/-! ## Handover (R78, R79) -/

/-- A converter that serves the first order now serves the second (R79). -/
def Converter.handOver (x : Converter) (a b : Handle) : Converter :=
  match x.state with
  | .running k u n => { x with state := .running (if k = a then b else k) u n }
  | _ => x

/-- The start queue entry of the first order now names the second, with its class and start, in its place (R79, R94). -/
def handOverStart (a b : Handle) (q : Order) (es : List StartEntry) : List StartEntry :=
  match es.find? fun e => e.handle == a with
  | some e => insertStart { e with handle := b, cls := q.cls, start := q.start } (withoutStart a es)
  | none => es

/-- The transient queue entry of the first order now names the second, with its class, in its place (R79, R107). -/
def handOverGate (a b : Handle) (q : Order) (es : List GateEntry) : List GateEntry :=
  match es.find? fun e => e.handle == a with
  | some e => insertGate { e with handle := b, cls := q.cls } (withoutGate a es)
  | none => es

/-- The records of a handover: A is DONE with cause HANDOVER, and B takes A's place in its life (R78, R79). -/
def State.handOverRecords (s : State) (a b : Handle) (r : Order) : State :=
  let s := s.closeOrder a (.done .handover)
  let s := s.modOrder b fun q =>
    { q with
      attempts := if r.life = .running then q.attempts else r.attempts
      actualStart := if r.life = .running then some s.plantTime else q.actualStart
      curtailed := if r.life = .running ∧ q.mode = .generate then r.curtailed else q.curtailed }
  s.enter b r.life .orderChanged

/-- The setpoint at a handover: lowered to the successor's target where it lies above it, and otherwise carried, the
pending setpoint being dropped (R78, R124). -/
def State.handOverSetpoint (s : State) (u : UnitNo) (target : Nat) : State :=
  match (s.unit u).setpoint with
  | some p =>
    if target < p then s.commitSetpoint u target
    else (s.modUnit u fun b => { b with pendingSetpoint := none }).recompute u
  | none => s.recompute u

/-- The queue entries and the converter of order A now belong to order B (R79). -/
def State.handOverQueues (s : State) (a b : Handle) (q : Order) : State :=
  { s with
    startQueue := handOverStart a b q s.startQueue
    waterways := mapVector (fun x => { x with queue := handOverGate a b q x.queue }) s.waterways
    converters := mapVector (fun x => x.handOver a b) s.converters }

/-- A running unit (R78) or a start in flight (R79) is handed from order A to its successor B. -/
def State.handOver (s : State) (a b : Handle) (r q : Order) : State :=
  let s := s.handOverRecords a b r
  if r.life = .running then
    if r.mode = .generate then s.handOverSetpoint r.unit q.target else s.recompute r.unit
  else
    s.handOverQueues a b q

/-! ## Arrivals (R64, R67, R68) -/

/-- A start arrival: a HELD order becomes DUE, and the engagement test and the lateness test follow (R64). -/
def State.startArrival (s : State) (h : Handle) : Work :=
  match s.order? h with
  | some r =>
    if r.life = .held then (s.enter h .due .orderChanged, [.engagementOf h, .lateness h]) else (s, [])
  | none => (s, [])

/-- The successor of an order, when it is HELD or DUE (Table 4-2). -/
def State.waitingSuccessor (s : State) (r : Order) : Option (Handle × Order) :=
  match r.successor with
  | some b => (s.order? b).bind fun q => if q.life.waiting then some (b, q) else none
  | none => none

/-- Whether a GENERATE leg that its own end arrival ends is DUE or in PAIR_HOLD, and its PUMP leg starting or running with the same
end: that arrival of the PUMP leg, and not the ending of its partner, then stops the pump (R82, log entry 33). -/
def State.leavesPump (s : State) (r : Order) : Bool :=
  r.mode == .generate && (r.life == .due || r.life == .starting .pairHold) &&
    match r.partner with
    | some p => (s.order? p).any fun q => q.finish == r.finish && (q.life.isStarting || q.life == .running)
    | none => false

def Task.isPartnerEnded : Task → Bool
  | .partnerEnded _ => true
  | _ => false

/-- The treatment of a partner is left out where the PUMP leg is left to its own end arrival (R82). -/
def Work.leavingPump (w : Work) (leaves : Bool) : Work :=
  (w.1, if leaves then w.2.filter fun t => !t.isPartnerEnded else w.2)

/-- The end arrival of an order that is not HELD (Table 4-2). -/
def State.endActive (s : State) (h : Handle) : Work :=
  match s.order? h with
  | none => (s, [])
  | some r =>
    if r.life = .due then (s.endOrder h (.failed .late)).leavingPump (s.leavesPump r)
    else if r.life.isStarting || r.life = .running then
      match s.waitingSuccessor r with
      | some (b, q) => (s.handOver h b r q, [])
      | none => (s.beginStop h .windowEnd).leavingPump (s.leavesPump r)
    else (s, [])

/-- The end arrival of an order (Table 4-2); for a HELD order its start arrival is taken first. -/
def State.endArrival (s : State) (h : Handle) : Work :=
  match s.order? h with
  | none => (s, [])
  | some r =>
    if r.life = .held then ((s.startArrival h).1, (s.startArrival h).2 ++ [.endArrival h]) else s.endActive h

/-! ## Settling an event -/

/-- One task is done. -/
def State.runTask (s : State) : Task → Work
  | .stop h c => s.beginStop h c
  | .partnerEnded h => s.treatPartner h
  | .pumpStopped h => s.treatGenerateLeg h
  | .engagement u => s.engagementTest u
  | .engagementOf h => s.engagementTestOf h
  | .lateness h => s.latenessTest h
  | .endArrival h => s.endActive h

/-- The tasks are done in order, each with its own consequences before the next. The bound is more than any event needs
(log entry 22). -/
def State.settleWithin : Nat → List Task → State → State
  | 0, _, s => s
  | _ + 1, [], s => s
  | n + 1, t :: ts, s => State.settleWithin n ((s.runTask t).2 ++ ts) (s.runTask t).1

/-- The consequences of a change are carried through. -/
def State.settle (s : State) (ts : List Task) : State := State.settleWithin Config.cascadeBound ts s

/-- The consequences that work has left are carried through. -/
def Work.finish (w : Work) : State := w.1.settle w.2

end Sys2Proof.Machine
end

