-- ==== Sys2Proof/Machine/Converters.lean ====
section
/-! DEFINITION. Converter timers, fault lines and requests (R99 to R104). -/

namespace Sys2Proof.Machine

/-! ## Timers -/

/-- The run timer expires: the run has failed by timeout (R100). -/
def State.runTimedOut (s : State) (c : ConverterNo) : State :=
  match (s.converter c).state with
  | .running h u 0 => (s.endRun c).runFailed h u
  | _ => s

/-- The cool-down timer expires (R99). -/
def State.cooledDown (s : State) (c : ConverterNo) : State :=
  match (s.converter c).state with
  | .cooling 0 => s.cooled c
  | _ => s

/-! ## Fault lines (R101) -/

/-- The fault line asserts: the converter is OUT, and a run in progress fails (R101). -/
def State.faultAsserted (s : State) (c : ConverterNo) : State :=
  let s := s.modConverter c fun x => { x with faultLine := true }
  match (s.converter c).state with
  | .out => s
  | .running h u _ =>
    ((s.modConverter c fun x => { x with outRequest := false }).setConverterState c .out).runFailed h u
  | _ => s.setConverterState c .out

/-- CONVERTER_FAULT_ASSERT (R101). -/
def execConverterFaultAssert (c : ConverterNo) (s : State) : Host.Outcome State Fault Refusal :=
  .next (s.quiet.faultAsserted c)

/-- CONVERTER_FAULT_CLEAR: the line is clear, and no state changes (R101). -/
def execConverterFaultClear (c : ConverterNo) (s : State) : Host.Outcome State Fault Refusal :=
  .next (s.quiet.modConverter c fun x => { x with faultLine := false })

/-! ## SET_CONVERTER (R102, R103) -/

/-- SET_CONVERTER out by state (Table 5-2). -/
def State.takeOut (s : State) (c : ConverterNo) : State :=
  match (s.converter c).state with
  | .out => s
  | .running _ _ _ => s.modConverter c fun x => { x with outRequest := true }
  | _ => s.setConverterState c .out

/-- SET_CONVERTER in by state (Table 5-3). -/
def State.takeIn (s : State) (c : ConverterNo) : Answer :=
  match (s.converter c).state with
  | .out => if (s.converter c).faultLine then .refused .busy else .ok (s.startCooling c) []
  | .running _ _ _ => .ok (s.modConverter c fun x => { x with outRequest := false }) []
  | _ => .ok s []

/-- The converter a SET_CONVERTER names, when its direction byte is the one given (R102, R194, log entry 7). -/
def setConverterOperand (direction : Byte) (body : List Byte) : Option ConverterNo :=
  if byteAt body 1 = direction then converterOfByte (byteAt body 0) else none

/-- SET_CONVERTER with direction out (R102). -/
def execSetConverterOut (tag : Byte) (body : List Byte) (s : State) : Host.Outcome State Fault Refusal :=
  .next (s.request 11 onlyDispatch 2 tag body fun s =>
    withField (setConverterOperand 0 body) fun c => .ok (s.takeOut c) [])

/-- SET_CONVERTER with direction in (R103). -/
def execSetConverterIn (tag : Byte) (body : List Byte) (s : State) : Host.Outcome State Fault Refusal :=
  .next (s.request 11 onlyDispatch 2 tag body fun s => withField (setConverterOperand 1 body) s.takeIn)

/-! ## CONVERTER_STATUS (R104, Table 12-8) -/

/-- The items of one converter. -/
def Converter.statusBytes (x : Converter) : List Byte :=
  beBytes 1 x.state.code ++ boolByte x.faultLine ++ boolByte x.outRequest ++
    match x.state with
    | .running h u n => beBytes 1 3 ++ beBytes 2 h ++ beBytes 1 u ++ beBytes 2 n ++ beBytes 2 0
    | .cooling n => beBytes 1 4 ++ beBytes 2 0 ++ beBytes 1 0 ++ beBytes 2 0 ++ beBytes 2 n
    | _ => beBytes 1 0 ++ beBytes 2 0 ++ beBytes 1 0 ++ beBytes 2 0 ++ beBytes 2 0

/-- A count and that many handles (12.2). -/
def handleList (hs : List Handle) : List Byte := beBytes 1 hs.length ++ hs.flatMap (beBytes 2)

def State.convertersBody (s : State) : List Byte :=
  (allConverters.flatMap fun c => (s.converter c).statusBytes) ++
    beBytes 1 (bitsOf (allUnits.map fun u => (s.unit u).lastConverter.isSome)) ++
    (allUnits.flatMap fun u => optBytes 1 ((s.unit u).lastConverter.map Fin.val)) ++
    handleList (s.startQueue.map (·.handle))

/-- CONVERTER_STATUS (R104). -/
def execConverterStatus (tag : Byte) (body : List Byte) (s : State) : Host.Outcome State Fault Refusal :=
  .next (s.request 12 anyMode 0 tag body fun s => .ok s s.convertersBody)

end Sys2Proof.Machine
end

