-- ==== Sys2Proof/Machine/Gauges.lean ====
section
/-! DEFINITION. The Gauge Monitor (Chapter 8): judging telegrams, gauge states, limit flags, inhibits and the orders they stop,
silence, and GAUGE_STATUS. -/

namespace Sys2Proof.Machine

/-! ## Inhibits and the orders they stop (R158 to R160) -/

/-- Which inhibits of a waterway have just set. -/
structure InhibitsSet where
  pump : Bool
  gen : Bool
  deriving DecidableEq, Repr

/-- Whether the inhibit that just set is the one of the mode of a single order (R159). -/
def InhibitsSet.stops (i : InhibitsSet) (m : Mode) : Bool :=
  match m with
  | .pump => i.pump
  | .generate => i.gen
  | _ => false

/-- Whether it is the one of the pair sense (R160). -/
def InhibitsSet.stopsPair (i : InhibitsSet) (sense : Option PairSense) : Bool :=
  match sense with
  | some .pumping => i.pump
  | some .generating => i.gen
  | none => false

/-- RUNNING, or STARTING in RUNUP (R159); for a GENERATE leg this is being on line (R160). -/
def Life.movesWater (l : Life) : Bool := l.onLine

/-- A pair is treated whole, at the unit of its PUMP leg (R160), and judged as it stands at its place in the walk (DESIGN CHOICE, log
entry 53). -/
def State.inhibitPair (s : State) (i : InhibitsSet) (h : Handle) (r : Order) : State :=
  let leg := r.partner.bind fun g => (s.order? g).map fun q => (g, q)
  let alone := if i.pump && r.life.movesWater then (s.beginStop h .limit).finish else s
  match leg with
  | some (g, q) =>
    if q.life.isStopping then s
    else if q.life.onLine then
      if i.stopsPair r.pairSense then ((s.beginStop g .limit).finish.beginStop h .limit).finish else s
    else alone
  | none => alone

/-- The engaged order of one unit is treated at its place in the walk (R159, R160). -/
def State.inhibitUnit (i : InhibitsSet) (s : State) (u : UnitNo) : State :=
  match s.engagedOrder u with
  | some (h, r) =>
    if r.isPairLeg then (if r.mode = .pump then s.inhibitPair i h r else s)
    else if i.stops r.mode && r.life.movesWater then (s.beginStop h .limit).finish
    else s
  | none => s

/-- A changed inhibit raises INHIBIT_CHANGE (R158). -/
def State.raiseIf (s : State) (e : EventKind) (changed : Bool) : State := if changed then s.raise e else s

/-- The inhibits of a waterway are evaluated: those that set stop orders, and a clearing is a grant opportunity (R158, R159,
R109). -/
def State.evaluateInhibits (s : State) (w : WaterwayNo) : State :=
  let x := s.waterway w
  let pump := pumpInhibitOf (s.gauge x.upper) (s.gauge x.lower)
  let gen := genInhibitOf (s.gauge x.upper) (s.gauge x.lower)
  let i : InhibitsSet := { pump := pump && !x.pumpInhibit, gen := gen && !x.genInhibit }
  let s := (s.modWaterway w fun x => { x with pumpInhibit := pump, genInhibit := gen }).raiseIf .inhibitChange
    (pump != x.pumpInhibit || gen != x.genInhibit)
  let s := if i.pump || i.gen then (s.unitsOf w).foldl (State.inhibitUnit i) s else s
  if (x.pumpInhibit && !pump) || (x.genInhibit && !gen) then s.gateOpportunity w else s

/-- Whether a waterway names the gauge. -/
def Waterway.names (x : Waterway) (g : GaugeNo) : Bool := x.upper == g || x.lower == g

/-- The waterways that name a gauge. -/
def State.waterwaysOf (s : State) (g : GaugeNo) : List WaterwayNo := allWaterways.filter fun w => (s.waterway w).names g

/-- The inhibits of every waterway that names the gauge are evaluated. -/
def State.inhibitsOf (s : State) (g : GaugeNo) : State := (s.waterwaysOf g).foldl State.evaluateInhibits s

/-- The live heads of every waterway that names the gauge are worked out anew (R30). -/
def State.headsOf (s : State) (g : GaugeNo) : State := (s.waterwaysOf g).foldl State.updateHead s

/-! ## Limit flags (R157) -/

/-- The limit flags are evaluated against the held level; an absent level evaluates nothing. -/
def Gauge.evaluateFlags (x : Gauge) : Gauge :=
  match x.level with
  | some v =>
    { x with
      high := evalHigh x.highLimit x.hysteresis v x.high
      low := evalLow x.lowLimit x.hysteresis v x.low }
  | none => x

/-! ## Judging a telegram (R153) -/

/-- The level a telegram carries (Table 12-5). -/
def telegramLevel (bytes : List Byte) : Nat := field bytes 2 4

/-- The validity flag a telegram carries (Table 12-5). -/
def telegramValid (bytes : List Byte) : Bool := (byteAt bytes 6).getLsbD 0

/-- The first check: length, CRC and gauge number are right (R153, R193). -/
def telegramHeard (g : GaugeNo) (bytes : List Byte) : Bool :=
  bytes.length == 11 && byteAt bytes 0 == 10 && crcRight bytes && (byteAt bytes 1).toNat == g

/-- The distance of two levels. -/
def levelDistance (a b : Nat) : Nat := max a b - min a b

/-- The reason for which a telegram is bad, or none when it is good (R153). -/
def judgeTelegram (x : Gauge) (g : GaugeNo) (bytes : List Byte) : Option BadReason :=
  if !telegramHeard g bytes then some .frame
  else if !telegramValid bytes then some .notValid
  else if 100000 < telegramLevel bytes then some .range
  else if x.state = .valid ∧ x.jumpLimit < levelDistance (telegramLevel bytes) (x.level.getD 0) then some .jump
  else none

/-- A run raised by one, at most to 3 (R154). -/
def raiseRun (n : Nat) : Nat := min (n + 1) Config.runLength

/-- A gauge changes its state: both runs are set to 0 (R154). -/
def Gauge.become (x : Gauge) (st : GaugeState) : Gauge := { x with state := st, goodRun := 0, badRun := 0 }

/-- A telegram heard clears the silence count and is kept as the last telegram (R153, R155, R162). -/
def Gauge.hear (x : Gauge) (bytes : List Byte) : Gauge :=
  { x with silence := 0, lastTelegram := some (telegramLevel bytes, telegramValid bytes) }

/-- A bad telegram: runs, last bad reason, and FAULT at a bad run of 3 while VALID (R153, R154). -/
def Gauge.takeBad (x : Gauge) (reason : BadReason) : Gauge :=
  let x := { x with goodRun := 0, badRun := raiseRun x.badRun, lastBad := some reason }
  if x.state = .valid ∧ x.badRun = Config.runLength then x.become .fault else x

/-- A good telegram: runs, held level, and VALID at a good run of 3 while not VALID (R154, R156). -/
def Gauge.takeGood (x : Gauge) (level : Nat) : Gauge :=
  let x := { x with goodRun := raiseRun x.goodRun, badRun := 0, level := some level }
  if x.state ≠ .valid ∧ x.goodRun = Config.runLength then x.become .valid else x

/-- The gauge after a telegram, its flags evaluated where the held level has changed (R153 to R157). -/
def Gauge.receive (x : Gauge) (g : GaugeNo) (bytes : List Byte) : Gauge :=
  let heard := if telegramHeard g bytes then x.hear bytes else x
  match judgeTelegram x g bytes with
  | some reason => heard.takeBad reason
  | none =>
    if x.level = some (telegramLevel bytes) then heard.takeGood (telegramLevel bytes)
    else (heard.takeGood (telegramLevel bytes)).evaluateFlags

/-- The consequences of a change of a gauge's level or state: GAUGE_CHANGE, then heads, then inhibits (R154, R156, R158, log
entry 23). -/
def State.gaugeChanged (s : State) (g : GaugeNo) (old : Gauge) : State :=
  let new := s.gauge g
  let s := s.raiseIf .gaugeChange (old.state != new.state)
  if old.level ≠ new.level ∨ (old.state = .unknown ∧ new.state ≠ .unknown) then (s.headsOf g).inhibitsOf g else s

/-- GAUGE_TELEGRAM (R153 to R156). -/
def execGaugeTelegram (g : GaugeNo) (bytes : List Byte) (s : State) : Host.Outcome State Fault Refusal :=
  .next ((s.quiet.modGauge g fun x => x.receive g bytes).gaugeChanged g (s.gauge g))

/-! ## Silence (R155) -/

/-- A second mark for a gauge: the silence count rises, to at most 255, and past the setting a VALID gauge enters FAULT. -/
def Gauge.silenceMark (x : Gauge) : Gauge :=
  let x := { x with silence := min (x.silence + 1) 255 }
  if x.state = .valid ∧ x.silenceLimit < x.silence then x.become .fault else x

/-- The silence mark of a gauge with its event (R155). -/
def State.gaugeSilence (s : State) (g : GaugeNo) : State :=
  (s.modGauge g Gauge.silenceMark).raiseIf .gaugeChange ((s.gauge g).silenceMark.state != (s.gauge g).state)

/-! ## GAUGE_STATUS (R162, Table 12-8) -/

def State.gaugeBody (s : State) (g : GaugeNo) : List Byte :=
  let x := s.gauge g
  beBytes 1 x.state.code ++
    beBytes 1 (bitsOf [x.level.isSome, x.high, x.low, x.lastBad.isSome, x.lastTelegram.isSome,
      (x.lastTelegram.map (·.2)).getD false]) ++
    optBytes 4 x.level ++ beBytes 1 x.goodRun ++ beBytes 1 x.badRun ++ beBytes 1 x.silence ++
    optBytes 1 (x.lastBad.map BadReason.code) ++ optBytes 4 (x.lastTelegram.map (·.1)) ++
    beBytes 4 x.highLimit ++ beBytes 4 x.lowLimit ++ beBytes 2 x.hysteresis ++ beBytes 2 x.jumpLimit ++
    beBytes 2 x.silenceLimit ++
    allWaterways.flatMap fun w => beBytes 1 (bitsOf [(s.waterway w).upper == g, (s.waterway w).lower == g])

/-- GAUGE_STATUS (R162). -/
def execGaugeStatus (tag : Byte) (body : List Byte) (s : State) : Host.Outcome State Fault Refusal :=
  .next (s.request 17 anyMode 1 tag body fun s => withField (gaugeOf (byteAt body 0)) fun g => .ok s (s.gaugeBody g))

end Sys2Proof.Machine
end

