-- ==== Sys2Proof/Machine/Admission.lean ====
section
/-! DEFINITION. The Admission Unit (Chapter 3): the checks of PLACE, PLACE_PAIR and AMEND, the waterway plan, admission and
adoption, amendment, the re-check on a capability change, and the test of a configuration against the plan. -/

namespace Sys2Proof.Machine

/-! ## Candidates -/

/-- An order as the checks judge it: an offered order with its start fixed, or a record with its new values put in.
`self` is the record's own handle, when it has one. -/
structure Candidate where
  self : Option Handle
  unit : UnitNo
  mode : Mode
  start : Nat
  finish : Option Nat
  target : Nat
  isLeg : Bool
  deriving DecidableEq, Repr

/-- A check fails with its result unless its condition holds. -/
def unlessHolds (p : Bool) (r : Result) : Option Result := if p then none else some r

/-- The result of the first check that fails. -/
def firstFailure (checks : List (Option Result)) : Option Result := checks.findSome? id

/-! ## Checks 2 to 6 (R44 to R46) -/

/-- Check 2: the unit is available for a new order (R44). -/
def State.check2 (s : State) (u : UnitNo) : Bool :=
  [Context.idle, .engaged, .recovering, .orphan].contains (s.unit u).context && !(s.unit u).isolated

/-- Check 3: the current record offers the mode (R44). -/
def State.check3 (s : State) (u : UnitNo) (m : Mode) : Bool := (s.unit u).link.current.any fun c => c.offers m

/-- Check 4: a GENERATE target lies in [Pmin, Pmax] (R44). -/
def State.check4 (s : State) (u : UnitNo) (m : Mode) (target : Nat) : Bool :=
  m != .generate || (s.unit u).link.current.any fun c => inRange c.pmin c.pmax target

/-- The start an offer is given: no earlier than the present plant time (R45). -/
def State.fixStart (s : State) (start : Nat) : Nat := max start s.plantTime

/-- An end, when present, lies after the start (R45). -/
def endsAfter (start : Nat) (finish : Option Nat) : Bool :=
  match finish with
  | some e => start < e
  | none => true

/-- Check 6: H_adm lies within the pump table, for PUMP and CONDENSE_P (R46). -/
def State.check6 (s : State) (u : UnitNo) (m : Mode) : Bool :=
  !m.pumpDirection ||
    (s.unit u).link.current.any fun c => c.pump.any fun t => !t.outside (s.waterway (s.unit u).waterway).hAdm

/-! ## Checks 7 and 8 (R47 to R49) -/

/-- Whether the time `t` lies before an end, an absent end having no limit. -/
def beforeEnd (t : Nat) (finish : Option Nat) : Bool :=
  match finish with
  | some e => t < e
  | none => true

/-- Whether two windows share an instant (R47). -/
def windowsMeet (a : Nat) (b : Option Nat) (c : Nat) (d : Option Nat) : Bool := beforeEnd a d && beforeEnd c b

/-- The unit chain without the candidate's own record (R47, R57). -/
def State.others (s : State) (c : Candidate) : List (Handle × Order) :=
  (s.chain c.unit).filter fun p => c.self != some p.1

/-- Check 7: the window is clear of every other live order of the unit (R47). -/
def State.check7 (s : State) (c : Candidate) : Bool :=
  (s.others c).all fun p => !windowsMeet c.start c.finish p.2.start p.2.finish

/-- The earlier neighbour of a window in the unit chain (R48). -/
def State.earlierNeighbour (s : State) (c : Candidate) : Option (Handle × Order) :=
  ((s.others c).filter fun p => p.2.start < c.start).getLast?

/-- The later neighbour of a window in the unit chain (R48). -/
def State.laterNeighbour (s : State) (c : Candidate) : Option (Handle × Order) :=
  (s.others c).find? fun p => c.start < p.2.start

/-- The gap a changeover needs after an order of the mode: stop time and standstill dwell (R48). -/
def State.changeover (s : State) (u : UnitNo) (m : Mode) : Nat := s.capTime u (·.stopTime m) + s.capTime u (·.dwell)

/-- Whether the offered order may be the successor of, or be succeeded by, its neighbour, the gap being zero (R49). -/
def judgeZeroGap (earlier later : Mode) (leg earlierStopping : Bool) : Option Result :=
  if earlier ≠ later then some .changeoverShort
  else if leg then some .linked
  else if earlierStopping then some .changeoverShort
  else none

/-- Check 8 against the earlier neighbour (R48, R49). -/
def State.judgeEarlier (s : State) (c : Candidate) : Option Result :=
  match s.earlierNeighbour c with
  | none => none
  | some (_, a) =>
    match a.finish with
    | none => some .changeoverShort
    | some e =>
      if e = c.start then judgeZeroGap a.mode c.mode (c.isLeg || a.isPairLeg) a.life.isStopping
      else unlessHolds (s.changeover c.unit a.mode ≤ c.start - e) .changeoverShort

/-- Check 8 against the later neighbour; the offered or amended order is not STOPPING (R48, R49, Table 3-2). -/
def State.judgeLater (s : State) (c : Candidate) : Option Result :=
  match c.finish, s.laterNeighbour c with
  | some e, some (_, b) =>
    if e = b.start then judgeZeroGap c.mode b.mode (c.isLeg || b.isPairLeg) false
    else unlessHolds (s.changeover c.unit c.mode ≤ b.start - e) .changeoverShort
  | _, _ => none

/-- Check 8: time to change over, earlier neighbour first (R48). -/
def State.check8 (s : State) (c : Candidate) : Option Result := firstFailure [s.judgeEarlier c, s.judgeLater c]

/-- The neighbour that the candidate succeeds, when check 8 has passed with a gap of zero (R49). -/
def State.linkBefore (s : State) (c : Candidate) : Option Handle :=
  (s.earlierNeighbour c).bind fun p => if p.2.finish = some c.start then some p.1 else none

/-- The neighbour that succeeds the candidate (R49). -/
def State.linkAfter (s : State) (c : Candidate) : Option Handle :=
  (s.laterNeighbour c).bind fun p => if c.finish = some p.2.start then some p.1 else none

/-- The successor links that check 8 found for an admitted or amended order are written (R13, R52, R58). An order that ended early
may still name the later neighbour: R13 lists no clearing for it, and says that one order at most names a given one. The new link
takes the place of that older one (DEDUCED, log entry 54). -/
def State.writeLinks (s : State) (h : Handle) (before after : Option Handle) : State :=
  let s := match before with
    | some a => s.modOrder a fun r => { r with successor := some h }
    | none => s
  match after with
  | some b => (s.unlinkTo b).modOrder h fun r => { r with successor := some b }
  | none => s

/-! ## The waterway plan (R50, R51) -/

/-- The orders that enter the plan of a waterway (R50), but for those left out. -/
def State.planOrders (s : State) (w : WaterwayNo) (out : List Handle) : List Order :=
  (s.orders.filter fun p => (s.unit p.2.unit).waterway == w && p.2.life.planned && !out.contains p.1).map (·.2)

/-- The plan at an instant: the planned flows of the orders whose window contains it (R50). -/
def planAt (rs : List Order) (t : Nat) : Int :=
  ((rs.filter fun r => inWindow r.start r.finish t).map (·.plannedFlow)).sum

/-- The breakpoints of a plan (R50). -/
def breakpoints (rs : List Order) : List Nat := rs.flatMap fun r => r.start :: r.finish.toList

/-- The plan of a waterway at the instant, as WATERWAY_STATUS reports it (R125). -/
def State.plan (s : State) (w : WaterwayNo) (t : Nat) : Int := planAt (s.planOrders w []) t

/-- A sum lies within the limits of the waterway (R50). -/
def Waterway.keeps (x : Waterway) (q : Int) : Bool := -(x.qpLim : Int) ≤ q && q ≤ (x.qgLim : Int)

/-- Check 9: the plan with the flow added keeps the limits at the start of the window and at every breakpoint inside it
(R51). -/
def State.check9 (s : State) (w : WaterwayNo) (out : List Handle) (flow : Int) (start : Nat) (finish : Option Nat) :
    Bool :=
  let rs := s.planOrders w out
  (start :: (breakpoints rs).filter (inWindow start finish)).all fun t => (s.waterway w).keeps (planAt rs t + flow)

/-- The plan of a waterway keeps its limits at every breakpoint (R62). -/
def State.planKeeps (s : State) (w : WaterwayNo) : Bool :=
  let rs := s.planOrders w []
  (breakpoints rs).all fun t => (s.waterway w).keeps (planAt rs t)

/-! ## PLACE (R42 to R53, R161) -/

/-- The planned flow of an order, 0 where the unit has no table for it. -/
def State.flowOf (s : State) (u : UnitNo) (m : Mode) (target : Nat) : Int := ((s.plannedFlow u m target).map (·.1)).getD 0

/-- Whether that planned flow saturates. -/
def State.flowSaturates (s : State) (u : UnitNo) (m : Mode) (target : Nat) : Bool :=
  ((s.plannedFlow u m target).map (·.2)).getD false

/-- The candidate an offer makes: its start is fixed by check 5 (R45). -/
def State.candidate (s : State) (o : Offer) (isLeg : Bool) : Candidate where
  self := none
  unit := o.unit
  mode := o.mode
  start := s.fixStart o.start
  finish := o.finish
  target := o.target
  isLeg := isLeg

/-- The checks of a PLACE from check 2 on (Table 3-1). -/
def State.judgePlace (s : State) (o : Offer) : Option Result :=
  let c := s.candidate o false
  firstFailure
    [unlessHolds (s.check2 o.unit) .unitUnavailable,
     unlessHolds (s.check3 o.unit o.mode) .modeNotSupported,
     unlessHolds (s.check4 o.unit o.mode o.target) .targetRange,
     unlessHolds (endsAfter c.start c.finish) .badWindow,
     unlessHolds (s.check6 o.unit o.mode) .headRange,
     unlessHolds (s.check7 c) .overlap,
     s.check8 c,
     unlessHolds (s.check9 (s.unit o.unit).waterway [] (s.flowOf o.unit o.mode o.target) c.start c.finish) .flowLimit,
     unlessHolds (!s.freeSlots.isEmpty) .tableFull]

/-- The record of an admitted offer (R52). -/
def State.newRecord (s : State) (o : Offer) (life : Life) : Order where
  unit := o.unit
  mode := o.mode
  cls := o.cls
  start := s.fixStart o.start
  finish := o.finish
  target := o.target
  ramp := o.ramp
  tolerance := o.tolerance
  life := life
  partner := none
  pairSense := none
  successor := none
  plannedFlow := s.flowOf o.unit o.mode o.target
  actualStart := if life = .running then some s.plantTime else none
  attempts := 0
  retirePending := false
  derated := false
  curtailed := false
  unseen := false
  awaited := none

/-- A record enters a free slot (R3). -/
def State.enterRecord (s : State) (k : SlotNo) (r : Order) : State := s.setSlot k { (s.slot k) with order := some r }

/-- The mode that a machine state matches for adoption (R53). -/
def MachineState.adoptableAs : MachineState → Option Mode
  | .generating => some .generate
  | .pumping => some .pump
  | .condensingG => some .condenseG
  | .condensingP => some .condenseP
  | _ => none

/-- Whether a PLACE adopts the running machine (R53). -/
def State.adopts (s : State) (o : Offer) : Bool :=
  (s.unit o.unit).context == .orphan && o.start ≤ s.plantTime &&
    (s.unit o.unit).link.lastReport.any fun r => MachineState.adoptableAs r.state == some o.mode

/-- The setpoint of an adopted GENERATE order: the measured power clamped to [Pmin, target] (R53). -/
def State.adoptedSetpoint (s : State) (u : UnitNo) (target : Nat) : Nat :=
  let p : Int := ((s.unit u).link.lastReport.map Report.power).getD 0
  let pmin := s.capTime u (·.pmin)
  if p < pmin then pmin else if (target : Int) < p then target else p.toNat

/-- The inhibit of a single order's mode (R161). -/
def Waterway.inhibits (x : Waterway) (m : Mode) : Bool :=
  match m with
  | .generate => x.genInhibit
  | .pump => x.pumpInhibit
  | _ => false

/-- The machine of the unit is adopted under the record just entered in RUNNING; under an inhibit of its mode the order is
stopped with cause LIMIT (R53, R161). -/
def State.adopt (s : State) (h : Handle) (o : Offer) : State :=
  let s := s.setContext o.unit .engaged
  let s :=
    if o.mode = .generate then
      (s.modUnit o.unit fun b => { b with ceiling := none }).commitSetpoint o.unit (s.adoptedSetpoint o.unit o.target)
    else s.recompute o.unit
  if (s.waterway (s.unit o.unit).waterway).inhibits o.mode then (s.beginStop h .limit).finish else s

/-- A start arrival within a request, when the order's start is the present plant time (R52, R58). -/
def State.arriveIfNow (s : State) (h : Handle) (start : Nat) : State :=
  if start = s.plantTime then (s.startArrival h).finish else s

/-- A PLACE that passes every check is admitted in the lowest free slot, and adopts the machine where R53 says so. -/
def State.admitOrder (s : State) (k : SlotNo) (o : Offer) : Answer :=
  let h := handleOf k (s.slot k).generation
  let c := s.candidate o false
  let before := s.linkBefore c
  let after := s.linkAfter c
  let adopted := s.adopts o
  let s' := { (s.markSaturated o.unit (s.flowSaturates o.unit o.mode o.target)) with named := [h] }
  let s' := (s'.enterRecord k (s.newRecord o (if adopted then .running else .held))).writeLinks h before after
  .ok (if adopted then s'.adopt h o else s'.arriveIfNow h c.start) (beBytes 2 h)

/-- PLACE after check 1 (R42). -/
def State.placeOrder (s : State) (o : Offer) : Answer :=
  match s.judgePlace o, s.freeSlots with
  | some r, _ => .refused r
  | none, k :: _ => s.admitOrder k o
  | none, [] => .refused .tableFull

/-- PLACE (R42, R52, R53). -/
def execPlace (tag : Byte) (body : List Byte) (s : State) : Host.Outcome State Fault Refusal :=
  .next (s.request 1 onlyDispatch 18 tag body fun s => withField (placeOf body) s.placeOrder)

/-! ## PLACE_PAIR (R54, R55) -/

/-- The planned flow of both legs together (R54). -/
def State.pairFlow (s : State) (p q : Offer) : Int := s.flowOf p.unit .pump 0 + s.flowOf q.unit .generate q.target

/-- The checks of a PLACE_PAIR from check P on, taken check by check with the PUMP leg first (R54). -/
def State.judgePair (s : State) (p q : Offer) : Option Result :=
  let cp := s.candidate p true
  let cq := s.candidate q true
  firstFailure
    [unlessHolds (p.unit != q.unit && (s.unit p.unit).waterway == (s.unit q.unit).waterway) .pairInvalid,
     unlessHolds (s.check2 p.unit && s.check2 q.unit) .unitUnavailable,
     unlessHolds (s.check3 p.unit .pump && s.check3 q.unit .generate) .modeNotSupported,
     unlessHolds (s.check4 q.unit .generate q.target) .targetRange,
     unlessHolds (endsAfter cp.start cp.finish) .badWindow,
     unlessHolds (s.check6 p.unit .pump) .headRange,
     unlessHolds (s.check7 cp && s.check7 cq) .overlap,
     s.check8 cp,
     s.check8 cq,
     unlessHolds (s.check9 (s.unit p.unit).waterway [] (s.pairFlow p q) cp.start cp.finish) .flowLimit,
     unlessHolds (2 ≤ s.freeSlots.length) .tableFull]

/-- The pair sense: PUMPING when Qp(H_adm) exceeds Q(target, H_adm) (R38). -/
def State.pairSenseOf (s : State) (p q : Offer) : PairSense :=
  if s.flowOf q.unit .generate q.target < -(s.flowOf p.unit .pump 0) then .pumping else .generating

/-- A leg's record names its partner and carries the pair sense (R55). -/
def Order.asLeg (r : Order) (partner : Handle) (sense : PairSense) : Order :=
  { r with partner := some partner, pairSense := some sense }

/-- The start arrivals of two legs, in a free order (R166, log entry 3). -/
def State.arriveBoth (s : State) (a b : Handle) (start : Nat) : State :=
  if start = s.plantTime then
    let (hs, s) := s.inFreeOrder [a, b]
    hs.foldl (fun s h => (s.startArrival h).finish) s
  else s

/-- A PLACE_PAIR that passes every check is admitted: the PUMP leg in the lower slot (R55). -/
def State.admitPair (s : State) (kp kq : SlotNo) (p q : Offer) : Answer :=
  let hp := handleOf kp (s.slot kp).generation
  let hq := handleOf kq (s.slot kq).generation
  let sense := s.pairSenseOf p q
  let rp := (s.newRecord p .held).asLeg hq sense
  let rq := (s.newRecord q .held).asLeg hp sense
  let s' := (s.markSaturated p.unit (s.flowSaturates p.unit .pump 0)).markSaturated q.unit
    (s.flowSaturates q.unit .generate q.target)
  let s' := (({ s' with named := [hp, hq] }).enterRecord kp rp).enterRecord kq rq
  .ok (s'.arriveBoth hp hq (s.fixStart p.start)) (beBytes 2 hp ++ beBytes 2 hq)

/-- PLACE_PAIR after check 1 (R54). -/
def State.placePair (s : State) (o : Offer × Offer) : Answer :=
  match s.judgePair o.1 o.2, s.freeSlots with
  | some r, _ => .refused r
  | none, kp :: kq :: _ => s.admitPair kp kq o.1 o.2
  | none, _ => .refused .tableFull

/-- PLACE_PAIR (R54, R55). -/
def execPlacePair (tag : Byte) (body : List Byte) (s : State) : Host.Outcome State Fault Refusal :=
  .next (s.request 2 onlyDispatch 18 tag body fun s => withField (pairOf body) s.placePair)

/-! ## AMEND (R56 to R59) -/

/-- Whether the state permits every field the amendment names (Table 3-2). -/
def Life.permits (l : Life) (a : Amendment) : Bool :=
  match l with
  | .held => true
  | .due => a.start.isNone && a.tolerance.isNone && a.cls.isNone
  | .starting _ => a.start.isNone && a.tolerance.isNone && a.cls.isNone
  | .running => a.start.isNone && a.tolerance.isNone && a.cls.isNone
  | _ => false

/-- The legs that checks A3 and A4 look at: the record, and the partner of a pair leg; a partner already freed has ended, and
permits nothing (R59, log entry 21). -/
def State.permitsAll (s : State) (r : Order) (a : Amendment) : Bool :=
  r.life.permits a &&
    match r.partner with
    | some p => (s.order? p).any fun q => q.life.permits a
    | none => true

/-- Whether the record takes part in a successor link, on either side (check A4, R13). -/
def State.isLinked (s : State) (h : Handle) (r : Order) : Bool := r.successor.isSome || !(s.predecessors h).isEmpty

/-- The start of a record under the amendment: an amended start of a HELD record is fixed as R45 does (R57). -/
def State.amendedStart (s : State) (r : Order) (a : Amendment) : Nat :=
  match a.start with
  | some t => s.fixStart t
  | none => r.start

/-- Check 5 of a re-check (R57). -/
def State.amendedWindowRight (s : State) (r : Order) (a : Amendment) : Bool :=
  if r.life = .held then endsAfter (s.amendedStart r a) (a.finish.getD r.finish)
  else match a.finish with
    | some (some e) => s.plantTime ≤ e && r.start < e
    | _ => true

/-- Whether the amendment gives the record a new target (log entry 20). -/
def Amendment.changesTarget (a : Amendment) (r : Order) : Bool := a.target.any fun p => p != r.target

/-- The record with the new values put in. Target and ramp change a GENERATE order alone (R58, R59). -/
def State.amendRecord (s : State) (r : Order) (a : Amendment) : Order :=
  let r' := { r with
    start := s.amendedStart r a
    finish := a.finish.getD r.finish
    tolerance := a.tolerance.getD r.tolerance
    cls := a.cls.getD r.cls }
  if r.mode = .generate then
    { r' with
      target := a.target.getD r.target
      ramp := a.ramp.getD r.ramp
      plannedFlow := if a.changesTarget r then s.flowOf r.unit r.mode (a.target.getD r.target) else r.plannedFlow
      derated := if a.changesTarget r then false else r.derated }
  else r'

/-- A record with its new values as the re-check judges it (R57). -/
def Order.asCandidate (r : Order) (h : Handle) : Candidate where
  self := some h
  unit := r.unit
  mode := r.mode
  start := r.start
  finish := r.finish
  target := r.target
  isLeg := r.isPairLeg

/-- The records that the amendment changes, the PUMP leg first: both legs where it names a field they share, and otherwise
the named record alone (R59). -/
def State.amendedLegs (s : State) (h : Handle) (r : Order) (a : Amendment) : List (Handle × Order) :=
  match r.partner with
  | some p =>
    match s.order? p with
    | some q =>
      if a.namesShared then (if r.mode = .pump then [(h, r), (p, q)] else [(p, q), (h, r)]) else [(h, r)]
    | none => [(h, r)]
  | none => [(h, r)]

/-- The re-check of the records with their new values: checks 4 to 9, check by check (R57, R59). -/
def State.judgeAmended (s : State) (a : Amendment) (legs : List (Handle × Order)) : Option Result :=
  let news := legs.map fun p => (p.1, s.amendRecord p.2 a)
  let flow := (news.map fun p => p.2.plannedFlow).sum
  firstFailure
    [unlessHolds (news.all fun p => s.check4 p.2.unit p.2.mode p.2.target) .targetRange,
     unlessHolds (legs.all fun p => s.amendedWindowRight p.2 a) .badWindow,
     unlessHolds (news.all fun p => s.check6 p.2.unit p.2.mode) .headRange,
     unlessHolds (news.all fun p => s.check7 (p.2.asCandidate p.1)) .overlap,
     firstFailure (news.map fun p => s.check8 (p.2.asCandidate p.1)),
     unlessHolds (news.all fun p =>
       s.check9 (s.unit p.2.unit).waterway (legs.map (·.1)) flow p.2.start p.2.finish) .flowLimit]

/-- One record receives its new values, and the links its re-check found (R58). A flow that saturates sets flow saturated, on a DARK
unit too (DESIGN CHOICE, log entry 55). -/
def State.writeAmended (s : State) (a : Amendment) (p : Handle × Order) : State :=
  let r' := s.amendRecord p.2 a
  let c := r'.asCandidate p.1
  let s' := if a.changesTarget p.2 then s.markSaturated r'.unit (s.flowSaturates r'.unit r'.mode r'.target) else s
  (s'.modOrder p.1 fun _ => r').writeLinks p.1 (s.linkBefore c) (s.linkAfter c)

/-- A setpoint above a lowered target of a RUNNING order is lowered to it (R58, R114). -/
def State.lowerToTarget (s : State) (h : Handle) : State :=
  match s.order? h with
  | some r =>
    if r.life = .running ∧ r.mode = .generate then
      match (s.unit r.unit).setpoint with
      | some p => if r.target < p then s.commitSetpoint r.unit r.target else s
      | none => s
    else s
  | none => s

/-- The arrivals an amended window delivers at once (R58, R59): a start arrival of a HELD record, an end arrival of one DUE,
STARTING or RUNNING. -/
def State.amendedArrival (a : Amendment) (s : State) (h : Handle) : State :=
  match s.order? h with
  | some r =>
    if r.life = .held then (if a.start.isSome ∧ r.start = s.plantTime then (s.startArrival h).finish else s)
    else if a.finish = some (some s.plantTime) then (s.endArrival h).finish
    else s
  | none => s

/-- An accepted AMEND is carried out (R58, R59), the arrivals of two legs being taken in a free order (log entry 3): a setpoint above a lowered target is lowered first, and then an end that has come
arrives (DESIGN CHOICE, log entry 47: R58 gives the two effects no order). -/
def State.carryAmend (s : State) (a : Amendment) (h : Handle) (r : Order) : State :=
  let legs := s.amendedLegs h r a
  let s' := { s with named := h :: r.partner.toList }
  let s' := legs.foldl (fun s p => s.writeAmended a p) s'
  let s' := if a.target.isSome then s'.lowerToTarget h else s'
  let (hs, s') := s'.inFreeOrder (legs.map (·.1))
  hs.foldl (State.amendedArrival a) s'

/-- AMEND of a record that the handle names, after check A2 (R56). -/
def State.amendOrder (s : State) (h : Handle) (r : Order) (a : Amendment) : Answer :=
  match firstFailure
    [unlessHolds (s.permitsAll r a) .wrongState,
     unlessHolds (!a.namesWindow || !s.isLinked h r) .linked,
     s.judgeAmended a (s.amendedLegs h r a)] with
  | some e => .refused e
  | none => .ok (s.carryAmend a h r) []

/-- The owner goes on with the record that the handle names (NO_SUCH_ORDER for a stale handle, R2). -/
def State.withOrder (s : State) (h : Handle) (k : Order → Answer) : Answer :=
  match s.order? h with
  | some r => k r
  | none => .refused .noSuchOrder

/-- AMEND (R56 to R59). -/
def execAmend (tag : Byte) (body : List Byte) (s : State) : Host.Outcome State Fault Refusal :=
  .next (s.request 3 onlyDispatch 19 tag body fun s =>
    s.withOrder (field body 0 2) fun r =>
      withField (amendmentOf r.mode body) fun a => s.amendOrder (field body 0 2) r a)

/-! ## The re-check on a capability change (R60, R61) -/

/-- A target above the new Pmax is lowered to it (R60, first step). -/
def State.derate (s : State) (h : Handle) (r : Order) (c : Capability) : State :=
  if r.mode = .generate ∧ c.pmax < r.target then
    (s.modOrder h fun r => { r with target := c.pmax, derated := true }).note h .orderChanged
  else s

/-- planned_flow is recomputed and, where it differs, written (R60, second step). That of a PUMP order whose unit's new record has no
pump table stays as it stands, and no event tells of it (DESIGN CHOICE, log entry 46: R37 gives no figure there). A flow that
saturates sets flow saturated, on a DARK unit too (DESIGN CHOICE, log entry 55). -/
def State.replan (s : State) (h : Handle) : State :=
  match s.order? h with
  | none => s
  | some r =>
    match s.plannedFlow r.unit r.mode r.target with
    | none => s
    | some (q, sat) =>
      let s := s.markSaturated r.unit sat
      if q = r.plannedFlow then s else (s.modOrder h fun r => { r with plannedFlow := q }).note h .orderChanged

/-- The earlier neighbour of an order in a re-check: an order that began stopping earlier in the walk is no neighbour
(R61). -/
def State.recheckNeighbour (s : State) (h : Handle) (r : Order) (gone : List Handle) : Option (Handle × Order) :=
  ((s.chain r.unit).filter fun p => p.1 != h && !gone.contains p.1 && p.2.start < r.start).getLast?

/-- Check 8 of a re-check, against the earlier neighbour alone (R61). -/
def State.recheckGap (s : State) (h : Handle) (r : Order) (gone : List Handle) : Bool :=
  match s.recheckNeighbour h r gone with
  | none => true
  | some (_, a) =>
    match a.finish with
    | none => false
    | some e => (e = r.start && a.successor = some h) || s.changeover r.unit a.mode ≤ r.start - e

/-- Whether an order is feasible under the unit's new record (R61). -/
def State.feasible (s : State) (h : Handle) (r : Order) (gone : List Handle) : Bool :=
  s.check3 r.unit r.mode && (r.mode != .generate || s.capTime r.unit (·.pmin) ≤ r.target) && s.check6 r.unit r.mode &&
    s.recheckGap h r gone && s.check9 (s.unit r.unit).waterway [h] r.plannedFlow r.start r.finish

/-- An infeasible order is ended: FAILED before engagement, stopped when engaged (R61). -/
def State.endInfeasible (s : State) (h : Handle) (r : Order) : State :=
  (if r.life.waiting then s.endOrder h (.failed .capability) else s.beginStop h .capability).finish

/-- The setpoint of a surviving RUNNING GENERATE order is brought within [Pmin, target] (R60, fourth step). -/
def State.boundSetpoint (s : State) (r : Order) : State :=
  if r.life = .running ∧ r.mode = .generate then
    match (s.unit r.unit).setpoint with
    | some p =>
      if r.target < p then s.commitSetpoint r.unit r.target
      else if p < s.capTime r.unit (·.pmin) then s.commitSetpoint r.unit (s.capTime r.unit (·.pmin))
      else s
    | none => s
  else s

/-- One order is re-checked (R60). `gone` lists the orders that began stopping earlier in the walk. -/
def State.recheckOrder (c : Capability) (x : State × List Handle) (h : Handle) : State × List Handle :=
  match x.1.order? h with
  | none => x
  | some r =>
    if r.life.live && !r.life.isStopping then
      let s := (x.1.derate h r c).replan h
      match s.order? h with
      | none => (s, x.2)
      | some r =>
        if s.feasible h r x.2 then (s.boundSetpoint r, x.2)
        else
          let s := s.endInfeasible h r
          (s, if (s.order? h).any fun r => r.life.isStopping then h :: x.2 else x.2)
    else x

/-- The live orders of a unit are re-checked against its new record, in chain order (R60). -/
def State.recheck (s : State) (u : UnitNo) (c : Capability) : State :=
  (((s.chain u).map (·.1)).foldl (State.recheckOrder c) (s, [])).1

end Sys2Proof.Machine
end

