-- ==== Sys2Proof/Machine/Links.lean ====
section
/-! DEFINITION. The Unit Link Controllers (Chapter 7): frame errors and loss, the capability exchange, acknowledgements, STATE
reports with the Order Table's judgement of them (R84 to R88), and the supervision of the links. -/

namespace Sys2Proof.Machine

/-! ## Loss and frame errors (R141, R144) -/

/-- What a link drops when it leaves EXCHANGE or UP (R144): it enters the state given, and the latched lost indicator is set
when that is LOST. -/
def Link.drop (l : Link) (next : LinkState) : Link :=
  { l with
    state := next
    lostLatch := l.lostLatch || next == .lost
    outstanding := none
    held := none
    ackTimer := none
    collecting := none
    silent := false
    burstTimer := none }

/-- The engaged order of a unit whose link leaves UP fails, or its context becomes DARK (R88, R144, R149). -/
def State.darken (s : State) (u : UnitNo) : State :=
  match (s.unit u).context, s.engagedOrder u with
  | .engaged, some (h, _) => (s.endOrder h (.failed .linkLost)).finish
  | _, _ => s.setContext u .dark

/-- A link leaves EXCHANGE or UP for LOST or, at a RELINK, for DOWN (R144, R145). -/
def State.loseLink (s : State) (u : UnitNo) (next : LinkState) : State :=
  ((s.modUnit u fun b => { b with link := b.link.drop next, pendingSetpoint := none }).raise .linkChange).darken u

/-- Whether the link is supervised: EXCHANGE or UP (Table 7-1). -/
def LinkState.supervised : LinkState → Bool
  | .exchange => true
  | .up => true
  | _ => false

/-- A frame error is counted; the link is lost when the count reaches the burst count (R141). -/
def State.frameError (s : State) (u : UnitNo) : State :=
  let s := s.modLink u fun l => { l with frameErrors := l.frameErrors + 1 }
  if s.supervision.burstCount ≤ (s.unit u).link.frameErrors then s.loseLink u .lost else s

/-- A valid frame: it counts for the silence supervision and ends a silence at once (R139, R142). -/
def State.validFrame (s : State) (u : UnitNo) : State :=
  s.modLink u fun l => { l with heard := true, silent := false }

/-! ## Validation of a record (R132) -/

/-- The page toggles of a record are codes that are defined (R194, log entry 16). -/
def togglesDefined (ps : List Page) : Bool := ps.all fun p => p.toggle.toNat < 2

/-- Whether page 0 offers PUMP or CONDENSE_P. -/
def offersPumpMode (f : Figures) : Bool := f.modeSet.getLsbD 1 || f.modeSet.getLsbD 3

/-- The figures of page 0 lie in their ranges (Table 7-2). -/
def figuresInRange (f : Figures) : Bool :=
  f.modeSet.toNat < 16 && inRange 500 90000 f.href && inRange 1 9999 f.pmin && inRange 1 9999 f.pmax &&
    [f.genStart, f.pumpStart, f.genStop, f.pumpStop, f.dwell].all (inRange 1 3600)

/-- The generating breakpoints lie in their ranges (Table 7-2). -/
def genInRange (v : Vector GenPoint 8) : Bool := v.toList.all fun x => inRange 1 9999 x.p && inRange 0 9999 x.q

/-- The pump breakpoints lie in their ranges (Table 7-2). -/
def pumpInRange (v : Vector PumpPoint 8) : Bool :=
  v.toList.all fun x => inRange 500 90000 x.h && inRange 1 9999 x.qp && inRange 1 9999 x.pp

/-- Every neighbouring two of a list stand in the relation. -/
def chained {α : Type} (rel : α → α → Bool) : List α → Bool
  | a :: b :: rest => rel a b && chained rel (b :: rest)
  | _ => true

/-- The generating table is well shaped (R132). -/
def genTableRight (f : Figures) (v : Vector GenPoint 8) : Bool :=
  chained (fun a b => a.p < b.p && a.q ≤ b.q) v.toList && v[0].p == f.pmin && v[7].p == f.pmax

/-- The pump table is well shaped (R132). -/
def pumpTableRight (v : Vector PumpPoint 8) : Bool := chained (fun a b => a.h < b.h && b.qp ≤ a.qp) v.toList

/-- The capability record that five pages make up; the pump table belongs to it only when a pump-direction mode is offered
(R130). -/
def capabilityOf (f : Figures) (g : Vector GenPoint 8) (p : Vector PumpPoint 8) : Capability where
  modes := BitVec.ofNat 4 f.modeSet.toNat
  href := f.href
  pmin := f.pmin
  pmax := f.pmax
  genStart := f.genStart
  pumpStart := f.pumpStart
  genStop := f.genStop
  pumpStop := f.pumpStop
  dwell := f.dwell
  powers := mapVector GenPoint.p g
  flows := mapVector GenPoint.q g
  pump :=
    if offersPumpMode f then
      some { head := mapVector PumpPoint.h p, flow := mapVector PumpPoint.qp p, power := mapVector PumpPoint.pp p }
    else none

/-- A record is judged by the checks of R132 in their order. -/
def judgeRecord (u : UnitNo) (ps : List Page) (f : Figures) (g : Vector GenPoint 8) (p : Vector PumpPoint 8) :
    Except RefusalReason Capability :=
  if f.unitEcho ≠ u then .error .unitNumber
  else if !(togglesDefined ps && figuresInRange f && genInRange g && (!offersPumpMode f || pumpInRange p)) then .error .range
  else if !genTableRight f g then .error .genTable
  else if offersPumpMode f && !pumpTableRight p then .error .pumpTable
  else .ok (capabilityOf f g p)

/-- The record of the five pages collected, judged (R132). A collection always holds pages 0 to 4 in order. -/
def recordOf (u : UnitNo) (ps : List Page) : Except RefusalReason Capability :=
  match ps.map Page.contents with
  | [.figures f, .genLow a, .genHigh b, .pumpLow c, .pumpHigh d] => judgeRecord u ps f (a ++ b) (c ++ d)
  | _ => .error .range

/-! ## The end of an exchange (R132 to R135) -/

/-- The link enters UP with its new record (R132). -/
def Link.enterUp (l : Link) (c : Capability) : Link :=
  { l with
    state := .up
    current := some c
    collecting := none
    toggle := false
    outstanding := none
    held := none
    ackTimer := none
    refusal := none
    sinceUp := false }

/-- A capability swap: contribution and head outside indication, the re-check, CAPABILITY_CHANGE (R133, R135). -/
def State.swapped (s : State) (u : UnitNo) (c : Capability) : State :=
  (((s.recompute u).refreshOutside u).recheck u c).raise .capabilityChange

/-- An exchange in EXCHANGE ends with a record that passes: UP, and a capability swap when the record differs from one held
(R132, R133). -/
def State.linkUp (s : State) (u : UnitNo) (c : Capability) : State :=
  let old := (s.unit u).link.current
  let s := (s.modLink u fun l => l.enterUp c).raise .linkChange
  if old.any fun o => o != c then s.swapped u c else s.refreshOutside u

/-- An exchange in EXCHANGE ends with a record that fails: REFUSED (R132). -/
def State.linkRefused (s : State) (u : UnitNo) (e : RefusalReason) : State :=
  (s.modLink u fun l =>
    { l with state := .refused, collecting := none, refusal := some e, burstTimer := none }).raise .linkChange

/-- A pending record that passes becomes current (R135). -/
def State.pendingTaken (s : State) (u : UnitNo) (c : Capability) : State :=
  (s.modLink u fun l => { l with current := some c, collecting := none, refusal := none }).swapped u c

/-- A pending record that fails is discarded (R135). -/
def State.pendingRefused (s : State) (u : UnitNo) (e : RefusalReason) : State :=
  (s.modLink u fun l => { l with collecting := none, refusal := some e }).raise .linkChange

/-- The fifth page has been taken: the record is validated (R132, R135). -/
def State.completeRecord (s : State) (u : UnitNo) (ps : List Page) : State :=
  match (s.unit u).link.state, recordOf u ps with
  | .up, .ok c => s.pendingTaken u c
  | .up, .error e => s.pendingRefused u e
  | _, .ok c => s.linkUp u c
  | _, .error e => s.linkRefused u e

/-! ## Pages (R131, R134) -/

/-- The more flag that is right for a page number (R130). -/
def moreRight (p : Page) : Bool := p.more == if p.contents.number = 4 then 0 else 1

/-- PAGE 0 with a more flag of 1, which starts a collection. -/
def startsCollection (p : Page) : Bool := p.contents.number == 0 && p.more == 1

/-- PAGE_ACK goes out with the number and toggle of the page (R131). -/
def State.ackPage (s : State) (u : UnitNo) (p : Page) : State := s.emit u (.pageAck p.contents.number p.toggle)

/-- The page is taken after those collected (R131). -/
def State.takePage (s : State) (u : UnitNo) (p : Page) (collected : List Page) : State :=
  (s.modLink u fun l =>
    { l with collecting := some (collected ++ [p]), lastPage := some (p.contents.number, p.toggle) }).ackPage u p

/-- Whether a page is the one that follows the last page taken (Table 7-3, third row). -/
def followsLast (last : Option (Nat × Byte)) (p : Page) : Bool :=
  match last with
  | some (n, t) => p.contents.number == n + 1 && p.toggle != t && moreRight p
  | none => false

/-- A page out of sequence (Table 7-3, fourth row). While the link is UP the pending exchange is then no longer in progress, though the
table says that it waits for a page 0 (DESIGN CHOICE, log entry 56). -/
def State.outOfSequence (s : State) (u : UnitNo) : State :=
  (s.modLink u fun l => { l with collecting := none, lastPage := none }).frameError u

/-- A page judged by Table 7-3 while the link is EXCHANGE or UP. -/
def State.judgePage (s : State) (u : UnitNo) (p : Page) : State :=
  let l := (s.unit u).link
  if l.lastPage = some (p.contents.number, p.toggle) then s.ackPage u p
  else if startsCollection p then s.takePage u p []
  else if followsLast l.lastPage p then
    let ps := l.collecting.getD []
    let s := s.takePage u p ps
    if p.contents.number = 4 then s.completeRecord u (ps ++ [p]) else s
  else s.outOfSequence u

/-- The link enters EXCHANGE (R131). -/
def Link.enterExchange (l : Link) (window : Nat) : Link :=
  { l with
    state := .exchange
    collecting := none
    lastPage := none
    frameErrors := 0
    silenceCount := 0
    silent := false
    heard := true
    heardBefore := true
    burstTimer := some window }

/-- A page from a present unit's panel (R128, R129, R131). -/
def State.pageReceived (s : State) (u : UnitNo) (p : Page) : State :=
  if (s.unit u).link.state.supervised then (s.validFrame u).judgePage u p
  else if startsCollection p then
    (s.modLink u fun l => l.enterExchange s.supervision.burstWindow).judgePage u p
  else s

/-- A frame from the panel of a unit latched absent is discarded (R128). -/
def State.fromPresent (s : State) (u : UnitNo) (f : State → State) : State := if (s.unit u).present then f s else s

/-- PAGE_REPORT (R131). -/
def execPageReport (u : UnitNo) (p : Page) (s : State) : Host.Outcome State Fault Refusal :=
  .next (s.quiet.fromPresent u fun s => s.pageReceived u p)

/-! ## Acknowledgements (R137, R138) -/

/-- The toggle of a link as the byte an ACK carries. -/
def toggleByte (t : Bool) : Byte := if t then 1 else 0

/-- A matching ACK: the ack timer stops, the toggle flips, and the next directive goes (R137, R138). -/
def State.acknowledged (s : State) (u : UnitNo) : State :=
  (s.modLink u fun l => { l with outstanding := none, ackTimer := none, toggle := !l.toggle }).sendNext u

/-- An ACK judged by Table 7-5. -/
def State.judgeAck (s : State) (u : UnitNo) (kind toggle : Byte) : State :=
  let l := (s.unit u).link
  if toggle ≠ toggleByte l.toggle then s
  else match l.outstanding with
    | some d => if d.code = kind.toNat then s.acknowledged u else s.frameError u
    | none => s.frameError u

/-- An ACK from a present unit's panel: judged while UP, a valid frame and no more while EXCHANGE (R137). -/
def State.ackReceived (s : State) (u : UnitNo) (kind toggle : Byte) : State :=
  match (s.unit u).link.state with
  | .up => (s.validFrame u).judgeAck u kind toggle
  | .exchange => s.validFrame u
  | _ => s

/-- ACK_REPORT (R137). -/
def execAckReport (u : UnitNo) (kind toggle : Byte) (s : State) : Host.Outcome State Fault Refusal :=
  .next (s.quiet.fromPresent u fun s => s.ackReceived u kind toggle)

/-! ## STATE reports of an engaged unit (R84 to R87, R97) -/

/-- What a report means for the phase (Table 4-5). -/
inductive PhaseVerdict
  | advances | fits | moves | outOfPhase
  deriving DecidableEq, Repr

/-- The running state of a mode, one of them for every mode but CONDENSE_P, which SYNCED_P fits too (Table 4-5, log entry
13). -/
def isRunningState (m : Mode) (st : MachineState) : Bool :=
  match m with
  | .generate => st == .generating
  | .pump => st == .pumping
  | .condenseG => st == .condensingG
  | .condenseP => st == .condensingP || st == .syncedP

/-- A report that fits, or else is out of phase. -/
def fitsIf (p : Bool) : PhaseVerdict := if p then .fits else .outOfPhase

/-- The verdict in CONVERTER_RUN (Table 4-5); SYNCED_P too tells of a machine moving (log entry 12). -/
def verdictInRun (st : MachineState) : PhaseVerdict :=
  match st with
  | .syncedP => .advances
  | .spinupP => .moves
  | .standstill => .fits
  | .rundown => .fits
  | _ => .outOfPhase

/-- The verdict in COASTING (Table 4-5). -/
def verdictInCoasting (st : MachineState) : PhaseVerdict :=
  match st with
  | .standstill => .advances
  | .spinupP => .fits
  | .syncedP => .fits
  | .rundown => .fits
  | _ => .outOfPhase

/-- The verdict in RUNUP (Table 4-5). -/
def verdictInRunup (m : Mode) (st : MachineState) : PhaseVerdict :=
  match m with
  | .pump => if st = .pumping then .advances else fitsIf (st == .syncedP || st == .rundown)
  | _ =>
    if st = .runupG then .moves
    else if isRunningState m st then .advances
    else fitsIf (st == .standstill || st == .rundown)

/-- The verdict on a report of a REMOTE machine that is neither TRIPPED nor dropped (Table 4-5). -/
def phaseVerdict (l : Life) (m : Mode) (st : MachineState) : PhaseVerdict :=
  match l with
  | .starting .queuedConverter => fitsIf (st == .standstill)
  | .starting .pairHold => fitsIf (st == .standstill)
  | .starting .awaitingGate =>
    if m = .pump then fitsIf (st == .syncedP || st == .rundown) else fitsIf (st == .standstill)
  | .starting .converterRun => verdictInRun st
  | .starting .coasting => verdictInCoasting st
  | .starting .runup => verdictInRunup m st
  | .running => fitsIf (isRunningState m st || st == .rundown)
  | .stopping .rundown _ => if st = .standstill then .advances else .fits
  | .stopping _ _ => fitsIf (isRunningState m st || st == .rundown)
  | _ => .outOfPhase

/-- The phases in which the machine should be turning, so that a STANDSTILL is a dropped machine (R84). -/
def turning (l : Life) (m : Mode) (motion : Bool) : Bool :=
  match l with
  | .starting .converterRun => motion
  | .starting .runup => motion
  | .starting .awaitingGate => m == .pump
  | .running => true
  | .stopping .unloading _ => true
  | .stopping .awaitingGate _ => true
  | _ => false

/-- The motion mark of the unit is set (R63). -/
def State.markMotion (s : State) (u : UnitNo) : State := s.modUnit u fun b => { b with motion := true }

/-- SYNCED_P ends the converter run: the converter rests, a PUMP order waits for its water-up and a CONDENSE_P order is
RUNNING (R70, R97). -/
def State.synced (s : State) (h : Handle) (r : Order) : State :=
  let s := (s.markMotion r.unit).releaseConverter h
  if r.mode = .pump then (s.modOrder h fun r => { r with life := .starting .awaitingGate }).joinGate h r .start
  else s.completeStart h r

/-- STANDSTILL ends the coasting: a retry, or FAILED with cause CONVERTER (R72). -/
def State.coasted (s : State) (h : Handle) (r : Order) : Work :=
  if s.retry ∧ r.attempts < Config.maxAttempts then
    (((s.stopSupervision r.unit).modOrder h fun r => { r with life := .starting .queuedConverter }).joinStartQueue h r, [])
  else s.endOrder h (.failed .converter)

/-- A report that advances the phase is acted on (Table 4-5). -/
def State.advancePhase (s : State) (h : Handle) (r : Order) : Work :=
  match r.life with
  | .starting .converterRun => (s.synced h r, [])
  | .starting .coasting => s.coasted h r
  | .starting .runup => (s.completeStart h r, [])
  | .stopping .rundown c => s.endOrder h (.done c)
  | _ => (s, [])

/-- The Order Table judges a report of an ENGAGED unit (R84); the flag tells whether it is out of phase. -/
def State.judgeReport (s : State) (h : Handle) (r : Order) (p : Report) : Work × Bool :=
  if p.place = .locally then (s.endOrder h (.failed .localControl), false)
  else if p.state = .tripped then (s.endOrder h (.failed .trip), false)
  else if p.state = .standstill ∧ turning r.life r.mode (s.unit r.unit).motion then (s.endOrder h (.failed .dropped), false)
  else match phaseVerdict r.life r.mode p.state with
    | .advances => (s.advancePhase h r, false)
    | .fits => ((s, []), false)
    | .moves => ((s.markMotion r.unit, []), false)
    | .outOfPhase => ((s, []), true)

/-! ## STATE reports in other contexts (R147, R148) -/

/-- The context at which a report places a unit (Table 7-7). -/
def placing (p : Report) : Context :=
  if p.place = .locally then .locally else if p.state = .standstill then .idle else .orphan

/-- The context after a report in a context other than ENGAGED (Table 7-8). -/
def contextAfter (c : Context) (p : Report) : Context :=
  match c with
  | .idle => placing p
  | .orphan => placing p
  | .recovering => if p.place = .locally then .locally else if p.state = .standstill then .idle else .recovering
  | .locally => placing p
  | c => c

/-- The context is changed by a report; a unit that becomes IDLE has its DUE orders tested (R147, R148). -/
def State.reportContext (s : State) (u : UnitNo) (c : Context) : Work :=
  (s.setContext u c, if c = .idle ∧ (s.unit u).context ≠ .idle then [Task.engagement u] else [])

/-- A report is taken by the Order Table or by the context rules (R140); the flag tells whether it is out of phase. -/
def State.takeReport (s : State) (u : UnitNo) (p : Report) (first : Bool) : Work × Bool :=
  if first then (s.reportContext u (placing p), false)
  else if (s.unit u).context = .engaged then
    match s.engagedOrder u with
    | some (h, r) => s.judgeReport h r p
    | none => ((s, []), false)
  else (s.reportContext u (contextAfter (s.unit u).context p), false)

/-- Whether a report starts a trip: TRIPPED after a report of another state, or after none (R85). -/
def startsTrip (last : Option Report) (p : Report) : Bool :=
  p.state == .tripped && !(last.any fun q => q.state == .tripped)

/-- The report is stored as the last STATE report, received since UP (R140). -/
def State.storeReport (s : State) (u : UnitNo) (p : Report) : State :=
  s.modLink u fun l => { l with lastReport := some p, sinceUp := true }

/-- A STATE report while the link is UP (R140, log entry 10): the gate hears of a trip, the report is stored, taken by the
Order Table or the context rules, delivered to the Flow Calculator, its consequences carried through, and counted as a frame
error when it is out of phase. -/
def State.reportReceived (s : State) (u : UnitNo) (p : Report) : State :=
  let l := (s.unit u).link
  let s := s.validFrame u
  let s := if startsTrip l.lastReport p then s.tripGate (s.unit u).waterway else s
  let (work, error) := (s.storeReport u p).takeReport u p (!l.sinceUp)
  let s := (work.1.recompute u).settle work.2
  if error then s.frameError u else s

/-- A STATE report from a present unit's panel (R128, R129, R140). -/
def State.stateReceived (s : State) (u : UnitNo) (p : Report) : State :=
  match (s.unit u).link.state with
  | .up => s.reportReceived u p
  | .exchange => s.validFrame u
  | _ => s

/-- STATE_REPORT (R140). -/
def execStateReport (u : UnitNo) (r : Report) (s : State) : Host.Outcome State Fault Refusal :=
  .next (s.quiet.fromPresent u fun s => s.stateReceived u r)

/-- LINK_FRAME_BAD (R139). -/
def execLinkFrameBad (u : UnitNo) (s : State) : Host.Outcome State Fault Refusal :=
  .next (s.quiet.fromPresent u fun s => if (s.unit u).link.state.supervised then s.frameError u else s)

/-! ## Supervision on the mark (R128, R141 to R143) -/

/-- HELLO in DOWN and LOST, none for an absent unit (R128). -/
def State.helloDue (s : State) (u : UnitNo) : State :=
  if (s.unit u).present && ((s.unit u).link.state == .down || (s.unit u).link.state == .lost) then s.emit u .hello else s

/-- The ack timer expires: the link is lost (R143). -/
def State.ackExpired (s : State) (u : UnitNo) : State :=
  if (s.unit u).link.ackTimer = some 0 ∧ (s.unit u).link.state.supervised then s.loseLink u .lost else s

/-- The burst window timer expires: the frame error count is cleared and the timer started again (R141). -/
def State.burstExpired (s : State) (u : UnitNo) : State :=
  if (s.unit u).link.burstTimer = some 0 then
    s.modLink u fun l => { l with frameErrors := 0, burstTimer := some s.supervision.burstWindow }
  else s

/-- The silence look of a second mark (R142): at whether a valid frame had come between that mark and the one before it. A frame
that has come since the mark has ended the silence already (DEDUCED, log entry 43). -/
def State.silenceLook (s : State) (u : UnitNo) : State :=
  if (s.unit u).link.state.supervised then
    if (s.unit u).link.heardBefore then s.modLink u fun l => { l with silenceCount := 0, silent := false }
    else
      let s := s.modLink u fun l => { l with silenceCount := l.silenceCount + 1, silent := !l.heard }
      if s.supervision.silenceHold ≤ (s.unit u).link.silenceCount then s.loseLink u .lost else s
  else s

end Sys2Proof.Machine
end

