-- ==== Sys2Proof/Machine/Ramp.lean ====
section
/-! DEFINITION. The Ramp Controllers (Chapter 6): curtailment, the walk that shares the allowance, unloading, the excess
indications, and the ramp period. -/

namespace Sys2Proof.Machine

/-! ## The orders a Ramp Controller steps -/

/-- The RUNNING GENERATE order of a unit, with its handle and setpoint (R113, R116). -/
def State.rampOrder (s : State) (u : UnitNo) : Option (Handle × Order × Nat) :=
  match s.engagedOrder u, (s.unit u).setpoint with
  | some (h, r), some p => if r.life = .running ∧ r.mode = .generate then some (h, r, p) else none
  | _, _ => none

/-- The effective target of an order (R113). -/
def effectiveTarget (target : Nat) (ceiling : Option Nat) : Nat :=
  match ceiling with
  | some c => min target c
  | none => target

/-- The trial flow Q(p, live head) of a unit (R39). -/
def State.trialFlow (s : State) (u : UnitNo) (p : Nat) : Nat :=
  match (s.unit u).link.current with
  | some c => c.genFlow p (s.headFor u)
  | none => 0

/-- Whether that trial flow saturates (R32). -/
def State.trialSaturates (s : State) (u : UnitNo) (p : Nat) : Bool :=
  match (s.unit u).link.current with
  | some c => c.genSaturates p (s.headFor u)
  | none => false

/-- The flow change between two setpoints, as a magnitude. -/
def State.flowChange (s : State) (u : UnitNo) (lo hi : Nat) : Nat := s.trialFlow u hi - s.trialFlow u lo

/-- A setpoint held because the link is silent (R123). -/
def State.isHeld (s : State) (u : UnitNo) : Bool := (s.unit u).link.silent

/-! ## Curtailment (R119) -/

/-- The smallest step from `k` on, `n` candidates at most, whose flow reduction covers the excess, and the last candidate if
none does. -/
def smallestCovering (reduction : Nat → Nat) (excess : Int) : Nat → Nat → Nat
  | 0, k => k
  | n + 1, k => if excess ≤ reduction k then k else smallestCovering reduction excess n (k + 1)

/-- The curtailing step of an order at setpoint `p`: of 1 up to the ramp rate, none below Pmin, the smallest that covers the
excess, or the largest (R119). -/
def State.curtailStep (s : State) (u : UnitNo) (p ramp : Nat) (excess : Int) : Nat :=
  let most := min ramp (p - s.capTime u (·.pmin))
  smallestCovering (fun d => s.flowChange u (p - d) p) excess (most - 1) 1

/-- Whether a RUNNING GENERATE order at this setpoint can be lowered by curtailment now. -/
def State.canCurtail (s : State) (u : UnitNo) (p : Nat) : Bool := s.capTime u (·.pmin) < p && !s.isHeld u

/-- One unit in the curtail walk of a class, with the excess still remaining (R119). The trial at the present setpoint is the one
that saturates if any of the step's does (R32): no candidate lies above it. -/
def State.curtailUnit (cls : DispatchClass) (x : State × Int) (u : UnitNo) : State × Int :=
  let (s, excess) := x
  match s.rampOrder u with
  | some (h, r, p) =>
    if 0 < excess ∧ r.cls = cls ∧ s.canCurtail u p then
      let d := s.curtailStep u p r.ramp excess
      let s' := ((s.markSaturated u (s.trialSaturates u p)).commitSetpoint u (p - d)).modUnit u fun b =>
        { b with ceiling := some (p - d) }
      (s'.modOrder h fun r => { r with curtailed := true }, excess - s.flowChange u (p - d) p)
    else x
  | none => x

/-- Whether some RUNNING GENERATE order of the waterway could be lowered further; one held for silence counts (R121). -/
def State.couldLower (s : State) (w : WaterwayNo) : Bool :=
  (s.unitsOf w).any fun u =>
    match s.rampOrder u with
    | some (_, _, p) => s.isHeld u || s.capTime u (·.pmin) < p
    | none => false

/-- The excess unresolved indication is set, and INHIBIT_CHANGE raised when it was clear (R121). -/
def State.setUnresolved (s : State) (w : WaterwayNo) : State :=
  if (s.waterway w).excessUnresolved then s
  else (s.modWaterway w fun x => { x with excessUnresolved := true }).raise .inhibitChange

/-- Curtailment: FLEXIBLE orders first, then FIRM, the higher unit first within a class; an excess that no order could reduce
further is unresolved (R119, R121). -/
def State.curtail (s : State) (w : WaterwayNo) : State :=
  let excess : Int := (s.waterway w).netFlow - (s.waterway w).qgLim
  let us := (s.unitsOf w).reverse
  let x := us.foldl (State.curtailUnit .firm) (us.foldl (State.curtailUnit .flexible) (s, excess))
  if 0 < x.2 ∧ ¬ x.1.couldLower w then x.1.setUnresolved w else x.1

/-- Whether the engaged order of a unit is in STOPPING in UNLOADING. -/
def State.isUnloading (s : State) (u : UnitNo) : Bool :=
  (s.engagedOrder u).any fun p => p.2.life.isUnloading

/-- The ceiling of an order is removed; that of an unloading order stays as it stood (R120, R122, DEDUCED, log entry 45). -/
def State.removeCeiling (s : State) (u : UnitNo) : State :=
  if s.isUnloading u then s else s.modUnit u fun b => { b with ceiling := none }

/-- The ceilings of the orders of the waterway are removed, but for those of its unloading orders, and excess unresolved is
cleared (R120 to R122). -/
def State.removeCeilings (s : State) (w : WaterwayNo) : State :=
  ((s.unitsOf w).foldl State.removeCeiling s).modWaterway w fun x => { x with excessUnresolved := false }

/-! ## The normal walk (R116 to R118) -/

/-- The units of a waterway from the start unit on, in circular order: the first at or after the pointer comes first (R116). -/
def rotation (us : List UnitNo) (pointer : UnitNo) : List UnitNo :=
  (us.filter fun u => pointer ≤ u) ++ us.filter fun u => u < pointer

/-- The pointer after a walk: the next unit of the waterway after the start unit (R116). That of a waterway with no unit stays as it
stands (DESIGN CHOICE, log entry 51). -/
def nextPointer (us : List UnitNo) (pointer : UnitNo) : UnitNo :=
  match rotation us pointer with
  | _ :: v :: _ => v
  | [u] => u
  | [] => pointer

/-- The largest step from `d` downward that is allowed; 0 when none is (R117). -/
def largestStep (allowed : Nat → Bool) : Nat → Nat
  | 0 => 0
  | d + 1 => if allowed (d + 1) then d + 1 else largestStep allowed d

/-- An upward step of a unit, and the allowance that remains (R117). -/
def State.stepUp (s : State) (u : UnitNo) (p d allowance : Nat) : State × Nat :=
  let x := s.waterway (s.unit u).waterway
  let fits := fun k =>
    let f := s.flowChange u p (p + k)
    decide (f ≤ allowance) && decide (x.netFlow + f ≤ x.qgLim)
  let k := largestStep fits d
  let s' := s.markSaturated u (s.trialSaturates u (p + d))
  (if k = 0 then s' else s'.commitSetpoint u (p + k), allowance - s.flowChange u p (p + k))

/-- A downward step of a unit, and the allowance that remains (R118). -/
def State.stepDown (s : State) (u : UnitNo) (p d allowance : Nat) : State × Nat :=
  let k := largestStep (fun k => decide (s.flowChange u (p - k) p ≤ allowance)) d
  let s' := s.markSaturated u (s.trialSaturates u p)
  (if k = 0 then s' else s'.commitSetpoint u (p - k), allowance - s.flowChange u (p - k) p)

/-- The setpoint the walk steps an order toward: its effective target, where a ceiling that a raised Pmin has left below it counts
as that Pmin, so that no step leaves the range of R114 (R113, R114, R118, DEDUCED, log entry 44). -/
def State.rampGoal (s : State) (u : UnitNo) (target : Nat) : Nat :=
  effectiveTarget target ((s.unit u).ceiling.map (max (s.capTime u (·.pmin))))

/-- One unit visited by the walk: its order's wanted step is taken toward its goal, unless it is held for silence (R116, R123). -/
def State.visit (x : State × Nat) (u : UnitNo) : State × Nat :=
  let (s, allowance) := x
  match s.rampOrder u with
  | some (_, r, p) =>
    let goal := s.rampGoal u r.target
    if s.isHeld u || goal = p then x
    else if p < goal then s.stepUp u p (min r.ramp (goal - p)) allowance
    else s.stepDown u p (min r.ramp (p - goal)) allowance
  | none => x

/-- The normal walk with the full allowance, after which the pointer moves (R116). -/
def State.walk (s : State) (w : WaterwayNo) : State :=
  let us := s.unitsOf w
  let pointer := (s.waterway w).pointer
  let x := (rotation us pointer).foldl State.visit (s, (s.waterway w).allowance)
  x.1.modWaterway w fun x => { x with pointer := nextPointer us pointer }

/-! ## Unloading (R122, R123) -/

/-- The unloading step of a unit: lowered by the ramp rate or to Pmin, and at or below Pmin the order leaves UNLOADING (R76,
R122). A unit held for silence takes no step. -/
def State.unloadUnit (s : State) (u : UnitNo) : State :=
  match s.engagedOrder u, (s.unit u).setpoint with
  | some (h, r), some p =>
    match r.life with
    | .stopping .unloading c =>
      let pmin := s.capTime u (·.pmin)
      let s := if s.isHeld u || p ≤ pmin then s else s.commitSetpoint u (max pmin (p - r.ramp))
      if s.atPmin u then s.awaitStopGate h r c else s
    | _ => s
  | _, _ => s

/-- The pump excess indication is re-judged (R121). -/
def State.judgePumpExcess (s : State) (w : WaterwayNo) : State :=
  let x := s.waterway w
  let now := x.netFlow < -(x.qpLim : Int)
  let s' := s.modWaterway w fun x => { x with pumpExcess := now }
  if now ∧ ¬ x.pumpExcess then s'.raise .inhibitChange else s'

/-- The unloading orders of a waterway take their steps, in a free order: R122 gives them none, and where two of them join the gate
R107 lets either be first (DESIGN CHOICE, log entry 50). -/
def State.unload (s : State) (w : WaterwayNo) : State :=
  let (us, s) := s.inFreeOrder ((s.unitsOf w).filter s.isUnloading)
  us.foldl State.unloadUnit s

/-- The expiry of a ramp period: its five steps in order (R115). -/
def State.rampPeriod (s : State) (w : WaterwayNo) : State :=
  let s := if ((s.waterway w).qgLim : Int) < (s.waterway w).netFlow then s.curtail w else s.removeCeilings w
  ((s.walk w).unload w).judgePumpExcess w

end Sys2Proof.Machine
end

