-- ==== Sys2Proof/Machine/Units.lean ====
section
/-! DEFINITION. Requests on units and links (R89, R90, R145, R146, R150), the expiry of a supervision timer (R74), and
WATERWAY_STATUS (R125). -/

namespace Sys2Proof.Machine

/-! ## The supervision timer (R74) -/

/-- The supervision timer of a unit expires: START_TIMEOUT in RUNUP, STOP_TIMEOUT in COASTING and RUNDOWN (R74). -/
def State.supervisionExpired (s : State) (u : UnitNo) : State :=
  if (s.unit u).supervision = some 0 then
    match s.engagedOrder u with
    | some (h, r) =>
      match r.life with
      | .starting .runup => ((s.ask u .abortStart).endOrder h (.failed .startTimeout)).finish
      | .starting .coasting => (s.endOrder h (.failed .stopTimeout)).finish
      | .stopping .rundown _ => (s.endOrder h (.failed .stopTimeout)).finish
      | _ => s.stopSupervision u
    | none => s.stopSupervision u
  else s

/-! ## ISOLATE, RESTORE, HALT_UNIT (R89, R90) -/

/-- ISOLATE of a unit: BUSY while it is ENGAGED or RECOVERING; otherwise the flag is set and its DUE orders fail (R90). -/
def State.isolateUnit (s : State) (u : UnitNo) : Answer :=
  if (s.unit u).context = .engaged ∨ (s.unit u).context = .recovering then .refused .busy
  else .ok ((s.modUnit u fun b => { b with isolated := true }).engagementTest u).finish []

/-- ISOLATE (R90). -/
def execIsolate (tag : Byte) (body : List Byte) (s : State) : Host.Outcome State Fault Refusal :=
  .next (s.request 8 onlyDispatch 1 tag body fun s => withField (unitOf (byteAt body 0)) s.isolateUnit)

/-- RESTORE of a unit (R90). -/
def State.restoreUnit (s : State) (u : UnitNo) : Answer := .ok (s.modUnit u fun b => { b with isolated := false }) []

/-- RESTORE (R90). -/
def execRestore (tag : Byte) (body : List Byte) (s : State) : Host.Outcome State Fault Refusal :=
  .next (s.request 9 onlyDispatch 1 tag body fun s => withField (unitOf (byteAt body 0)) s.restoreUnit)

/-- The gate of the unit's waterway is told of a halt (R89, R111). -/
def State.tellHalt (s : State) (u : UnitNo) : State := s.tripGate (s.unit u).waterway

/-- An engaged unit is halted: its order fails with cause HALTED, or is freed, and TO_STANDSTILL is asked for (R89). -/
def State.haltEngaged (s : State) (u : UnitNo) : State :=
  match s.engagedOrder u with
  | some (h, _) =>
    let w := (s.tellHalt u).endOrder h (.failed .halted)
    (w.1.ask u .toStandstill).settle w.2
  | none => s

/-- HALT_UNIT by the unit's context (R89). -/
def State.halt (s : State) (u : UnitNo) : Answer :=
  match (s.unit u).context with
  | .engaged => .ok (s.haltEngaged u) []
  | .orphan => .ok (((s.tellHalt u).ask u .toStandstill).setContext u .recovering) []
  | .recovering => .ok ((s.tellHalt u).ask u .toStandstill) []
  | .idle => .ok s []
  | .absent => .refused .unitUnavailable
  | .dark => .refused .unitUnavailable
  | .locally => .refused .unitUnavailable

/-- HALT_UNIT (R89). -/
def execHaltUnit (tag : Byte) (body : List Byte) (s : State) : Host.Outcome State Fault Refusal :=
  .next (s.request 10 anyMode 1 tag body fun s => withField (unitOf (byteAt body 0)) s.halt)

/-! ## RELINK and LINK_STATUS (R145, R146) -/

/-- RELINK of a unit (R145). -/
def State.relinkUnit (s : State) (u : UnitNo) : Answer :=
  if !(s.unit u).present then .refused .unitUnavailable
  else match (s.unit u).link.state with
    | .exchange => .ok (s.loseLink u .down) []
    | .up => .ok (s.loseLink u .down) []
    | .down => .ok s []
    | .refused => .ok ((s.modLink u fun l => { l with state := .down }).raise .linkChange) []
    | .lost => .ok ((s.modLink u fun l => { l with state := .down }).raise .linkChange) []

/-- RELINK (R145). -/
def execRelink (tag : Byte) (body : List Byte) (s : State) : Host.Outcome State Fault Refusal :=
  .next (s.request 16 anyMode 1 tag body fun s => withField (unitOf (byteAt body 0)) s.relinkUnit)

/-- Whether a pending exchange is in progress: pages are collected while the link is UP (R134, log entry 15). One whose pages a page out
of sequence discarded is not, until the next page 0 (DESIGN CHOICE, log entry 56). -/
def Link.pendingExchange (l : Link) : Bool := l.state == .up && l.collecting.isSome

/-- The number of pages collected into a pending exchange. -/
def Link.pendingPages (l : Link) : Nat := if l.pendingExchange then (l.collecting.map List.length).getD 0 else 0

/-- The body of LINK_STATUS (R146, Table 12-8). -/
def Link.statusBody (l : Link) : List Byte :=
  beBytes 1 l.state.code ++
    beBytes 1 (bitsOf [l.lostLatch, l.silent, l.pendingExchange, l.current.isSome, l.refusal.isSome, l.burstTimer.isSome,
      l.outstanding.isSome, l.held.isSome]) ++
    optBytes 1 (l.refusal.map RefusalReason.code) ++ beBytes 1 l.frameErrors ++ optBytes 2 l.burstTimer ++
    beBytes 1 l.silenceCount ++ boolByte l.toggle ++ optBytes 1 (l.outstanding.map Directive.code) ++
    optBytes 2 l.ackTimer ++ optBytes 1 (l.held.map Directive.code) ++ beBytes 1 l.pendingPages

/-- LINK_STATUS of a unit; the latched lost indicator is cleared once reported (R146). -/
def State.linkStatus (s : State) (u : UnitNo) : Answer :=
  .ok (s.modLink u fun l => { l with lostLatch := false }) (s.unit u).link.statusBody

/-- LINK_STATUS (R146). -/
def execLinkStatus (tag : Byte) (body : List Byte) (s : State) : Host.Outcome State Fault Refusal :=
  .next (s.request 15 anyMode 1 tag body fun s => withField (unitOf (byteAt body 0)) s.linkStatus)

/-! ## UNIT_STATUS (R150, Table 12-8) -/

/-- The last STATE report in UNIT_STATUS. -/
def Link.reportBytes (l : Link) : List Byte :=
  beBytes 1 (bitsOf [l.lastReport.isSome, l.lastReport.isSome && l.sinceUp]) ++
    match l.lastReport with
    | some r => beBytes 1 (MachineState.code r.state) ++ beSigned 2 r.power ++ beBytes 1 (ControlPlace.code r.place)
    | none => beBytes 4 0

/-- The pump table of a record, or zeros. -/
def pumpBytes : Option PumpTable → List Byte
  | some t => (List.finRange 8).flatMap fun i => beBytes 4 t.head[i] ++ beBytes 2 t.flow[i] ++ beBytes 2 t.power[i]
  | none => beBytes 64 0

/-- The figures and tables of a capability record, or zeros. -/
def capabilityBytes : Option Capability → List Byte
  | some c =>
    beBytes 1 c.modes.toNat ++ beBytes 4 c.href ++ beBytes 2 c.pmin ++ beBytes 2 c.pmax ++ beBytes 2 c.genStart ++
      beBytes 2 c.pumpStart ++ beBytes 2 c.genStop ++ beBytes 2 c.pumpStop ++ beBytes 2 c.dwell ++
      ((List.finRange 8).flatMap fun i => beBytes 2 c.powers[i] ++ beBytes 2 c.flows[i]) ++ pumpBytes c.pump
  | none => beBytes 115 0

/-- The flow items of UNIT_STATUS: contribution, its flags, and Qp and Pp at the live head where the record offers a
pump-direction mode (R27, R150). -/
def State.flowBytes (s : State) (u : UnitNo) : List Byte :=
  let b := s.unit u
  let pump := b.link.current.bind (·.pump)
  let head := s.headFor u
  beSigned 2 b.contribution ++
    beBytes 1 (bitsOf [b.context == .dark, b.saturated, b.headOutside, pump.isSome]) ++
    optBytes 2 (pump.map fun t => t.pumpFlow head) ++ optBytes 2 (pump.map fun t => t.pumpPower head)

/-- The order items of UNIT_STATUS (R150). -/
def State.orderBytes (s : State) (u : UnitNo) : List Byte :=
  let b := s.unit u
  let order := s.engagedOrder u
  let phase := order.bind fun p => p.2.life.phaseCode
  let generates := order.any fun p => p.2.mode == .generate
  let setpoint := if generates then b.setpoint else none
  let pendingSetpoint := if generates then b.pendingSetpoint else none
  beBytes 1 (bitsOf [order.isSome, phase.isSome, b.supervision.isSome, setpoint.isSome, pendingSetpoint.isSome,
      generates && s.isHeld u]) ++
    optBytes 2 (order.map (·.1)) ++ optBytes 1 phase ++ optBytes 2 b.supervision ++ optBytes 2 setpoint ++
    optBytes 2 pendingSetpoint

def State.unitBody (s : State) (u : UnitNo) : List Byte :=
  let b := s.unit u
  beBytes 1 b.context.code ++ boolByte b.isolated ++ beBytes 1 b.waterway ++ beBytes 1 b.eligible.toNat ++
    beBytes 1 b.link.state.code ++ b.link.reportBytes ++
    beBytes 1 (bitsOf [b.link.current.isSome, b.link.pendingExchange, (b.link.current.bind (·.pump)).isSome]) ++
    capabilityBytes b.link.current ++ s.flowBytes u ++ s.orderBytes u

/-- UNIT_STATUS (R150). -/
def execUnitStatus (tag : Byte) (body : List Byte) (s : State) : Host.Outcome State Fault Refusal :=
  .next (s.request 14 anyMode 1 tag body fun s => withField (unitOf (byteAt body 0)) fun u => .ok s (s.unitBody u))

/-! ## WATERWAY_STATUS (R125, Table 12-8) -/

/-- An entry of the transient queue as reported. -/
def GateEntry.statusBytes (e : GateEntry) : List Byte := beBytes 1 e.kind.code ++ beBytes 2 e.handle

/-- The GENERATE order of a unit that its Ramp Controller holds, with its setpoint (R113). -/
def State.heldOrder (s : State) (u : UnitNo) : Option (Handle × Order × Nat) :=
  match s.engagedOrder u, (s.unit u).setpoint with
  | some (h, r), some p => if r.mode = .generate then some (h, r, p) else none
  | _, _ => none

/-- An order held by the Ramp Controller as reported. -/
def State.rampBytes (s : State) (u : UnitNo) (x : Handle × Order × Nat) : List Byte :=
  let (h, r, p) := x
  let b := s.unit u
  beBytes 2 h ++ beBytes 1 u ++ beBytes 2 p ++ beBytes 2 (effectiveTarget r.target b.ceiling) ++ optBytes 2 b.ceiling ++
    optBytes 2 b.pendingSetpoint ++
    beBytes 1 (bitsOf [b.ceiling.isSome, r.curtailed, s.isHeld u, b.pendingSetpoint.isSome])

def State.waterwayBody (s : State) (w : WaterwayNo) : List Byte :=
  let x := s.waterway w
  let held := (s.unitsOf w).filterMap fun u => (s.heldOrder u).map fun o => (u, o)
  boolByte x.configured ++ beBytes 4 x.hAdm ++ beBytes 2 x.qgLim ++ beBytes 2 x.qpLim ++ beBytes 2 x.allowance ++
    beBytes 2 x.spacingTime ++ beBytes 4 x.liveHead ++ boolByte x.headLow ++ beSigned 4 x.netFlow ++
    beSigned 4 (s.plan w s.plantTime) ++
    beBytes 1 (bitsOf [x.pumpInhibit, x.genInhibit, x.excessUnresolved, x.pumpExcess, x.spacing.isSome]) ++
    beBytes 1 (if x.spacing.isSome then 1 else 0) ++ optBytes 2 x.spacing ++ beBytes 1 x.queue.length ++
    x.queue.flatMap GateEntry.statusBytes ++ beBytes 1 x.pointer ++ beBytes 1 held.length ++
    held.flatMap fun p => s.rampBytes p.1 p.2

/-- WATERWAY_STATUS (R125). -/
def execWaterwayStatus (tag : Byte) (body : List Byte) (s : State) : Host.Outcome State Fault Refusal :=
  .next (s.request 13 anyMode 1 tag body fun s =>
    withField (waterwayOf (byteAt body 0)) fun w => .ok s (s.waterwayBody w))

end Sys2Proof.Machine
end

