-- ==== Sys2Proof/Machine/Clock.lean ====
section
/-! DEFINITION. The Plant Clock (Chapter 9): second marks, arrivals, the expiries and works a mark brings, and the requests on
the clock. -/

namespace Sys2Proof.Machine

/-! ## What is due (R165 to R167, log entries 1 and 2) -/

/-- Whether the record's start, end or lateness time is the present plant time. -/
def State.isNow (s : State) (h : Handle) (at_ : Order → Option Nat) : Bool :=
  (s.order? h).any fun r => at_ r == some s.plantTime

/-- The lateness time of an order (4.1). -/
def Order.latenessTime (r : Order) : Option Nat := r.tolerance.map (r.start + ·)

/-- An arrival is acted on in DISPATCH alone, and at its own instant (R23, R166). -/
def State.arrives (s : State) (h : Handle) (at_ : Order → Option Nat) : Bool := s.mode == .dispatch && s.isNow h at_

/-- The effect of what is due: an arrival at its instant, the expiry of a timer that stands at its last mark, or the work of
a mark (R64, R67, R68, R74, R99, R100, R110, R115, R128, R141 to R143, R155). -/
def DueEvent.effect (e : DueEvent) (s : State) : State :=
  match e with
  | .startArrival h => if s.arrives h fun r => some r.start then (s.startArrival h).finish else s
  | .endArrival h => if s.arrives h (·.finish) then (s.endArrival h).finish else s
  | .latenessArrival h => if s.arrives h Order.latenessTime then (s.latenessTest h).finish else s
  | .supervision u => s.supervisionExpired u
  | .run c => s.runTimedOut c
  | .coolDown c => s.cooledDown c
  | .spacing w => if (s.waterway w).spacing = some 0 then s.spacingExpired w else s
  | .ramp w => s.rampPeriod w
  | .hello u => s.helloDue u
  | .ack u => s.ackExpired u
  | .burst u => s.burstExpired u
  | .linkSilence u => s.silenceLook u
  | .gaugeSilence g => s.gaugeSilence g

/-- What is due is taken, once; what is not due has no effect. -/
def State.takeDue (s : State) (e : DueEvent) : State :=
  if s.due.contains e then e.effect { s with due := s.due.erase e } else s

/-- Everything in a list is taken, each next one by a free pick; `n` is its length. -/
def takeAll : Nat → List DueEvent → State → State
  | 0, _, s => s
  | n + 1, es, s =>
    let (k, s) := s.pick es.length
    match es[k]? with
    | some e => takeAll n (es.eraseIdx k) (e.effect s)
    | none => s

/-- Whether a due event is an arrival of plant time. -/
def DueEvent.isArrival : DueEvent → Bool
  | .startArrival _ => true
  | .endArrival _ => true
  | .latenessArrival _ => true
  | _ => false

/-- The due events that satisfy a condition are all taken, in a free order. -/
def State.takeThose (s : State) (p : DueEvent → Bool) : State :=
  takeAll (s.due.filter p).length (s.due.filter p) { s with due := s.due.filter fun e => !p e }

/-- The arrivals of the present plant time, for each record in the table (R166). -/
def State.arrivals (s : State) : List DueEvent :=
  s.orders.flatMap fun p =>
    (if p.2.start = s.plantTime then [DueEvent.startArrival p.1] else []) ++
      (if p.2.finish = some s.plantTime then [DueEvent.endArrival p.1] else []) ++
      (if p.2.latenessTime = some s.plantTime then [DueEvent.latenessArrival p.1] else [])

/-! ## The timers count (R167) -/

/-- A converter's timer counts one mark (R91). -/
def ConverterState.countDown : ConverterState → ConverterState
  | .running h u n => .running h u (n - 1)
  | .cooling n => .cooling (n - 1)
  | c => c

/-- A link counts one mark: its timers, and what was heard up to the mark is kept for the silence look (R141 to R143). -/
def Link.count (l : Link) : Link :=
  { l with
    ackTimer := countDown l.ackTimer
    burstTimer := countDown l.burstTimer
    heardBefore := l.heard
    heard := false }

/-- A unit's timers count one mark (R74, R141, R143). -/
def UnitBlock.count (b : UnitBlock) : UnitBlock :=
  { b with supervision := countDown b.supervision, link := b.link.count }

/-- Every timer counts one mark (R167). -/
def State.countMark (s : State) : State :=
  { s with
    units := mapVector UnitBlock.count s.units
    converters := mapVector (fun x => { x with state := x.state.countDown }) s.converters
    waterways := mapVector (fun x => { x with spacing := countDown x.spacing }) s.waterways }

/-- An event is due when its condition holds. -/
def dueIf (p : Bool) (e : DueEvent) : List DueEvent := if p then [e] else []

/-- What the mark brings to a unit: expiries of its timers, HELLO or the silence look by the state of its link (R128, R142). -/
def State.unitDue (s : State) (u : UnitNo) : List DueEvent :=
  let b := s.unit u
  dueIf (b.supervision == some 0) (.supervision u) ++ dueIf (b.link.ackTimer == some 0) (.ack u) ++
    dueIf (b.link.burstTimer == some 0) (.burst u) ++
    dueIf (b.present && (b.link.state == .down || b.link.state == .lost)) (.hello u) ++
    dueIf b.link.state.supervised (.linkSilence u)

/-- What the mark brings to a converter (R99, R100). -/
def State.converterDue (s : State) (c : ConverterNo) : List DueEvent :=
  match (s.converter c).state with
  | .running _ _ 0 => [.run c]
  | .cooling 0 => [.coolDown c]
  | _ => []

/-- What the mark brings to a waterway: the expiry of the spacing timer, and of the ramp period (R110, R115). -/
def State.waterwayDue (s : State) (w : WaterwayNo) : List DueEvent :=
  dueIf ((s.waterway w).spacing == some 0) (.spacing w) ++ [.ramp w]

/-- What a mark brings to the blocks. -/
def State.markDue (s : State) : List DueEvent :=
  allUnits.flatMap s.unitDue ++ allConverters.flatMap s.converterDue ++ allWaterways.flatMap s.waterwayDue ++
    allGauges.map DueEvent.gaugeSilence

/-- Plant time advances, absorbs a trim, or holds; the arrivals of a new value are due (R165). -/
def State.advance (s : State) : State × List DueEvent :=
  if 0 < s.pendingTrim then ({ s with pendingTrim := s.pendingTrim - 1 }, [])
  else if s.plantTime < plantTimeMax then
    ({ s with plantTime := s.plantTime + 1 }, { s with plantTime := s.plantTime + 1 }.arrivals)
  else (s, [])

/-- A second mark: what the last one left due is taken, every timer counts, plant time advances, and what this mark brings is
due (R165, R167, log entry 2). -/
def State.secondMark (s : State) : State :=
  let s := (s.takeThose fun _ => true).countMark
  let (s, arrivals) := s.advance
  { s with due := arrivals ++ s.markDue }

/-- SECOND_MARK (R165). -/
def execSecondMark (s : State) : Host.Outcome State Fault Refusal := .next s.quiet.secondMark

/-! ## The events of a mark as commands -/

/-- START_ARRIVAL (R64). -/
def execStartArrival (h : Handle) (s : State) : Host.Outcome State Fault Refusal :=
  .next (s.quiet.takeDue (.startArrival h))

/-- END_ARRIVAL (R68). -/
def execEndArrival (h : Handle) (s : State) : Host.Outcome State Fault Refusal := .next (s.quiet.takeDue (.endArrival h))

/-- LATENESS_ARRIVAL (R67). -/
def execLatenessArrival (h : Handle) (s : State) : Host.Outcome State Fault Refusal :=
  .next (s.quiet.takeDue (.latenessArrival h))

/-- SUPERVISION_TIMER_EXPIRY (R74). -/
def execSupervisionTimerExpiry (u : UnitNo) (s : State) : Host.Outcome State Fault Refusal :=
  .next (s.quiet.takeDue (.supervision u))

/-- RUN_TIMER_EXPIRY (R100). -/
def execRunTimerExpiry (c : ConverterNo) (s : State) : Host.Outcome State Fault Refusal := .next (s.quiet.takeDue (.run c))

/-- COOL_DOWN_EXPIRY (R99). -/
def execCoolDownExpiry (c : ConverterNo) (s : State) : Host.Outcome State Fault Refusal :=
  .next (s.quiet.takeDue (.coolDown c))

/-- SPACING_TIMER_EXPIRY (R110). -/
def execSpacingTimerExpiry (w : WaterwayNo) (s : State) : Host.Outcome State Fault Refusal :=
  .next (s.quiet.takeDue (.spacing w))

/-- RAMP_PERIOD_EXPIRY (R115). -/
def execRampPeriodExpiry (w : WaterwayNo) (s : State) : Host.Outcome State Fault Refusal :=
  .next (s.quiet.takeDue (.ramp w))

/-- HELLO_INTERVAL (R128). -/
def execHelloInterval (u : UnitNo) (s : State) : Host.Outcome State Fault Refusal := .next (s.quiet.takeDue (.hello u))

/-- ACK_TIMER_EXPIRY (R143). -/
def execAckTimerExpiry (u : UnitNo) (s : State) : Host.Outcome State Fault Refusal := .next (s.quiet.takeDue (.ack u))

/-- BURST_WINDOW_EXPIRY (R141). -/
def execBurstWindowExpiry (u : UnitNo) (s : State) : Host.Outcome State Fault Refusal := .next (s.quiet.takeDue (.burst u))

/-- LINK_SILENCE_COUNT (R142). -/
def execLinkSilenceCount (u : UnitNo) (s : State) : Host.Outcome State Fault Refusal :=
  .next (s.quiet.takeDue (.linkSilence u))

/-- GAUGE_SILENCE_COUNT (R155). -/
def execGaugeSilenceCount (g : GaugeNo) (s : State) : Host.Outcome State Fault Refusal :=
  .next (s.quiet.takeDue (.gaugeSilence g))

/-! ## Requests on the clock (R168 to R170) -/

/-- READ_CLOCK (R170). -/
def execReadClock (tag : Byte) (body : List Byte) (s : State) : Host.Outcome State Fault Refusal :=
  .next (s.request 18 anyMode 0 tag body fun s => .ok s (beBytes 4 s.plantTime ++ beBytes 1 s.pendingTrim))

/-- A HELD record examined against the present plant time: LATE when its end or its lateness time has come, else its start
arrival when its start has (R23, R169). -/
def State.examine (s : State) (k : SlotNo) : State :=
  match (s.slot k).order with
  | none => s
  | some r =>
    let h := handleOf k (s.slot k).generation
    if r.life = .held then
      if endReached r.finish s.plantTime || latenessReached r.start r.tolerance s.plantTime then
        (s.endOrder h (.failed .late)).finish
      else if r.start ≤ s.plantTime then (s.startArrival h).finish
      else s
    else s

/-- The HELD records are examined in increasing slot order (R23, R169). -/
def State.examineHeld (s : State) : State := allSlots.foldl State.examine s

/-- Whether an order of the table is DUE or engaged. -/
def State.dispatching (s : State) : Bool := s.orders.any fun p => p.2.life == .due || p.2.life.engaged

/-- SET_TIME to a value (R169). -/
def State.setPlantTime (s : State) (v : Nat) : Answer :=
  if s.dispatching then .refused .busy
  else
    let s := { s with plantTime := v, pendingTrim := 0, due := s.due.filter fun e => !e.isArrival }
    .ok (if s.mode = .dispatch then s.examineHeld else s) []

/-- SET_TIME (R169). -/
def execSetTime (tag : Byte) (body : List Byte) (s : State) : Host.Outcome State Fault Refusal :=
  .next (s.request 19 anyMode 4 tag body fun s => s.setPlantTime (field body 0 4))

/-- A forward trim of `n` seconds: each new value of plant time delivers its arrivals; none beyond the last value (R168). -/
def trimForward : Nat → State → State
  | 0, s => s
  | n + 1, s =>
    if s.plantTime < plantTimeMax then
      let s := { s with plantTime := s.plantTime + 1 }
      trimForward n (takeAll s.arrivals.length s.arrivals s)
    else s

/-- TRIM_CLOCK by a number of seconds (R168). Arrivals of the present value still due are taken before plant time moves (R166). -/
def State.trim (s : State) (v : Int) : Answer :=
  if v < -2 ∨ 2 < v then .refused .badField
  else if 0 < v then .ok (trimForward v.toNat ({ s with pendingTrim := 0 }.takeThose DueEvent.isArrival)) []
  else .ok { s with pendingTrim := (-v).toNat } []

/-- TRIM_CLOCK (R168). -/
def execTrimClock (tag : Byte) (body : List Byte) (s : State) : Host.Outcome State Fault Refusal :=
  .next (s.request 20 anyMode 1 tag body fun s => s.trim (signedByte (byteAt body 0)))

end Sys2Proof.Machine
end

