-- ==== Sys2Proof/Machine/Configuration.lean ====
section
/-! DEFINITION. The Configuration Store (11.1 to 11.3): the five configuration requests, START_DISPATCH and STOP_DISPATCH. -/

namespace Sys2Proof.Machine

/-! ## CONFIGURE_WATERWAY (R184, R185, R62) -/

/-- The settings of a waterway as the request writes them (R184). -/
def Waterway.write (x : Waterway) (c : WaterwaySettings) : Waterway :=
  { x with
    configured := true
    hAdm := c.hAdm
    qgLim := c.qgLim
    qpLim := c.qpLim
    allowance := c.allowance
    spacingTime := c.spacingTime
    upper := c.upper
    lower := c.lower }

/-- The settings of a waterway as the response echoes them (Table 12-7). -/
def State.waterwayEcho (s : State) (w : WaterwayNo) : List Byte :=
  let x := s.waterway w
  beBytes 1 w ++ beBytes 4 x.hAdm ++ beBytes 2 x.qgLim ++ beBytes 2 x.qpLim ++ beBytes 2 x.allowance ++
    beBytes 2 x.spacingTime ++ beBytes 1 x.upper ++ beBytes 1 x.lower

/-- The effects of new settings: the live head at a change of H_adm or of a gauge, the inhibits at a change of a gauge
(R185). -/
def State.waterwayWritten (s : State) (w : WaterwayNo) (old : Waterway) : State :=
  let x := s.waterway w
  let moved := x.upper != old.upper || x.lower != old.lower
  let s := if moved || x.hAdm != old.hAdm then s.updateHead w else s
  if moved then s.evaluateInhibits w else s

/-- CONFIGURE_WATERWAY after the range checks (R184). -/
def State.configureWaterway (s : State) (c : WaterwayNo × WaterwaySettings) : Answer :=
  let old := s.waterway c.1
  let s' := s.modWaterway c.1 fun x => x.write c.2
  if (c.2.qgLim ≠ old.qgLim ∨ c.2.qpLim ≠ old.qpLim) ∧ ¬ s'.planKeeps c.1 then .refused .badConfig
  else .ok (s'.waterwayWritten c.1 old) ((s'.waterwayWritten c.1 old).waterwayEcho c.1)

/-- CONFIGURE_WATERWAY (R184). -/
def execConfigureWaterway (tag : Byte) (body : List Byte) (s : State) : Host.Outcome State Fault Refusal :=
  .next (s.request 24 onlyConfig 15 tag body fun s => withField (waterwaySettingsOf body) s.configureWaterway)

/-! ## CONFIGURE_GAUGE (R184, R185, R157) -/

/-- The settings of a gauge as the request writes them. -/
def Gauge.write (x : Gauge) (c : GaugeSettings) : Gauge :=
  { x with
    highLimit := c.highLimit
    lowLimit := c.lowLimit
    hysteresis := c.hysteresis
    jumpLimit := c.jumpLimit
    silenceLimit := c.silenceLimit }

/-- The settings of a gauge as the response echoes them. -/
def State.gaugeEcho (s : State) (g : GaugeNo) : List Byte :=
  let x := s.gauge g
  beBytes 1 g ++ beBytes 4 x.highLimit ++ beBytes 4 x.lowLimit ++ beBytes 2 x.hysteresis ++ beBytes 2 x.jumpLimit ++
    beBytes 2 x.silenceLimit

/-- CONFIGURE_GAUGE after the range checks: at a change of a limit or the hysteresis the flags are evaluated and the inhibits
follow (R157, R185). -/
def State.configureGauge (s : State) (c : GaugeNo × GaugeSettings) : Answer :=
  let old := s.gauge c.1
  let s := s.modGauge c.1 fun x => x.write c.2
  let s :=
    if c.2.highLimit ≠ old.highLimit ∨ c.2.lowLimit ≠ old.lowLimit ∨ c.2.hysteresis ≠ old.hysteresis then
      (s.modGauge c.1 Gauge.evaluateFlags).inhibitsOf c.1
    else s
  .ok s (s.gaugeEcho c.1)

/-- CONFIGURE_GAUGE (R184). -/
def execConfigureGauge (tag : Byte) (body : List Byte) (s : State) : Host.Outcome State Fault Refusal :=
  .next (s.request 25 onlyConfig 15 tag body fun s => withField (gaugeSettingsOf body) s.configureGauge)

/-! ## CONFIGURE_UNIT (R184, R185, R62) -/

/-- The settings of a unit as the response echoes them. -/
def State.unitEcho (s : State) (u : UnitNo) : List Byte :=
  beBytes 1 u ++ beBytes 1 (s.unit u).waterway ++ beBytes 1 (s.unit u).eligible.toNat

/-- Whether a unit has a live pair leg in the table (R62). -/
def State.hasLiveLeg (s : State) (u : UnitNo) : Bool := (s.liveOrders u).any fun p => p.2.isPairLeg

/-- A unit moved to another waterway: its contribution is recomputed at the new live head and leaves the old sum for the new
one (R34). -/
def State.moved (s : State) (u : UnitNo) (old : WaterwayNo) : State :=
  (((s.refreshContribution u).updateFlow old).updateFlow (s.unit u).waterway).refreshOutside u

/-- CONFIGURE_UNIT after the range checks (R184, R62). -/
def State.configureUnit (s : State) (c : UnitNo × WaterwayNo × BitVec 2) : Answer :=
  let (u, w, eligible) := c
  let old := (s.unit u).waterway
  let s' := s.modUnit u fun b => { b with waterway := w, eligible := eligible }
  if w = old then .ok s' (s'.unitEcho u)
  else if s.hasLiveLeg u || !(s'.planKeeps old && s'.planKeeps w) then .refused .badConfig
  else .ok (s'.moved u old) ((s'.moved u old).unitEcho u)

/-- CONFIGURE_UNIT (R184). -/
def execConfigureUnit (tag : Byte) (body : List Byte) (s : State) : Host.Outcome State Fault Refusal :=
  .next (s.request 26 onlyConfig 3 tag body fun s => withField (unitSettingsOf body) s.configureUnit)

/-! ## CONFIGURE_CONVERTER and CONFIGURE_SUPERVISION (R184) -/

/-- The settings of a converter as the response echoes them. -/
def State.converterEcho (s : State) (c : ConverterNo) : List Byte :=
  beBytes 1 c ++ beBytes 2 (s.converter c).runLimit ++ beBytes 2 (s.converter c).coolDown ++ boolByte s.retry

/-- CONFIGURE_CONVERTER after the range checks; the retry setting is one for both converters (R184). -/
def State.configureConverter (s : State) (c : ConverterNo × Nat × Nat × Bool) : Answer :=
  let s := { (s.modConverter c.1 fun x => { x with runLimit := c.2.1, coolDown := c.2.2.1 }) with retry := c.2.2.2 }
  .ok s (s.converterEcho c.1)

/-- CONFIGURE_CONVERTER (R184). -/
def execConfigureConverter (tag : Byte) (body : List Byte) (s : State) : Host.Outcome State Fault Refusal :=
  .next (s.request 27 onlyConfig 6 tag body fun s => withField (converterSettingsOf body) s.configureConverter)

/-- The supervision settings as the response echoes them. -/
def Supervision.echo (x : Supervision) : List Byte :=
  beBytes 2 x.startMargin ++ beBytes 2 x.stopMargin ++ beBytes 2 x.ackTimeout ++ beBytes 2 x.silenceHold ++
    beBytes 1 x.burstCount ++ beBytes 2 x.burstWindow

/-- CONFIGURE_SUPERVISION (R184). -/
def execConfigureSupervision (tag : Byte) (body : List Byte) (s : State) : Host.Outcome State Fault Refusal :=
  .next (s.request 28 onlyConfig 11 tag body fun s =>
    withField (supervisionOf body) fun x => .ok { s with supervision := x } x.echo)

/-! ## START_DISPATCH and STOP_DISPATCH (R186, R187) -/

/-- A waterway is used when a present unit is assigned to it (R186). -/
def State.isUsed (s : State) (w : WaterwayNo) : Bool := (s.unitsOf w).any fun u => (s.unit u).present

/-- Check 3 of START_DISPATCH for a gauge: LOW + hysteresis lies below HIGH − hysteresis (R186). -/
def Gauge.bandRight (x : Gauge) : Bool := x.lowLimit + x.hysteresis + x.hysteresis < x.highLimit

/-- The four checks of START_DISPATCH (R186). -/
def State.configurationRight (s : State) : Bool :=
  let used := allWaterways.filter s.isUsed
  used.all (fun w => (s.waterway w).configured) &&
    used.all (fun w => (s.waterway w).upper != (s.waterway w).lower) &&
    used.all (fun w => (s.gauge (s.waterway w).upper).bandRight && (s.gauge (s.waterway w).lower).bandRight) &&
    allUnits.all fun u =>
      !((s.unit u).present && (s.unit u).link.current.any Capability.offersPump) || (s.unit u).eligible != 0

/-- START_DISPATCH (R186): DISPATCH, and the HELD records settled against plant time (R23). -/
def State.enterDispatch (s : State) : Answer :=
  if s.configurationRight then .ok { s with mode := .dispatch }.examineHeld [] else .refused .badConfig

/-- START_DISPATCH (R186). -/
def execStartDispatch (tag : Byte) (body : List Byte) (s : State) : Host.Outcome State Fault Refusal :=
  .next (s.request 29 onlyConfig 0 tag body State.enterDispatch)

/-- Whether a converter is RUNNING. -/
def ConverterState.isRunning : ConverterState → Bool
  | .running _ _ _ => true
  | _ => false

/-- STOP_DISPATCH: BUSY while an order is DUE or engaged or a converter is RUNNING (R187). -/
def State.leaveDispatch (s : State) : Answer :=
  if s.dispatching || allConverters.any fun c => (s.converter c).state.isRunning then .refused .busy
  else .ok { s with mode := .config } []

/-- STOP_DISPATCH (R187). -/
def execStopDispatch (tag : Byte) (body : List Byte) (s : State) : Host.Outcome State Fault Refusal :=
  .next (s.request 30 onlyDispatch 0 tag body State.leaveDispatch)

end Sys2Proof.Machine
end

