-- ==== Sys2Proof/Machine/Events.lean ====
section
/-! DEFINITION. The requests on events (R191). -/

namespace Sys2Proof.Machine

/-- READ_EVENTS: latches and mask as they stand (R191). -/
def execReadEvents (tag : Byte) (body : List Byte) (s : State) : Host.Outcome State Fault Refusal :=
  .next (s.request 21 anyMode 0 tag body fun s => .ok s (beBytes 2 s.latches.toNat ++ beBytes 2 s.mask.toNat))

/-- SET_EVENT_MASK: the mask is replaced (R191). -/
def execSetEventMask (tag : Byte) (body : List Byte) (s : State) : Host.Outcome State Fault Refusal :=
  .next (s.request 22 anyMode 2 tag body fun s => withField (eventSetOf body) fun m => .ok { s with mask := m } [])

/-- CLEAR_EVENTS: the latches named are cleared (R191). -/
def execClearEvents (tag : Byte) (body : List Byte) (s : State) : Host.Outcome State Fault Refusal :=
  .next (s.request 23 anyMode 2 tag body fun s =>
    withField (eventSetOf body) fun m => .ok { s with latches := s.latches &&& ~~~m } [])

end Sys2Proof.Machine
end

