-- ==== Sys2Proof/Machine/Orders.lean ====
section
/-! DEFINITION. Requests on orders (1.5, 1.6): RETIRE, LOOKUP, LIST_UNIT, LIST_STATE. -/

namespace Sys2Proof.Machine

/-! ## RETIRE (R17 to R20) -/

/-- Whether RETIRE frees a record in this state and phase at once (Table 1-6). -/
def Life.freedAtOnce (l : Life) (m : Mode) : Bool :=
  match l with
  | .starting p => earlyStart m p
  | .running => false
  | .stopping _ _ => false
  | _ => true

/-- The successor of a freed order that had been engaged is tested for lateness (R67). -/
def successorTask (r : Order) : List Task :=
  match r.successor with
  | some b => [Task.lateness b]
  | none => []

/-- RETIRE frees the record; an engaged one releases its queue entry and leaves its unit IDLE (R17, Table 1-6). -/
def State.retireFree (s : State) (h : Handle) (r : Order) : Work :=
  if r.life.engaged then
    (((s.releaseItems h r).freeOrder h).setContext r.unit .idle, Task.engagement r.unit :: successorTask r)
  else (s.freeOrder h, [])

/-- RETIRE marks the record, and begins its stop unless it is STOPPING already (R17, R18, R20, Table 1-6). -/
def State.retireStop (s : State) (h : Handle) : Work :=
  (s.modOrder h fun r => { r with retirePending := true }).beginStop h .windowEnd

/-- One record is retired by Table 1-6. -/
def State.retireOne (s : State) (h : Handle) : State :=
  match s.order? h with
  | none => s
  | some r => (if r.life.freedAtOnce r.mode then s.retireFree h r else s.retireStop h).finish

/-- The records a RETIRE treats, the GENERATE leg of a pair first; a partner already freed is not among them (R20). -/
def State.retiredLegs (s : State) (h : Handle) (r : Order) : List Handle :=
  match r.partner with
  | some p => if (s.order? p).isSome then (if r.mode = .generate then [h, p] else [p, h]) else [h]
  | none => [h]

/-- RETIRE of the record a handle names; ACCEPTED_STOPPING when a record is left in the table (R17, R20). -/
def State.retire (s : State) (h : Handle) (r : Order) : Answer :=
  let legs := s.retiredLegs h r
  let s' := legs.foldl State.retireOne { s with named := h :: r.partner.toList }
  if legs.any fun k => (s'.order? k).isSome then .stopping s' else .ok s' []

/-- RETIRE (R17 to R20). -/
def execRetire (tag : Byte) (body : List Byte) (s : State) : Host.Outcome State Fault Refusal :=
  .next (s.request 4 onlyDispatch 2 tag body fun s =>
    s.withOrder (field body 0 2) fun r => s.retire (field body 0 2) r)

/-! ## LOOKUP (R14, Table 12-3) -/

/-- Whether target, ramp, derated and curtailed belong to the record (Table 1-1). -/
def Order.generates (r : Order) : Bool := r.mode == .generate

/-- The setpoint a LOOKUP reports: that of an engaged GENERATE order (R14). -/
def State.reportedSetpoint (s : State) (r : Order) : Option Nat :=
  if r.generates && r.life.engaged then (s.unit r.unit).setpoint else none

/-- The actual_end of a record, present in DONE and FAILED (R6). -/
def Life.actualEnd : Life → Option Nat
  | .done _ t => some t
  | .failed _ t => some t
  | _ => none

def State.lookupBody (s : State) (h : Handle) (r : Order) : List Byte :=
  let setpoint := s.reportedSetpoint r
  let whenGenerating := fun v => if r.generates then some v else none
  beBytes 2 h ++ beBytes 1 r.unit ++ beBytes 1 r.mode.code ++ beBytes 1 r.cls.code ++ beBytes 1 r.life.stateCode ++
    optBytes 1 r.life.phaseCode ++
    beBytes 2 (bitsOf
      [r.life.phaseCode.isSome, r.finish.isSome, r.generates, r.generates, r.tolerance.isSome, r.partner.isSome,
        r.pairSense.isSome, r.successor.isSome, r.actualStart.isSome, r.life.actualEnd.isSome, r.life.causeCode.isSome,
        r.mode.pumpDirection, r.generates, r.generates, setpoint.isSome]) ++
    beBytes 4 r.start ++ optBytes 4 r.finish ++ optBytes 2 (whenGenerating r.target) ++
    optBytes 2 (whenGenerating r.ramp) ++ optBytes 2 r.tolerance ++ optBytes 2 r.partner ++
    optBytes 1 (r.pairSense.map PairSense.code) ++ optBytes 2 r.successor ++ beSigned 2 r.plannedFlow ++
    optBytes 4 r.actualStart ++ optBytes 4 r.life.actualEnd ++ optBytes 1 r.life.causeCode ++
    optBytes 1 (if r.mode.pumpDirection then some r.attempts else none) ++
    beBytes 1 (bitsOf [r.retirePending, r.generates && r.derated, r.generates && r.curtailed, r.unseen]) ++
    optBytes 2 setpoint

/-- LOOKUP of the record a handle names: its unseen flag is reported as it stood, and then cleared (R14). -/
def State.lookup (s : State) (h : Handle) (r : Order) : Answer :=
  .ok (s.modOrder h fun r => { r with unseen := false }) (s.lookupBody h r)

/-- LOOKUP (R14). -/
def execLookup (tag : Byte) (body : List Byte) (s : State) : Host.Outcome State Fault Refusal :=
  .next (s.request 5 onlyDispatch 2 tag body fun s =>
    s.withOrder (field body 0 2) fun r => s.lookup (field body 0 2) r)

/-! ## Lists (R15, R16) -/

/-- The records of a unit as LIST_UNIT gives them: the chain, then DONE and FAILED in slot order (R15). -/
def State.unitHandles (s : State) (u : UnitNo) : List Handle :=
  (s.chain u).map (·.1) ++ (s.orders.filter fun p => p.2.unit == u && !p.2.life.live).map (·.1)

/-- LIST_UNIT (R15). -/
def execListUnit (tag : Byte) (body : List Byte) (s : State) : Host.Outcome State Fault Refusal :=
  .next (s.request 6 onlyDispatch 1 tag body fun s =>
    withField (unitOf (byteAt body 0)) fun u => .ok s (handleList (s.unitHandles u)))

/-- The records in a set of states, in slot order, all or unseen ones only (R16). -/
def State.stateHandles (s : State) (set : Byte) (unseenOnly : Bool) : List Handle :=
  (s.orders.filter fun p => set.getLsbD p.2.life.stateCode && (!unseenOnly || p.2.unseen)).map (·.1)

/-- The state set and option of a LIST_STATE (R16, 12.2). -/
def stateSetOf (body : List Byte) : Option (Byte × Bool) :=
  if bitsBelow 7 (byteAt body 0) then (boolOf (byteAt body 1)).map fun o => (byteAt body 0, o) else none

/-- LIST_STATE (R16). -/
def execListState (tag : Byte) (body : List Byte) (s : State) : Host.Outcome State Fault Refusal :=
  .next (s.request 7 onlyDispatch 2 tag body fun s =>
    withField (stateSetOf body) fun x => .ok s (handleList (s.stateHandles x.1 x.2)))

end Sys2Proof.Machine
end

