-- ==== Sys2Proof/Machine/Startup.lean ====
section
/-! DEFINITION. Power-on, IDENTIFY and RESET (R180, R181, R188, and the reset rule of each chapter). -/

namespace Sys2Proof.Machine

/-! ## Converters at power-on and RESET (R105) -/

/-- A converter at RESET or power-on: COOLING with its full cool-down, or OUT when its fault line is asserted; a cool-down of 0 s
leaves it FREE (R99, R105, log entry 26). -/
def Converter.restart (x : Converter) : Converter :=
  { x with
    state := if x.faultLine then .out else if x.coolDown = 0 then .free else .cooling x.coolDown
    outRequest := false }

/-! ## POWER_ON (R188) -/

/-- A unit at power-on by its strap: ABSENT when it is latched absent (R147, R188). -/
def UnitBlock.strapped (b : UnitBlock) (present : Bool) : UnitBlock :=
  { b with present := present, context := if present then .dark else .absent }

/-- The units at power-on. -/
def unitsAtPowerOn (straps : BitVec 8) : Vector UnitBlock 8 :=
  Vector.ofFn fun u => (State.reset.units[u]).strapped (straps.getLsbD u)

/-- Power-on: every block at its power-on values, the straps latched; the fault lines and the waiting commands are outside the
part and stand (R188). -/
def State.poweredOn (s : State) (straps : BitVec 8) : State :=
  { State.reset with
    units := unitsAtPowerOn straps
    converters := mapVector (fun x => { Converter.reset with faultLine := x.faultLine }.restart) s.converters
    pending := s.pending }

/-- POWER_ON (R188). -/
def execPowerOn (straps : BitVec 8) (s : State) : Host.Outcome State Fault Refusal := .next (s.poweredOn straps)

/-! ## IDENTIFY (R180) -/

/-- The set of units whose straps were latched present. -/
def State.presentSet (s : State) : Nat := bitsOf (allUnits.map fun u => (s.unit u).present)

/-- IDENTIFY (R180). -/
def execIdentify (tag : Byte) (body : List Byte) (s : State) : Host.Outcome State Fault Refusal :=
  .next (s.request 31 anyMode 0 tag body fun s =>
    .ok s (beBytes 2 Config.partCode ++ beBytes 1 Config.designRevision ++ Config.capacities.flatMap (beBytes 1) ++
      beBytes 1 s.presentSet))

/-! ## RESET (R181) -/

/-- A slot at RESET: an occupied one is cleared and its generation raised (R3, R21). -/
def Slot.cleared (x : Slot) : Slot :=
  match x.order with
  | some _ => { generation := nextGeneration x.generation, order := none }
  | none => x

/-- A link at RESET: DOWN, with nothing held but the last STATE report (R131, R152). -/
def Link.cleared (l : Link) : Link := { Link.reset with lastReport := l.lastReport }

/-- A unit at RESET: settings, strap, contribution and flow saturated stand (R40, R63, R90, R105, R126, R152). -/
def UnitBlock.cleared (b : UnitBlock) : UnitBlock :=
  { b with
    link := b.link.cleared
    context := if b.present then .dark else .absent
    isolated := false
    supervision := none
    motion := false
    lastConverter := none
    headOutside := false
    setpoint := none
    ceiling := none
    pendingSetpoint := none }

/-- A waterway at RESET: settings, gate state, spacing timer and live net flow stand (R40, R112, R126, R163). -/
def Waterway.cleared (x : Waterway) : Waterway :=
  { x with
    liveHead := x.hAdm
    headLow := false
    pumpInhibit := true
    genInhibit := true
    queue := []
    nextRank := 0
    pointer := 0
    excessUnresolved := false
    pumpExcess := false }

/-- A gauge at RESET: UNKNOWN, its settings kept (R163). -/
def Gauge.cleared (x : Gauge) : Gauge :=
  { Gauge.reset with
    highLimit := x.highLimit
    lowLimit := x.lowLimit
    hysteresis := x.hysteresis
    jumpLimit := x.jumpLimit
    silenceLimit := x.silenceLimit }

/-- Every block at the values its chapter gives for RESET; clock and port stand (R171, R181). So does the work of the last mark that is
not yet taken: what still stands of it is carried out after the RESET (DESIGN CHOICE, log entry 57). -/
def State.cleared (s : State) : State :=
  { s with
    mode := .config
    slots := mapVector Slot.cleared s.slots
    startQueue := []
    units := mapVector UnitBlock.cleared s.units
    waterways := mapVector Waterway.cleared s.waterways
    converters := mapVector Converter.restart s.converters
    gauges := mapVector Gauge.cleared s.gauges
    latches := 0
    mask := 0 }

/-- RESET (R181). -/
def execReset (tag : Byte) (body : List Byte) (s : State) : Host.Outcome State Fault Refusal :=
  .next (s.request 32 anyMode 0 tag body fun s => .afterReset s.cleared)

end Sys2Proof.Machine
end

