-- ==== Sys2Proof/Machine/Dispatch.lean ====
section
/-! DEFINITION. The meaning of each command: one arm for each row of the opcode table. -/

namespace Sys2Proof.Machine

/-- The effect of a command on everything but the queue. -/
def exec (i : Instr) (s : State) : Host.Outcome State Fault Refusal :=
  match i with
  | .powerOn straps => Sys2Proof.Machine.execPowerOn straps s
  | .secondMark => Sys2Proof.Machine.execSecondMark s
  | .startArrival h => Sys2Proof.Machine.execStartArrival h s
  | .endArrival h => Sys2Proof.Machine.execEndArrival h s
  | .latenessArrival h => Sys2Proof.Machine.execLatenessArrival h s
  | .supervisionTimerExpiry u => Sys2Proof.Machine.execSupervisionTimerExpiry u s
  | .runTimerExpiry c => Sys2Proof.Machine.execRunTimerExpiry c s
  | .coolDownExpiry c => Sys2Proof.Machine.execCoolDownExpiry c s
  | .spacingTimerExpiry w => Sys2Proof.Machine.execSpacingTimerExpiry w s
  | .rampPeriodExpiry w => Sys2Proof.Machine.execRampPeriodExpiry w s
  | .helloInterval u => Sys2Proof.Machine.execHelloInterval u s
  | .ackTimerExpiry u => Sys2Proof.Machine.execAckTimerExpiry u s
  | .burstWindowExpiry u => Sys2Proof.Machine.execBurstWindowExpiry u s
  | .linkSilenceCount u => Sys2Proof.Machine.execLinkSilenceCount u s
  | .gaugeSilenceCount g => Sys2Proof.Machine.execGaugeSilenceCount g s
  | .pageReport u p => Sys2Proof.Machine.execPageReport u p s
  | .ackReport u kind toggle => Sys2Proof.Machine.execAckReport u kind toggle s
  | .stateReport u r => Sys2Proof.Machine.execStateReport u r s
  | .linkFrameBad u => Sys2Proof.Machine.execLinkFrameBad u s
  | .gaugeTelegram g bytes => Sys2Proof.Machine.execGaugeTelegram g bytes s
  | .converterFaultAssert c => Sys2Proof.Machine.execConverterFaultAssert c s
  | .converterFaultClear c => Sys2Proof.Machine.execConverterFaultClear c s
  | .place tag body => Sys2Proof.Machine.execPlace tag body s
  | .placePair tag body => Sys2Proof.Machine.execPlacePair tag body s
  | .amend tag body => Sys2Proof.Machine.execAmend tag body s
  | .retire tag body => Sys2Proof.Machine.execRetire tag body s
  | .lookup tag body => Sys2Proof.Machine.execLookup tag body s
  | .listUnit tag body => Sys2Proof.Machine.execListUnit tag body s
  | .listState tag body => Sys2Proof.Machine.execListState tag body s
  | .isolate tag body => Sys2Proof.Machine.execIsolate tag body s
  | .restore tag body => Sys2Proof.Machine.execRestore tag body s
  | .haltUnit tag body => Sys2Proof.Machine.execHaltUnit tag body s
  | .setConverterOut tag body => Sys2Proof.Machine.execSetConverterOut tag body s
  | .setConverterIn tag body => Sys2Proof.Machine.execSetConverterIn tag body s
  | .converterStatus tag body => Sys2Proof.Machine.execConverterStatus tag body s
  | .waterwayStatus tag body => Sys2Proof.Machine.execWaterwayStatus tag body s
  | .unitStatus tag body => Sys2Proof.Machine.execUnitStatus tag body s
  | .linkStatus tag body => Sys2Proof.Machine.execLinkStatus tag body s
  | .relink tag body => Sys2Proof.Machine.execRelink tag body s
  | .gaugeStatus tag body => Sys2Proof.Machine.execGaugeStatus tag body s
  | .readClock tag body => Sys2Proof.Machine.execReadClock tag body s
  | .setTime tag body => Sys2Proof.Machine.execSetTime tag body s
  | .trimClock tag body => Sys2Proof.Machine.execTrimClock tag body s
  | .readEvents tag body => Sys2Proof.Machine.execReadEvents tag body s
  | .setEventMask tag body => Sys2Proof.Machine.execSetEventMask tag body s
  | .clearEvents tag body => Sys2Proof.Machine.execClearEvents tag body s
  | .configureWaterway tag body => Sys2Proof.Machine.execConfigureWaterway tag body s
  | .configureGauge tag body => Sys2Proof.Machine.execConfigureGauge tag body s
  | .configureUnit tag body => Sys2Proof.Machine.execConfigureUnit tag body s
  | .configureConverter tag body => Sys2Proof.Machine.execConfigureConverter tag body s
  | .configureSupervision tag body => Sys2Proof.Machine.execConfigureSupervision tag body s
  | .startDispatch tag body => Sys2Proof.Machine.execStartDispatch tag body s
  | .stopDispatch tag body => Sys2Proof.Machine.execStopDispatch tag body s
  | .identify tag body => Sys2Proof.Machine.execIdentify tag body s
  | .reset tag body => Sys2Proof.Machine.execReset tag body s
  | .badFrame bytes => Sys2Proof.Machine.execBadFrame bytes s
  | .unknownRequest kind tag body => Sys2Proof.Machine.execUnknownRequest kind tag body s
  | .readPeriod n => Sys2Proof.Machine.execReadPeriod n s

end Sys2Proof.Machine
end

