-- ==== Sys2Proof/Safety.lean ====
section
/-! DEFINITION. The terms the claims are written in: the requests among the commands and the modes that admit them, what a request
leaves untouched and how it is answered, the situations the claims are about, and the laws of the UM-8 that hold of its state. -/

namespace Sys2Proof

/-- The kind, tag and body of a command that is a request of a known kind (R194). -/
def Instr.asRequest : Instr → Option (Nat × Byte × List Byte)
  | .place tag body => some (1, tag, body)
  | .placePair tag body => some (2, tag, body)
  | .amend tag body => some (3, tag, body)
  | .retire tag body => some (4, tag, body)
  | .lookup tag body => some (5, tag, body)
  | .listUnit tag body => some (6, tag, body)
  | .listState tag body => some (7, tag, body)
  | .isolate tag body => some (8, tag, body)
  | .restore tag body => some (9, tag, body)
  | .haltUnit tag body => some (10, tag, body)
  | .setConverterOut tag body => some (11, tag, body)
  | .setConverterIn tag body => some (11, tag, body)
  | .converterStatus tag body => some (12, tag, body)
  | .waterwayStatus tag body => some (13, tag, body)
  | .unitStatus tag body => some (14, tag, body)
  | .linkStatus tag body => some (15, tag, body)
  | .relink tag body => some (16, tag, body)
  | .gaugeStatus tag body => some (17, tag, body)
  | .readClock tag body => some (18, tag, body)
  | .setTime tag body => some (19, tag, body)
  | .trimClock tag body => some (20, tag, body)
  | .readEvents tag body => some (21, tag, body)
  | .setEventMask tag body => some (22, tag, body)
  | .clearEvents tag body => some (23, tag, body)
  | .configureWaterway tag body => some (24, tag, body)
  | .configureGauge tag body => some (25, tag, body)
  | .configureUnit tag body => some (26, tag, body)
  | .configureConverter tag body => some (27, tag, body)
  | .configureSupervision tag body => some (28, tag, body)
  | .startDispatch tag body => some (29, tag, body)
  | .stopDispatch tag body => some (30, tag, body)
  | .identify tag body => some (31, tag, body)
  | .reset tag body => some (32, tag, body)
  | _ => none

namespace Machine

/-! ## Requests -/

/-- Whether a dispatch mode admits a request kind (Table 10-1). -/
def kindAdmitted (kind : Nat) (m : DispatchMode) : Bool :=
  match m with
  | .config => !([1, 2, 3, 4, 5, 6, 7, 8, 9, 11, 30].contains kind)
  | .dispatch => !([24, 25, 26, 27, 28, 29].contains kind)

/-- The body length of a request kind (12.2). -/
def kindLength (kind : Nat) : Nat :=
  match kind with
  | 1 => 18
  | 2 => 18
  | 3 => 19
  | 4 => 2
  | 5 => 2
  | 7 => 2
  | 11 => 2
  | 12 => 0
  | 18 => 0
  | 19 => 4
  | 21 => 0
  | 22 => 2
  | 23 => 2
  | 24 => 15
  | 25 => 15
  | 26 => 3
  | 27 => 6
  | 28 => 11
  | 29 => 0
  | 30 => 0
  | 31 => 0
  | 32 => 0
  | _ => 1

/-- The state as a request finds it: PORT_OVERRUN is latched when its frame has found a response unread (R178). -/
def State.atFrame (s : State) : State := if s.port.unread then s.raise .portOverrun else s

/-- The bytes of a response (R176, Table 12-1). -/
def responseBytes (kind : Nat) (tag : Byte) (r : Result) (flags : Nat) (body : List Byte) : List Byte :=
  withCrc (beBytes 1 (body.length + 6) ++ beBytes 1 kind ++ [tag] ++ beBytes 1 r.code ++ beBytes 1 flags ++ body)

/-- The state as a request is carried out upon: PORT_OVERRUN latched where R178 latches it, no frame sent on a Unit Link yet. -/
def State.taken (s : State) : State := { s.atFrame with linkOut := [] }

/-- What a request frame of `n` bytes leaves, when its blocks stand as in `s'` and it is answered so: the response stands unread
in the response buffer, its flags tell whether an unread response was discarded, whether ATTN is asserted and the dispatch mode,
and zeros were sent while the frame came in (R172, R176, R178). -/
def State.answered (s : State) (kind : Nat) (tag : Byte) (n : Nat) (r : Result) (body : List Byte) (s' : State) : State :=
  { s' with
    port :=
      { requestBuffer := []
        response :=
          responseBytes kind tag r (bitsOf [s.port.unread || s.port.overrun, s'.attn, s'.mode == .dispatch]) body
        unread := true
        overrun := false
        resetResponse := kind == 32 && r == .ok }
    portOut := List.replicate n 0
    named := [] }

/-- The state as a due event is taken: it is no longer due, and nothing has been sent yet (log entries 1 and 8). -/
def State.takes (s : State) (e : DueEvent) : State := { s with due := s.due.erase e, linkOut := [], portOut := [] }

/-! ## A link that is lost (R144) -/

/-- A unit whose link has left EXCHANGE or UP with no order engaged: directives, setpoint in waiting, collection, silence and timers
are dropped, the context is DARK, and everything else stands; a loss sets the latched lost indicator (R144, R145). -/
def UnitBlock.disconnected (b : UnitBlock) (next : LinkState) : UnitBlock :=
  { b with
    context := .dark
    pendingSetpoint := none
    link :=
      { b.link with
        state := next
        lostLatch := b.link.lostLatch || next == .lost
        outstanding := none
        held := none
        ackTimer := none
        collecting := none
        silent := false
        burstTimer := none } }

/-! ## HELD records that plant time passes (R23, R169) -/

/-- Whether the end or the lateness time of a record lies at or before plant time `v`. -/
def Order.PassedBy (r : Order) (v : Nat) : Prop :=
  (∃ e, r.finish = some e ∧ e ≤ v) ∨ ∃ d, r.tolerance = some d ∧ r.start + d ≤ v

/-- No order is DUE or engaged, every HELD record that is to fail at plant time `v` is single, and every one that is to receive its
start arrival is of a unit that is isolated or not IDLE. -/
def State.PassesAlone (s : State) (v : Nat) : Prop :=
  ∀ h r, s.order? h = some r → r.life ≠ .due ∧ r.life.engaged = false ∧
    (r.life = .held → r.PassedBy v ∨ (r.start ≤ v ∧ (s.unit r.unit).isolated = true) →
      r.partner = none ∧ r.retirePending = false) ∧
    (r.life = .held → ¬ r.PassedBy v → r.start ≤ v → (s.unit r.unit).isolated = true ∨ (s.unit r.unit).context ≠ .idle)

/-- What becomes of the HELD records at plant time `v`: one whose end or lateness time is passed fails as LATE; of the others, one
whose start is passed fails as ISOLATED on an isolated unit and is DUE on any other, and one whose start lies ahead stays HELD. A record
that fails leaves its successor links (R13). -/
def State.SettlesTo (s t : State) (v : Nat) : Prop :=
  ∀ h r, s.order? h = some r → r.life = .held →
    ∃ link : Option Handle, (link = r.successor ∨ link = none) ∧
      (r.PassedBy v → t.order? h = some { r with life := .failed .late v, unseen := true, successor := none }) ∧
      (¬ r.PassedBy v → r.start ≤ v → (s.unit r.unit).isolated = true →
        t.order? h = some { r with life := .failed .isolated v, unseen := true, successor := none }) ∧
      (¬ r.PassedBy v → r.start ≤ v → (s.unit r.unit).isolated = false →
        t.order? h = some { r with life := .due, unseen := true, successor := link }) ∧
      (¬ r.PassedBy v → v < r.start → t.order? h = some { r with successor := link })

/-- No order is DUE or engaged, and plant time `v` passes one HELD record alone: the start of a single one, of a unit that is IDLE and
not isolated. -/
structure State.PassesIdle (s : State) (v : Nat) (h : Handle) (r : Order) : Prop where
  record : s.order? h = some r
  held : r.life = .held
  notLate : ¬ r.PassedBy v
  start : r.start ≤ v
  single : r.partner = none
  notIsolated : (s.unit r.unit).isolated = false
  idle : (s.unit r.unit).context = .idle
  others : ∀ k q, s.order? k = some q → q.life ≠ .due ∧ q.life.engaged = false ∧
    (k ≠ h → q.life = .held → ¬ q.PassedBy v ∧ v < q.start)

/-- The order engages: a PUMP or CONDENSE_P order waits for a converter while none is FREE, and a GENERATE or CONDENSE_G order for a
gate that is SPACING (R65, R66). -/
def State.EngagesTo (s t : State) (h : Handle) (r : Order) : Prop :=
  (t.unit r.unit).context = .engaged ∧
  (r.mode = .pump ∨ r.mode = .condenseP → (∀ c, (s.converter c).state ≠ .free) →
    t.order? h = some { r with life := .starting .queuedConverter, unseen := true } ∧
      { handle := h, unit := r.unit, cls := r.cls, start := r.start } ∈ t.startQueue) ∧
  (r.mode = .generate ∨ r.mode = .condenseG → (s.waterway (s.unit r.unit).waterway).spacing.isSome = true →
    t.order? h = some { r with life := .starting .awaitingGate, unseen := true } ∧
      ∃ e ∈ (t.waterway (s.unit r.unit).waterway).queue, e.handle = h ∧ e.unit = r.unit ∧ e.kind = .start)

/-! ## Pairs (R38, R55) -/

/-- The two legs of a pair, on two units: the PUMP leg `h` and the GENERATE leg `g`, without links. -/
structure State.IsPair (s : State) (h g : Handle) (r q : Order) : Prop where
  pumpLeg : s.order? h = some r
  genLeg : s.order? g = some q
  pumpMode : r.mode = .pump
  genMode : q.mode = .generate
  pumpPartner : r.partner = some g
  genPartner : q.partner = some h
  units : r.unit ≠ q.unit
  pumpLink : r.successor = none
  genLink : q.successor = none

/-! ## A new level of an upper gauge (R156, R158) -/

/-- A telegram leaves the gauge `x` with a new held level, and it is the upper gauge of waterway `w` and no other gauge of either. -/
structure State.UpperTold (s : State) (g : GaugeNo) (bytes : List Byte) (w : WaterwayNo) (x : Gauge) : Prop where
  received : x = (s.gauge g).receive g bytes
  level : x.level ≠ (s.gauge g).level
  upper : (s.waterway w).upper = g
  lower : (s.waterway w).lower ≠ g
  others : ∀ v, v ≠ w → (s.waterway v).upper ≠ g ∧ (s.waterway v).lower ≠ g

/-! ## A START entry that an OPEN gate lets go (R108, R109) -/

/-- The one entry of an OPEN gate is the START entry of a single GENERATE order, whose unit has its link UP and no directive
outstanding; `f` is the step of the entry at a live head. -/
structure State.WaitsOpen (s : State) (w : WaterwayNo) (e : GateEntry) (r : Order) (f : Nat → Nat) : Prop where
  isOpen : (s.waterway w).spacing = none
  spacingTime : 0 < (s.waterway w).spacingTime
  queue : (s.waterway w).queue = [e]
  kind : e.kind = .start
  record : s.order? e.handle = some r
  unit : r.unit = e.unit
  waterway : (s.unit e.unit).waterway = w
  mode : r.mode = .generate
  sense : r.pairSense = none
  link : (s.unit e.unit).link.state = .up
  idle : (s.unit e.unit).link.outstanding = none
  step : ∃ c, (s.unit e.unit).link.current = some c ∧ ∀ head, f head = c.genFlow c.pmin head

/-- That entry is granted: the order is in RUNUP, START_GEN alone is sent, and the gate is SPACING with an empty queue. -/
def State.GrantsTo (s t : State) (w : WaterwayNo) (e : GateEntry) (r : Order) : Prop :=
  t.order? e.handle = some { r with life := .starting .runup } ∧
  t.linkOut = [(e.unit, .directive (s.unit e.unit).link.toggle .startGen)] ∧
  (t.waterway w).queue = [] ∧ (t.waterway w).spacing = some (s.waterway w).spacingTime

/-! ## Laws of the state -/

/-- Every generation lies in 1..1023 (R3). -/
def State.GenerationLaw (s : State) : Prop := ∀ k : SlotNo, 1 ≤ (s.slot k).generation ∧ (s.slot k).generation ≤ 1023

/-- The end of every order in the table, where it has one, lies after its start (R45, R57). -/
def State.WindowLaw (s : State) : Prop := ∀ h r, s.order? h = some r → ∀ e, r.finish = some e → r.start < e

/-- Plant time and the pending backward trim lie in their ranges (R164). -/
def State.ClockLaw (s : State) : Prop := s.plantTime ≤ plantTimeMax ∧ s.pendingTrim ≤ 2

/-- Between commands the request buffer is empty, the overrun flag has been reported, an unread response stands in the buffer, and
the response to a RESET is one that is unread (R176, R178, R181). -/
structure Port.Law (p : Port) : Prop where
  noRequest : p.requestBuffer = []
  noOverrun : p.overrun = false
  unreadStands : p.unread = true → p.response ≠ []
  resetUnread : p.resetResponse = true → p.unread = true

/-- The law of a Unit Link (R127, R128, R136, R138, R141, R143, R144): the ack timer runs exactly while a directive is
outstanding, a directive or a setpoint waits only behind an outstanding one, a directive is outstanding only while the link is UP,
an UP link holds a record, the burst window runs exactly while the link is supervised, only a supervised link is silent, and the
link of an absent unit is DOWN. -/
structure UnitBlock.LinkLaw (b : UnitBlock) : Prop where
  ackTimer : b.link.ackTimer.isSome = b.link.outstanding.isSome
  held : b.link.held.isSome = true → b.link.outstanding.isSome = true
  pending : b.pendingSetpoint.isSome = true → b.link.outstanding.isSome = true
  outstanding : b.link.outstanding.isSome = true → b.link.state = .up
  current : b.link.state = .up → b.link.current.isSome = true
  burst : b.link.burstTimer.isSome = b.link.state.supervised
  silent : b.link.silent = true → b.link.state.supervised = true
  absent : b.present = false → b.link.state = .down

/-- The law of every unit's link. -/
def State.LinkLaw (s : State) : Prop := ∀ u : UnitNo, (s.unit u).LinkLaw

/-- The law of a gauge (R153 to R157): its runs and silence count lie in their ranges, the run that would change its state stays
below 3, and once it has left UNKNOWN it holds a level; no level exceeds 100 000, and without one no limit flag is set. -/
structure Gauge.Law (x : Gauge) : Prop where
  goodRun : x.goodRun ≤ 3
  badRun : x.badRun ≤ 3
  silence : x.silence ≤ 255
  notValid : x.state ≠ .valid → x.goodRun ≤ 2
  valid : x.state = .valid → x.badRun ≤ 2
  oneRun : x.goodRun = 0 ∨ x.badRun = 0
  known : x.state ≠ .unknown → x.level.isSome = true
  range : ∀ v, x.level = some v → v ≤ 100000
  flags : x.level = none → x.high = false ∧ x.low = false

/-- The law of every gauge. -/
def State.GaugeLaw (s : State) : Prop := ∀ g : GaugeNo, (s.gauge g).Law

/-- The live net flow of each waterway is the sum of the contributions of the units assigned to it (R36). -/
def State.FlowLaw (s : State) : Prop :=
  ∀ w : WaterwayNo,
    (s.waterway w).netFlow =
      (allUnits.map fun u => if (s.unit u).waterway = w then (s.unit u).contribution else 0).sum

/-- The live head and head low of each waterway are those its two gauges give (R29). -/
def State.HeadLaw (s : State) : Prop :=
  ∀ w : WaterwayNo, ((s.waterway w).liveHead, (s.waterway w).headLow) = s.headOf w

/-- The two inhibits of each waterway are those its two gauges give (R158). -/
def State.InhibitLaw (s : State) : Prop :=
  ∀ w : WaterwayNo,
    (s.waterway w).pumpInhibit = pumpInhibitOf (s.gauge (s.waterway w).upper) (s.gauge (s.waterway w).lower) ∧
      (s.waterway w).genInhibit = genInhibitOf (s.gauge (s.waterway w).upper) (s.gauge (s.waterway w).lower)

/-- A transient queue stands in the order of R106, no two entries hold one joining rank, and the next joining rank lies above every
rank given. -/
def Waterway.QueueLaw (x : Waterway) : Prop :=
  x.queue.Pairwise (fun a b => a.before b = true) ∧ (x.queue.map (·.rank)).Nodup ∧ ∀ e ∈ x.queue, e.rank < x.nextRank

/-- The queues stand in their order: no start entry stands behind one it comes before (R93), and the transient queues keep theirs
(R106). -/
def State.QueueLaw (s : State) : Prop :=
  s.startQueue.Pairwise (fun a b => b.before a = false) ∧ ∀ w : WaterwayNo, (s.waterway w).QueueLaw

/-- The settings of a waterway lie in the ranges of Table 11-1. -/
structure Waterway.SettingsLaw (x : Waterway) : Prop where
  hAdm : 500 ≤ x.hAdm ∧ x.hAdm ≤ 90000
  qgLim : 1 ≤ x.qgLim ∧ x.qgLim ≤ 9999
  qpLim : 1 ≤ x.qpLim ∧ x.qpLim ≤ 9999
  allowance : 1 ≤ x.allowance ∧ x.allowance ≤ 9999
  spacingTime : x.spacingTime ≤ 900

/-- The settings of a gauge lie in the ranges of Table 11-1. -/
structure Gauge.SettingsLaw (x : Gauge) : Prop where
  highLimit : x.highLimit ≤ 100000
  lowLimit : x.lowLimit ≤ 100000
  hysteresis : 1 ≤ x.hysteresis ∧ x.hysteresis ≤ 1000
  jumpLimit : 1 ≤ x.jumpLimit ∧ x.jumpLimit ≤ 1000
  silenceLimit : 1 ≤ x.silenceLimit ∧ x.silenceLimit ≤ 60

/-- The settings of a converter lie in the ranges of Table 11-1. -/
structure Converter.SettingsLaw (x : Converter) : Prop where
  runLimit : 30 ≤ x.runLimit ∧ x.runLimit ≤ 1200
  coolDown : x.coolDown ≤ 3600

/-- The supervision settings lie in the ranges of Table 11-1. -/
structure Supervision.Law (x : Supervision) : Prop where
  startMargin : x.startMargin ≤ 900
  stopMargin : x.stopMargin ≤ 900
  ackTimeout : 1 ≤ x.ackTimeout ∧ x.ackTimeout ≤ 10
  silenceHold : 1 ≤ x.silenceHold ∧ x.silenceHold ≤ 30
  burstCount : 1 ≤ x.burstCount ∧ x.burstCount ≤ 255
  burstWindow : 1 ≤ x.burstWindow ∧ x.burstWindow ≤ 60

/-- Every setting lies in its range (R184, Table 11-1). -/
structure State.SettingsLaw (s : State) : Prop where
  waterways : ∀ w : WaterwayNo, (s.waterway w).SettingsLaw
  gauges : ∀ g : GaugeNo, (s.gauge g).SettingsLaw
  converters : ∀ c : ConverterNo, (s.converter c).SettingsLaw
  supervision : s.supervision.Law

end Machine

end Sys2Proof
end

