-- ==== Sys2Proof/WellFormed.lean ====
section
/-! DEFINITION. The commands that can stand on the lines: what a frame check, a line or a field width guarantees of the operands
(R139, R172, R173, R193). `exec` is total, and gives every command a next state whether it is well formed or not. -/

namespace Sys2Proof

open Machine

/-- A number that a field of `n` bytes can hold. -/
def fitsBytes (n v : Nat) : Bool := v < 256 ^ n

/-- A handle as the table issues them (R2, R3). -/
def isHandle (h : Handle) : Bool := inRange 64 65535 h

/-- The body of a checked request frame has at most 240 bytes (10.2). -/
def isBody (body : List Byte) : Bool := body.length ≤ 240

/-- The values of a generating breakpoint fit their fields (Table 12-4). -/
def GenPoint.wf (x : GenPoint) : Bool := fitsBytes 2 x.p && fitsBytes 2 x.q

/-- The values of a pump breakpoint fit their fields (Table 12-4). -/
def PumpPoint.wf (x : PumpPoint) : Bool := fitsBytes 4 x.h && fitsBytes 2 x.qp && fitsBytes 2 x.pp

/-- The figures of page 0 fit their fields (Table 12-4). -/
def Figures.wf (f : Figures) : Bool :=
  fitsBytes 1 f.unitEcho && fitsBytes 4 f.href &&
    [f.pmin, f.pmax, f.genStart, f.pumpStart, f.genStop, f.pumpStop, f.dwell].all (fitsBytes 2)

/-- The contents of a page fit their fields. -/
def PageContents.wf : PageContents → Bool
  | .figures f => f.wf
  | .genLow v => v.toList.all GenPoint.wf
  | .genHigh v => v.toList.all GenPoint.wf
  | .pumpLow v => v.toList.all PumpPoint.wf
  | .pumpHigh v => v.toList.all PumpPoint.wf

/-- The measured power of a report fits its two signed bytes (Table 12-4, log entry 28). -/
def Report.wf (r : Report) : Bool := -32768 ≤ r.power && r.power ≤ 32767

/-- Whether a command can stand on the lines. -/
def Instr.wf (i : Instr) : Bool :=
  match i with
  | .powerOn _ => true
  | .secondMark => true
  | .startArrival h => isHandle h
  | .endArrival h => isHandle h
  | .latenessArrival h => isHandle h
  | .supervisionTimerExpiry _ => true
  | .runTimerExpiry _ => true
  | .coolDownExpiry _ => true
  | .spacingTimerExpiry _ => true
  | .rampPeriodExpiry _ => true
  | .helloInterval _ => true
  | .ackTimerExpiry _ => true
  | .burstWindowExpiry _ => true
  | .linkSilenceCount _ => true
  | .gaugeSilenceCount _ => true
  | .pageReport _ p => p.contents.wf
  | .ackReport _ _ _ => true
  | .stateReport _ r => r.wf
  | .linkFrameBad _ => true
  | .gaugeTelegram _ bytes => lineEnded bytes
  | .converterFaultAssert _ => true
  | .converterFaultClear _ => true
  | .place _ body => isBody body
  | .placePair _ body => isBody body
  | .amend _ body => isBody body
  | .retire _ body => isBody body
  | .lookup _ body => isBody body
  | .listUnit _ body => isBody body
  | .listState _ body => isBody body
  | .isolate _ body => isBody body
  | .restore _ body => isBody body
  | .haltUnit _ body => isBody body
  | .setConverterOut _ body => isBody body && byteAt body 1 != 1
  | .setConverterIn _ body => isBody body && byteAt body 1 == 1
  | .converterStatus _ body => isBody body
  | .waterwayStatus _ body => isBody body
  | .unitStatus _ body => isBody body
  | .linkStatus _ body => isBody body
  | .relink _ body => isBody body
  | .gaugeStatus _ body => isBody body
  | .readClock _ body => isBody body
  | .setTime _ body => isBody body
  | .trimClock _ body => isBody body
  | .readEvents _ body => isBody body
  | .setEventMask _ body => isBody body
  | .clearEvents _ body => isBody body
  | .configureWaterway _ body => isBody body
  | .configureGauge _ body => isBody body
  | .configureUnit _ body => isBody body
  | .configureConverter _ body => isBody body
  | .configureSupervision _ body => isBody body
  | .startDispatch _ body => isBody body
  | .stopDispatch _ body => isBody body
  | .identify _ body => isBody body
  | .reset _ body => isBody body
  | .badFrame bytes => byteAt bytes 0 != 0 && !frameRight bytes
  | .unknownRequest kind _ body => !inRange 1 32 kind.toNat && isBody body
  | .readPeriod _ => true

end Sys2Proof
end

