-- ==== Sys2Proof/Certificates/Slice0/Obligations.lean ====
section
/-! DEFINITION. The statements for the provers: what the rules of the spec say that the commands do, and the laws every step keeps. A
statement about a due event says what the command does at the mark that brings it (log entry 1); hypotheses of the form `s.named = []`
hold between commands (log entry 29). -/

open Sys2Proof Sys2Proof.Machine

/-! ## The queue of commands -/

/-- A step carries out the command at the front of the queue upon the state with the queue's rest; on an empty queue nothing
happens (the model's choice, log entry 4). -/
def Obligations.StepTakesFrontCommand : Prop :=
  (∀ (c : Instr) (rest : List Instr) (s : State), s.pending = c :: rest → step s = exec c { s with pending := rest }) ∧
    ∀ s : State, s.pending = [] → step s = .next s

/-- Every command completes, and leaves the waiting commands as they stand: no fault and no refusal is ever answered. -/
def Obligations.EveryCommandCompletes : Prop :=
  ∀ (c : Instr) (s : State), ∃ t : State, exec c s = .next t ∧ t.pending = s.pending

/-! ## The Order Port (Chapter 10) -/

/-- Every request of a known kind is answered with its own kind and tag, and a request answered with any code but OK and
ACCEPTED_STOPPING has had no effect but those of its frame: PORT_OVERRUN where a response stood unread, and the response
(R176, R178, R179). -/
def Obligations.RequestsAnswered : Prop :=
  ∀ (c : Instr) (s : State) (kind : Nat) (tag : Byte) (body : List Byte), c.asRequest = some (kind, tag, body) →
    ∃ (r : Result) (out : List Byte) (t : State), exec c s = .next (s.answered kind tag (body.length + 5) r out t) ∧
      (r = .ok ∨ (r = .acceptedStopping ∧ kind = 4 ∧ out = []) ∨
        (r ≠ .ok ∧ r ≠ .acceptedStopping ∧ out = [] ∧ t = s.taken))

/-- The port judges the dispatch mode, and then the body length, and hands on what passes both (R174, R175). -/
def Obligations.ModeAndLengthJudged : Prop :=
  ∀ (c : Instr) (s : State) (kind : Nat) (tag : Byte) (body : List Byte), c.asRequest = some (kind, tag, body) →
    (kindAdmitted kind s.mode = false →
      exec c s = .next (s.answered kind tag (body.length + 5) .wrongMode [] s.taken)) ∧
    (kindAdmitted kind s.mode = true → body.length ≠ kindLength kind →
      exec c s = .next (s.answered kind tag (body.length + 5) .badField [] s.taken)) ∧
    (kindAdmitted kind s.mode = true → body.length = kindLength kind →
      ∃ (r : Result) (out : List Byte) (t : State), exec c s = .next (s.answered kind tag (body.length + 5) r out t) ∧
        r ≠ .wrongMode ∧ r ≠ .badFrame ∧ r ≠ .unknownRequest)

/-- A select period whose first byte is not 0 is a request frame. One that fails a part of the frame check is answered BAD_FRAME
with the kind and tag bytes received, 0 where none was; one that passes and carries none of the 32 kinds is answered
UNKNOWN_REQUEST. Neither has an effect on any block (R172 to R174). -/
def Obligations.DamagedAndUnknownFrames : Prop :=
  (∀ (b : Byte) (rest : List Byte) (s : State), b ≠ 0 →
    ¬ (4 ≤ b.toNat ∧ b.toNat ≤ 244 ∧ rest.length = b.toNat ∧ crcRight (b :: rest) = true) →
    selectPeriod (b :: rest) = some (.badFrame (b :: rest)) ∧
      exec (.badFrame (b :: rest)) s =
        .next (s.answered (rest.getD 0 0).toNat (rest.getD 1 0) (rest.length + 1) .badFrame [] s.taken)) ∧
  (∀ (kind tag : Byte) (body : List Byte) (s : State), body.length ≤ 240 → ¬ (1 ≤ kind.toNat ∧ kind.toNat ≤ 32) →
    selectPeriod (requestFrame kind.toNat tag body) = some (.unknownRequest kind tag body) ∧
      exec (.unknownRequest kind tag body) s =
        .next (s.answered kind.toNat tag (body.length + 5) .unknownRequest [] s.taken))

/-- A request frame of a known kind that passes the frame check is taken as the command of that kind, with the tag and the body
it carries; and frames that stand one after another on a Unit Link or a Gauge Input are cut apart where their length bytes end them,
the bytes of one not yet ended being kept (R173, R193, R194). -/
def Obligations.RequestFramesDecode : Prop :=
  (∀ (c : Instr) (kind : Nat) (tag : Byte) (body : List Byte), c.asRequest = some (kind, tag, body) → c.wf = true →
    selectPeriod (requestFrame kind tag body) = some c) ∧
  ∀ (frames : List (List Byte)) (rest : List Byte), (∀ f ∈ frames, f.length = (byteAt f 0).toNat + 1) →
    rest.length ≤ (byteAt rest 0).toNat →
    (∀ u : UnitNo, linkCommands u [] (frames.flatten ++ rest) = (frames.map (linkFrame u), rest)) ∧
      ∀ g : GaugeNo, gaugeCommands g [] (frames.flatten ++ rest) = (frames.map (.gaugeTelegram g), rest)

/-- A read period sends a byte of 0, then the response, then bytes of 0; one that has sent every byte of a response clears the
unread flag, and empties the buffer when the response is one to a RESET. No block changes (R172, R177, R181). -/
def Obligations.ReadPeriodSendsResponse : Prop :=
  ∀ (n : Nat) (s : State), ∃ sent : List Byte, sent.length = n + 1 ∧ sent[0]? = some 0 ∧
    (∀ i, i < n → sent[i + 1]? = some (s.port.response.getD i 0)) ∧
    (s.port.response ≠ [] → s.port.response.length ≤ n →
      exec (.readPeriod n) s = .next
        { s with
          linkOut := []
          portOut := sent
          port :=
            { s.port with
              response := if s.port.resetResponse then [] else s.port.response
              unread := false
              resetResponse := false } }) ∧
    (s.port.response = [] ∨ n < s.port.response.length →
      exec (.readPeriod n) s = .next { s with linkOut := [], portOut := sent })

/-! ## The Plant Clock (Chapter 9) -/

/-- At a second mark a pending backward trim is absorbed, or else plant time advances and brings the arrivals of its new value, or else it
holds at its maximum. A mark at which plant time stands still delivers no arrival, and every mark reaches the blocks that count marks
(R165, R166). The model's own: arrivals stand in `due`, and what no command took is taken first (log entries 1, 2). -/
def Obligations.SecondMarkAdvancesPlantTime : Prop :=
  ∀ s : State, ∃ t : State, exec .secondMark s = .next t ∧
    (0 < s.pendingTrim → t.plantTime = s.plantTime ∧ t.pendingTrim = s.pendingTrim - 1) ∧
    (s.pendingTrim = 0 → s.plantTime < plantTimeMax → t.plantTime = s.plantTime + 1 ∧ t.pendingTrim = 0 ∧
      ∀ h : Handle,
        (DueEvent.startArrival h ∈ t.due ↔ ∃ r, t.order? h = some r ∧ r.start = t.plantTime) ∧
        (DueEvent.endArrival h ∈ t.due ↔ ∃ r, t.order? h = some r ∧ r.finish = some t.plantTime) ∧
        (DueEvent.latenessArrival h ∈ t.due ↔
          ∃ r d, t.order? h = some r ∧ r.tolerance = some d ∧ r.start + d = t.plantTime)) ∧
    (s.pendingTrim = 0 → plantTimeMax ≤ s.plantTime → t.plantTime = s.plantTime ∧ t.pendingTrim = 0) ∧
    (0 < s.pendingTrim ∨ plantTimeMax ≤ s.plantTime → ∀ e ∈ t.due, e.isArrival = false) ∧
    (∀ w, DueEvent.ramp w ∈ t.due) ∧ ∀ g, DueEvent.gaugeSilence g ∈ t.due

/-- Every running timer counts each second mark, whatever plant time does, and its expiry is due at the mark at which it reaches 0.
Nothing but the timers, the clock and what is due changes at a mark that finds nothing left over (R167). The model's own: expiries
stand in `due` (log entry 1), and a link keeps in `heardBefore` what was heard up to the mark (log entries 6, 43). -/
def Obligations.TimersCountMarks : Prop :=
  ∀ s : State, s.due = [] → ∃ t : State, exec .secondMark s = .next t ∧
    (∀ u, t.unit u =
      { s.unit u with
        supervision := (s.unit u).supervision.map (· - 1)
        link :=
          { (s.unit u).link with
            ackTimer := (s.unit u).link.ackTimer.map (· - 1)
            burstTimer := (s.unit u).link.burstTimer.map (· - 1)
            heardBefore := (s.unit u).link.heard
            heard := false } }) ∧
    (∀ c, t.converter c =
      { s.converter c with
        state :=
          match (s.converter c).state with
          | .running h u n => .running h u (n - 1)
          | .cooling n => .cooling (n - 1)
          | x => x }) ∧
    (∀ w, t.waterway w = { s.waterway w with spacing := (s.waterway w).spacing.map (· - 1) }) ∧
    t =
      { s with
        units := t.units
        converters := t.converters
        waterways := t.waterways
        plantTime := t.plantTime
        pendingTrim := t.pendingTrim
        due := t.due
        linkOut := []
        portOut := [] } ∧
    (∀ u, (DueEvent.supervision u ∈ t.due ↔ (t.unit u).supervision = some 0) ∧
      (DueEvent.ack u ∈ t.due ↔ (t.unit u).link.ackTimer = some 0) ∧
      (DueEvent.burst u ∈ t.due ↔ (t.unit u).link.burstTimer = some 0) ∧
      (DueEvent.hello u ∈ t.due ↔
        (s.unit u).present = true ∧ ((s.unit u).link.state = .down ∨ (s.unit u).link.state = .lost)) ∧
      (DueEvent.linkSilence u ∈ t.due ↔ (s.unit u).link.state = .exchange ∨ (s.unit u).link.state = .up)) ∧
    (∀ c, (DueEvent.run c ∈ t.due ↔ ∃ h u, (t.converter c).state = .running h u 0) ∧
      (DueEvent.coolDown c ∈ t.due ↔ (t.converter c).state = .cooling 0)) ∧
    ∀ w, DueEvent.spacing w ∈ t.due ↔ (t.waterway w).spacing = some 0

/-- SET_TIME is refused with BUSY while an order is DUE or engaged. Otherwise plant time takes the value and the pending trim is cleared;
in CONFIG, and in DISPATCH where no HELD record has been passed, nothing more happens. In DISPATCH every single HELD record passed is
settled: one whose end or lateness time is passed fails as LATE, and any other receives its start arrival, by which it fails on an
isolated unit, is DUE on a unit that is not IDLE, and engages on an IDLE one where it alone is passed (R169, R23, R64 to R66). The
model's own: arrivals still due for the old plant time are dropped from `due` (log entry 2). -/
def Obligations.SetTimeTaken : Prop :=
  ∀ (s : State) (tag : Byte) (body : List Byte) (v : Nat), body.length = 4 → v = field body 0 4 →
    ((∃ h r, s.order? h = some r ∧ (r.life = .due ∨ r.life.engaged = true)) →
      exec (.setTime tag body) s = .next (s.answered 19 tag 9 .busy [] s.taken)) ∧
    ((∀ h r, s.order? h = some r → r.life ≠ .due ∧ r.life.engaged = false) →
      (s.mode = .config ∨ ∀ h r, s.order? h = some r → r.life = .held →
        v < r.start ∧ (∀ e, r.finish = some e → v < e) ∧ ∀ d, r.tolerance = some d → v < r.start + d) →
      exec (.setTime tag body) s = .next (s.answered 19 tag 9 .ok []
        { s.taken with plantTime := v, pendingTrim := 0, due := s.due.filter fun e => !e.isArrival })) ∧
    (s.mode = .dispatch → s.named = [] → s.PassesAlone v →
      ∃ t : State, exec (.setTime tag body) s = .next (s.answered 19 tag 9 .ok [] t) ∧ t.plantTime = v ∧ t.pendingTrim = 0 ∧
        t.due = s.due.filter (fun e => !e.isArrival) ∧ s.SettlesTo t v ∧
        ((∃ h r, s.order? h = some r ∧ r.life = .held ∧ r.PassedBy v) → t.latched .orderFailed = true) ∧
        ((∃ h r, s.order? h = some r ∧ r.life = .held ∧ ¬ r.PassedBy v ∧ r.start ≤ v) → t.latched .orderChanged = true)) ∧
    ∀ (h : Handle) (r : Order), s.mode = .dispatch → s.named = [] → s.PassesIdle v h r →
      ∃ t : State, exec (.setTime tag body) s = .next (s.answered 19 tag 9 .ok [] t) ∧ t.plantTime = v ∧ t.pendingTrim = 0 ∧
        s.EngagesTo t h r

/-- TRIM_CLOCK: a value outside −2..+2 is refused with BAD_FIELD, a negative one or 0 replaces the pending backward trim, and a positive
one clears it and moves plant time forward, to its maximum at most, delivering the arrivals of each new value: a HELD order whose start
comes is DUE, and a DUE order whose end or lateness time comes fails as LATE (R168, R166, R64, R67, R68). The model's own: arrivals
still due are taken before plant time moves (log entry 2). -/
def Obligations.TrimClockTaken : Prop :=
  ∀ (s : State) (tag : Byte) (body : List Byte) (v : Int), s.plantTime ≤ plantTimeMax → body.length = 1 →
    v = (byteAt body 0).toInt →
    (v < -2 ∨ 2 < v → exec (.trimClock tag body) s = .next (s.answered 20 tag 6 .badField [] s.taken)) ∧
    (-2 ≤ v → v ≤ 0 →
      exec (.trimClock tag body) s = .next (s.answered 20 tag 6 .ok [] { s.taken with pendingTrim := v.natAbs })) ∧
    (0 < v → v ≤ 2 →
      ∃ t : State, exec (.trimClock tag body) s = .next (s.answered 20 tag 6 .ok [] t) ∧
        t.plantTime = min (s.plantTime + v.natAbs) plantTimeMax ∧ t.pendingTrim = 0 ∧
        ∀ (h : Handle) (r : Order) (i : Nat) (brought : Nat → Prop), s.mode = .dispatch → s.named = [] →
          (∀ e ∈ s.due, e.isArrival = false) → s.plantTime < i → i ≤ s.plantTime + v.natAbs → i ≤ plantTimeMax →
          (∀ n, brought n ↔ s.plantTime < n ∧ n ≤ s.plantTime + v.natAbs) →
          (∀ k q, s.order? k = some q → k ≠ h →
            ¬ brought q.start ∧ (∀ e, q.finish = some e → ¬ brought e) ∧ ∀ d, q.tolerance = some d → ¬ brought (q.start + d)) →
          s.order? h = some r → r.partner = none → r.successor = none → r.retirePending = false →
          (r.life = .held → r.start = i → (∀ e, r.finish = some e → s.plantTime + v.natAbs < e) →
            (∀ d, r.tolerance = some d → s.plantTime + v.natAbs < r.start + d) → (s.unit r.unit).isolated = false →
            (s.unit r.unit).context ≠ .idle →
            t.order? h = some { r with life := .due, unseen := true } ∧ t.latched .orderChanged = true) ∧
          (r.life = .due → r.start ≤ s.plantTime →
            (r.finish = some i ∧ r.tolerance = none) ∨
              (r.finish = none ∧ (∃ d, r.tolerance = some d ∧ r.start + d = i) ∧
                ∀ k q, s.order? k = some q → q.successor ≠ some h) →
            t.order? h = some { r with life := .failed .late i, unseen := true } ∧ t.latched .orderFailed = true))

/-! ## The Attention Unit (11.5) -/

/-- Raising an event sets the latch of its kind, whatever the mask and the latch were, and has no other effect; ATTN is asserted exactly
while a latch is set whose enable is also set (R189, R190). -/
def Obligations.LatchesAndAttention : Prop :=
  (∀ (s : State) (e : EventKind), (s.raise e).latched e = true ∧
     (∀ e', e' ≠ e → (s.raise e).latched e' = s.latched e') ∧ s.raise e = { s with latches := (s.raise e).latches }) ∧
  (∀ s : State, s.attn = true ↔ ∃ e : EventKind, s.latched e = true ∧ s.mask.getLsbD e.index = true)

/-- READ_EVENTS reports the latches and the mask and changes neither; SET_EVENT_MASK replaces the mask; CLEAR_EVENTS clears the
latches named and no other; a set that names a kind outside the ten is refused with BAD_FIELD (R191). -/
def Obligations.EventRequestsTaken : Prop :=
  (∀ (s : State) (tag : Byte), exec (.readEvents tag []) s =
    .next (s.answered 21 tag 5 .ok (beBytes 2 s.taken.latches.toNat ++ beBytes 2 s.mask.toNat) s.taken)) ∧
  ∀ (s : State) (tag : Byte) (body : List Byte), body.length = 2 →
    (1024 ≤ field body 0 2 →
      exec (.setEventMask tag body) s = .next (s.answered 22 tag 7 .badField [] s.taken) ∧
        exec (.clearEvents tag body) s = .next (s.answered 23 tag 7 .badField [] s.taken)) ∧
    (field body 0 2 < 1024 →
      exec (.setEventMask tag body) s =
          .next (s.answered 22 tag 7 .ok [] { s.taken with mask := BitVec.ofNat 10 (field body 0 2) }) ∧
        ∃ l : BitVec 10, exec (.clearEvents tag body) s = .next (s.answered 23 tag 7 .ok [] { s.taken with latches := l }) ∧
          ∀ e : EventKind, l.getLsbD e.index = (s.taken.latched e && !(field body 0 2).testBit e.index))

/-! ## Reading the part -/

/-- READ_CLOCK reports plant time and the pending trim; IDENTIFY reports part code, revision, capacities and the units latched
present. Neither changes any state (R170, R180). -/
def Obligations.ClockAndIdentityRead : Prop :=
  ∀ (s : State) (tag : Byte),
    exec (.readClock tag []) s =
      .next (s.answered 18 tag 5 .ok (beBytes 4 s.plantTime ++ beBytes 1 s.pendingTrim) s.taken) ∧
    ∃ present : Byte, (∀ u : UnitNo, present.getLsbD u = (s.unit u).present) ∧
      exec (.identify tag []) s =
        .next (s.answered 31 tag 5 .ok [0x5D, 0x08, 3, 64, 8, 2, 2, 4, 8, 8, present] s.taken)

/-- CONVERTER_STATUS, WATERWAY_STATUS, UNIT_STATUS and GAUGE_STATUS change no state and report every item of Table 12-8 as it stands;
an object number outside its range is refused with BAD_FIELD (R104, R125, R150, R162). The model's own: WATERWAY_STATUS lists the
orders its Ramp Controller holds by increasing unit (log entry 25), and a pending exchange is reported only while the link is UP and
has pages collected (log entries 15, 56). -/
def Obligations.StatusRequestsReport : Prop :=
  ∀ (s : State) (tag : Byte),
    (∃ out : List Byte, exec (.converterStatus tag []) s = .next (s.answered 12 tag 5 .ok out s.taken) ∧
      (∀ c : ConverterNo, ∃ item : List Byte, (out.drop (11 * c)).take 11 = item ∧
        item.take 3 = beBytes 1 (s.converter c).state.code ++ boolByte (s.converter c).faultLine ++
          boolByte (s.converter c).outRequest ∧
        (∀ h u n, (s.converter c).state = .running h u n →
          item.drop 3 = [3] ++ beBytes 2 h ++ beBytes 1 u ++ beBytes 2 n ++ [0, 0]) ∧
        (∀ n, (s.converter c).state = .cooling n → item.drop 3 = [4, 0, 0, 0, 0, 0] ++ beBytes 2 n) ∧
        ((s.converter c).state = .free ∨ (s.converter c).state = .out → item.drop 3 = List.replicate 8 0)) ∧
      (∀ u : UnitNo, (byteAt out 22).getLsbD u = (s.unit u).lastConverter.isSome ∧
        byteAt out (23 + u) = BitVec.ofNat 8 (((s.unit u).lastConverter.map Fin.val).getD 0)) ∧
      out.drop 31 = beBytes 1 s.startQueue.length ++ s.startQueue.flatMap fun e => beBytes 2 e.handle) ∧
    ∀ body : List Byte, body.length = 1 →
      (∀ w : WaterwayNo, byteAt body 0 = BitVec.ofNat 8 w →
        ∃ out : List Byte, exec (.waterwayStatus tag body) s = .next (s.answered 13 tag 6 .ok out s.taken) ∧
          out.take 26 = boolByte (s.waterway w).configured ++ beBytes 4 (s.waterway w).hAdm ++ beBytes 2 (s.waterway w).qgLim ++
            beBytes 2 (s.waterway w).qpLim ++ beBytes 2 (s.waterway w).allowance ++ beBytes 2 (s.waterway w).spacingTime ++
            beBytes 4 (s.waterway w).liveHead ++ boolByte (s.waterway w).headLow ++ beSigned 4 (s.waterway w).netFlow ++
            beSigned 4 (s.plan w s.plantTime) ∧
          (List.range 8).map (byteAt out 26).getLsbD =
            [(s.waterway w).pumpInhibit, (s.waterway w).genInhibit, (s.waterway w).excessUnresolved, (s.waterway w).pumpExcess,
              (s.waterway w).spacing.isSome, false, false, false] ∧
          byteAt out 27 = (if (s.waterway w).spacing = none then 0 else 1) ∧
          (out.drop 28).take 3 = optBytes 2 (s.waterway w).spacing ++ beBytes 1 (s.waterway w).queue.length ∧
          ∃ held : List (UnitNo × Handle × Order × Nat), held.Pairwise (fun a b => a.1 < b.1) ∧
            (∀ u h r p, (u, h, r, p) ∈ held ↔ (s.unit u).waterway = w ∧ s.engagedOrder u = some (h, r) ∧ r.mode = .generate ∧
              (s.unit u).setpoint = some p) ∧
            out.drop 31 =
              ((s.waterway w).queue.flatMap fun e => (if e.kind = .start then (0 : Byte) else 1) :: beBytes 2 e.handle) ++
                beBytes 1 (s.waterway w).pointer ++ beBytes 1 held.length ++
                held.flatMap fun x => beBytes 2 x.2.1 ++ beBytes 1 x.1 ++ beBytes 2 x.2.2.2 ++
                  beBytes 2 (match (s.unit x.1).ceiling with | some c => min x.2.2.1.target c | none => x.2.2.1.target) ++
                  optBytes 2 (s.unit x.1).ceiling ++ optBytes 2 (s.unit x.1).pendingSetpoint ++
                  beBytes 1 (bitsOf [(s.unit x.1).ceiling.isSome, x.2.2.1.curtailed, (s.unit x.1).link.silent,
                    (s.unit x.1).pendingSetpoint.isSome])) ∧
      (∀ (u : UnitNo) (b : UnitBlock), byteAt body 0 = BitVec.ofNat 8 u → b = s.unit u →
        ∃ out : List Byte, exec (.unitStatus tag body) s = .next (s.answered 14 tag 6 .ok out s.taken) ∧ out.length = 143 ∧
          out.take 5 = beBytes 1 b.context.code ++ boolByte b.isolated ++ beBytes 1 b.waterway ++ beBytes 1 b.eligible.toNat ++
            beBytes 1 b.link.state.code ∧
          (∀ r, b.link.lastReport = some r → (out.drop 5).take 5 =
            beBytes 1 (if b.link.sinceUp = true then 3 else 1) ++ beBytes 1 (MachineState.code r.state) ++ beSigned 2 r.power ++
              beBytes 1 (ControlPlace.code r.place)) ∧
          (b.link.lastReport = none → (out.drop 5).take 5 = List.replicate 5 0) ∧
          (List.range 8).map (byteAt out 10).getLsbD =
            [b.link.current.isSome, decide (b.link.state = .up) && b.link.collecting.isSome, (b.link.current.bind (·.pump)).isSome,
              false, false, false, false, false] ∧
          (b.link.current = none → (out.drop 11).take 115 = List.replicate 115 0) ∧
          (∀ c, b.link.current = some c →
            (out.drop 11).take 51 = beBytes 1 c.modes.toNat ++ beBytes 4 c.href ++ beBytes 2 c.pmin ++ beBytes 2 c.pmax ++
              beBytes 2 c.genStart ++ beBytes 2 c.pumpStart ++ beBytes 2 c.genStop ++ beBytes 2 c.pumpStop ++ beBytes 2 c.dwell ++
              (List.finRange 8).flatMap (fun i => beBytes 2 c.powers[i] ++ beBytes 2 c.flows[i]) ∧
            (c.pump = none → (out.drop 62).take 64 = List.replicate 64 0) ∧
            ∀ x, c.pump = some x → (out.drop 62).take 64 =
              (List.finRange 8).flatMap fun i => beBytes 4 x.head[i] ++ beBytes 2 x.flow[i] ++ beBytes 2 x.power[i]) ∧
          (out.drop 126).take 2 = beSigned 2 b.contribution ∧
          (List.range 8).map (byteAt out 128).getLsbD =
            [decide (b.context = .dark), b.saturated, b.headOutside, (b.link.current.bind (·.pump)).isSome, false, false, false, false] ∧
          (out.drop 129).take 4 = (match b.link.current.bind (·.pump) with
            | some x => beBytes 2 (x.pumpFlow (s.headFor u)) ++ beBytes 2 (x.pumpPower (s.headFor u))
            | none => [0, 0, 0, 0]) ∧
          ∃ generates : Bool, (generates = true ↔ ∃ h r, s.engagedOrder u = some (h, r) ∧ r.mode = .generate) ∧
            (List.range 8).map (byteAt out 133).getLsbD =
              [(s.engagedOrder u).isSome, ((s.engagedOrder u).bind fun x => x.2.life.phaseCode).isSome, b.supervision.isSome,
                generates && b.setpoint.isSome, generates && b.pendingSetpoint.isSome, generates && b.link.silent, false, false] ∧
            (out.drop 134).take 2 = optBytes 2 ((s.engagedOrder u).map (·.1)) ∧
            (out.drop 136).take 1 = optBytes 1 ((s.engagedOrder u).bind fun x => x.2.life.phaseCode) ∧
            (out.drop 137).take 2 = optBytes 2 b.supervision ∧
            out.drop 139 = if generates = true then optBytes 2 b.setpoint ++ optBytes 2 b.pendingSetpoint else [0, 0, 0, 0]) ∧
      (∀ (g : GaugeNo) (x : Gauge), byteAt body 0 = BitVec.ofNat 8 g → x = s.gauge g →
        ∃ out : List Byte, exec (.gaugeStatus tag body) s = .next (s.answered 17 tag 6 .ok out s.taken) ∧ out.length = 30 ∧
          out.take 1 = beBytes 1 x.state.code ∧
          (List.range 8).map (byteAt out 1).getLsbD =
            [x.level.isSome, x.high, x.low, x.lastBad.isSome, x.lastTelegram.isSome, (x.lastTelegram.map (·.2)).getD false, false,
              false] ∧
          (out.drop 2).take 12 = optBytes 4 x.level ++ beBytes 1 x.goodRun ++ beBytes 1 x.badRun ++ beBytes 1 x.silence ++
            optBytes 1 (x.lastBad.map BadReason.code) ++ optBytes 4 (x.lastTelegram.map (·.1)) ∧
          (out.drop 14).take 14 = beBytes 4 x.highLimit ++ beBytes 4 x.lowLimit ++ beBytes 2 x.hysteresis ++
            beBytes 2 x.jumpLimit ++ beBytes 2 x.silenceLimit ∧
          ∀ w : WaterwayNo, (List.range 8).map (byteAt out (28 + w)).getLsbD =
            [decide ((s.waterway w).upper = g), decide ((s.waterway w).lower = g), false, false, false, false, false, false]) ∧
      (2 ≤ (byteAt body 0).toNat → exec (.waterwayStatus tag body) s = .next (s.answered 13 tag 6 .badField [] s.taken)) ∧
      (8 ≤ (byteAt body 0).toNat → exec (.unitStatus tag body) s = .next (s.answered 14 tag 6 .badField [] s.taken)) ∧
      (4 ≤ (byteAt body 0).toNat → exec (.gaugeStatus tag body) s = .next (s.answered 17 tag 6 .badField [] s.taken))

/-! ## Configuration (11.1 to 11.3) -/

/-- A CONFIGURE_WATERWAY whose new flow limits the waterway plan would break at some instant is refused with BAD_CONFIG. Any other in
range writes all the settings, sets the configured flag, and echoes the body (R184, R62). -/
def Obligations.WaterwayConfigured : Prop :=
  ∀ (s : State) (tag : Byte) (body : List Byte) (w : WaterwayNo) (x : WaterwaySettings), s.mode = .config →
    body.length = 15 → waterwaySettingsOf body = some (w, x) →
    ((x.qgLim ≠ (s.waterway w).qgLim ∨ x.qpLim ≠ (s.waterway w).qpLim) →
      (∃ i : Nat, s.plan w i < -(x.qpLim : Int) ∨ (x.qgLim : Int) < s.plan w i) →
      exec (.configureWaterway tag body) s = .next (s.answered 24 tag 20 .badConfig [] s.taken)) ∧
    ((x.qgLim = (s.waterway w).qgLim ∧ x.qpLim = (s.waterway w).qpLim) ∨
      (∀ i : Nat, -(x.qpLim : Int) ≤ s.plan w i ∧ s.plan w i ≤ (x.qgLim : Int)) →
      ∃ t : State, exec (.configureWaterway tag body) s = .next (s.answered 24 tag 20 .ok body t) ∧
        (t.waterway w).configured = true ∧ (t.waterway w).hAdm = x.hAdm ∧ (t.waterway w).qgLim = x.qgLim ∧
        (t.waterway w).qpLim = x.qpLim ∧ (t.waterway w).allowance = x.allowance ∧
        (t.waterway w).spacingTime = x.spacingTime ∧ (t.waterway w).upper = x.upper ∧ (t.waterway w).lower = x.lower ∧
        t.gauges = s.gauges ∧ t.plantTime = s.plantTime)

/-- A CONFIGURE_GAUGE in range writes the five settings and echoes the body. State, level and runs of the gauge stand, and where a
limit or the hysteresis changes, the limit flags are those the held level gives (R184, R185, R157). -/
def Obligations.GaugeConfigured : Prop :=
  ∀ (s : State) (tag : Byte) (body : List Byte) (g : GaugeNo) (x : GaugeSettings), s.mode = .config →
    body.length = 15 → gaugeSettingsOf body = some (g, x) →
    ∃ t : State, exec (.configureGauge tag body) s = .next (s.answered 25 tag 20 .ok body t) ∧
      t.gauge g =
        { s.gauge g with
          highLimit := x.highLimit
          lowLimit := x.lowLimit
          hysteresis := x.hysteresis
          jumpLimit := x.jumpLimit
          silenceLimit := x.silenceLimit
          high := (t.gauge g).high
          low := (t.gauge g).low } ∧
      (∀ g', g' ≠ g → t.gauge g' = s.gauge g') ∧
      ∀ v, (s.gauge g).level = some v →
        x.highLimit ≠ (s.gauge g).highLimit ∨ x.lowLimit ≠ (s.gauge g).lowLimit ∨ x.hysteresis ≠ (s.gauge g).hysteresis →
        (x.highLimit ≤ v → (t.gauge g).high = true) ∧ (v + x.hysteresis ≤ x.highLimit → v < x.highLimit → (t.gauge g).high = false) ∧
          (v ≤ x.lowLimit → (t.gauge g).low = true) ∧
          (x.lowLimit + x.hysteresis ≤ v → x.lowLimit < v → (t.gauge g).low = false)

/-- A CONFIGURE_UNIT that leaves the unit on its waterway writes its eligible converters. One that moves it is refused with BAD_CONFIG
while the unit has a live pair leg, or where the plan of either waterway would leave its limits; otherwise it takes effect on the
live net flow of both waterways. A request that is taken echoes its body (R184, R62, R34). -/
def Obligations.UnitConfigured : Prop :=
  ∀ (s : State) (tag : Byte) (body : List Byte) (u : UnitNo) (w : WaterwayNo) (e : BitVec 2), s.mode = .config →
    body.length = 3 → unitSettingsOf body = some (u, w, e) →
    let moved := s.setUnit u { s.unit u with waterway := w, eligible := e }
    (w = (s.unit u).waterway →
      exec (.configureUnit tag body) s =
        .next (s.answered 26 tag 8 .ok body (s.taken.setUnit u { s.unit u with eligible := e }))) ∧
    (w ≠ (s.unit u).waterway →
      (∃ h r, s.order? h = some r ∧ r.unit = u ∧ r.life.live = true ∧ r.partner.isSome = true) ∨
        (∃ v i, moved.plan v i < -((s.waterway v).qpLim : Int) ∨ ((s.waterway v).qgLim : Int) < moved.plan v i) →
      exec (.configureUnit tag body) s = .next (s.answered 26 tag 8 .badConfig [] s.taken)) ∧
    (w ≠ (s.unit u).waterway →
      (∀ h r, s.order? h = some r → r.unit = u → r.life.live = true → r.partner = none) →
      (∀ v i, -((s.waterway v).qpLim : Int) ≤ moved.plan v i ∧ moved.plan v i ≤ ((s.waterway v).qgLim : Int)) →
      ∃ t : State, exec (.configureUnit tag body) s = .next (s.answered 26 tag 8 .ok body t) ∧
        (t.unit u).waterway = w ∧ (t.unit u).eligible = e ∧
        ∀ v, (t.waterway v).netFlow = (allUnits.map fun k => if (t.unit k).waterway = v then (t.unit k).contribution else 0).sum)

/-- CONFIGURE_CONVERTER writes the settings of one converter and the retry setting of both; CONFIGURE_SUPERVISION writes the
supervision settings. Each echoes its body, and nothing else changes (R184, R185). -/
def Obligations.ConverterAndSupervisionConfigured : Prop :=
  ∀ (s : State) (tag : Byte) (body : List Byte), s.mode = .config →
    (∀ (c : ConverterNo) (run cool : Nat) (retry : Bool), body.length = 6 →
      converterSettingsOf body = some (c, run, cool, retry) →
      exec (.configureConverter tag body) s = .next (s.answered 27 tag 11 .ok body
        { s.taken.setConverter c { s.converter c with runLimit := run, coolDown := cool } with retry := retry })) ∧
    (∀ x : Supervision, body.length = 11 → supervisionOf body = some x →
      exec (.configureSupervision tag body) s = .next (s.answered 28 tag 16 .ok body { s.taken with supervision := x }))

/-- A configuration request whose object number or any setting lies outside the range of Table 11-1 is refused with BAD_FIELD, and so
writes nothing (R184, Table 11-1). -/
def Obligations.SettingsOutOfRangeRefused : Prop :=
  ∀ (s : State) (tag : Byte) (body : List Byte), s.mode = .config →
    (body.length = 15 →
      ¬ ((byteAt body 0).toNat < 2 ∧ (500 ≤ field body 1 4 ∧ field body 1 4 ≤ 90000) ∧
        (1 ≤ field body 5 2 ∧ field body 5 2 ≤ 9999) ∧ (1 ≤ field body 7 2 ∧ field body 7 2 ≤ 9999) ∧
        (1 ≤ field body 9 2 ∧ field body 9 2 ≤ 9999) ∧ field body 11 2 ≤ 900 ∧ (byteAt body 13).toNat < 4 ∧
        (byteAt body 14).toNat < 4) →
      exec (.configureWaterway tag body) s = .next (s.answered 24 tag 20 .badField [] s.taken)) ∧
    (body.length = 15 →
      ¬ ((byteAt body 0).toNat < 4 ∧ field body 1 4 ≤ 100000 ∧ field body 5 4 ≤ 100000 ∧
        (1 ≤ field body 9 2 ∧ field body 9 2 ≤ 1000) ∧ (1 ≤ field body 11 2 ∧ field body 11 2 ≤ 1000) ∧
        (1 ≤ field body 13 2 ∧ field body 13 2 ≤ 60)) →
      exec (.configureGauge tag body) s = .next (s.answered 25 tag 20 .badField [] s.taken)) ∧
    (body.length = 3 →
      ¬ ((byteAt body 0).toNat < 8 ∧ (byteAt body 1).toNat < 2 ∧ (byteAt body 2).toNat < 4) →
      exec (.configureUnit tag body) s = .next (s.answered 26 tag 8 .badField [] s.taken)) ∧
    (body.length = 6 →
      ¬ ((byteAt body 0).toNat < 2 ∧ (30 ≤ field body 1 2 ∧ field body 1 2 ≤ 1200) ∧ field body 3 2 ≤ 3600 ∧
        (byteAt body 5).toNat < 2) →
      exec (.configureConverter tag body) s = .next (s.answered 27 tag 11 .badField [] s.taken)) ∧
    (body.length = 11 →
      ¬ (field body 0 2 ≤ 900 ∧ field body 2 2 ≤ 900 ∧ (1 ≤ field body 4 2 ∧ field body 4 2 ≤ 10) ∧
        (1 ≤ field body 6 2 ∧ field body 6 2 ≤ 30) ∧ 1 ≤ field body 8 1 ∧ (1 ≤ field body 9 2 ∧ field body 9 2 ≤ 60)) →
      exec (.configureSupervision tag body) s = .next (s.answered 28 tag 16 .badField [] s.taken))

/-- START_DISPATCH is refused with BAD_CONFIG unless the four checks on the configuration pass. Otherwise the mode is DISPATCH; where
plant time has passed no HELD record nothing else changes. Every single HELD record passed is settled: one whose end or lateness time
is passed fails as LATE, and any other receives its start arrival, by which it fails on an isolated unit, is DUE on a unit that is not
IDLE, and engages on an IDLE one where it alone is passed (R186, R23, R64 to R66). -/
def Obligations.DispatchStarted : Prop :=
  ∀ (s : State) (tag : Byte) (right : Prop), s.mode = .config →
    (right ↔ (∀ u, (s.unit u).present = true →
        (s.waterway (s.unit u).waterway).configured = true ∧
        (s.waterway (s.unit u).waterway).upper ≠ (s.waterway (s.unit u).waterway).lower ∧
        ∀ g, g = (s.waterway (s.unit u).waterway).upper ∨ g = (s.waterway (s.unit u).waterway).lower →
          ((s.gauge g).lowLimit : Int) + (s.gauge g).hysteresis < ((s.gauge g).highLimit : Int) - (s.gauge g).hysteresis) ∧
      ∀ u c, (s.unit u).present = true → (s.unit u).link.current = some c → (c.offers .pump = true ∨ c.offers .condenseP = true) →
        (s.unit u).eligible ≠ 0) →
    (¬ right → exec (.startDispatch tag []) s = .next (s.answered 29 tag 5 .badConfig [] s.taken)) ∧
    (right → (∀ h r, s.order? h = some r → r.life = .held →
        s.plantTime < r.start ∧ (∀ e, r.finish = some e → s.plantTime < e) ∧
          ∀ d, r.tolerance = some d → s.plantTime < r.start + d) →
      exec (.startDispatch tag []) s = .next (s.answered 29 tag 5 .ok [] { s.taken with mode := .dispatch })) ∧
    (right → s.named = [] → s.PassesAlone s.plantTime →
      ∃ t : State, exec (.startDispatch tag []) s = .next (s.answered 29 tag 5 .ok [] t) ∧ t.mode = .dispatch ∧
        s.SettlesTo t s.plantTime ∧
        ((∃ h r, s.order? h = some r ∧ r.life = .held ∧ r.PassedBy s.plantTime) → t.latched .orderFailed = true) ∧
        ((∃ h r, s.order? h = some r ∧ r.life = .held ∧ ¬ r.PassedBy s.plantTime ∧ r.start ≤ s.plantTime) →
          t.latched .orderChanged = true)) ∧
    ∀ (h : Handle) (r : Order), right → s.named = [] → s.PassesIdle s.plantTime h r →
      ∃ t : State, exec (.startDispatch tag []) s = .next (s.answered 29 tag 5 .ok [] t) ∧ t.mode = .dispatch ∧ s.EngagesTo t h r

/-- STOP_DISPATCH is refused with BUSY while an order is DUE or engaged or a converter is RUNNING; otherwise the mode is CONFIG and
nothing else changes (R187). -/
def Obligations.DispatchStopped : Prop :=
  ∀ (s : State) (tag : Byte), s.mode = .dispatch →
    ((∃ h r, s.order? h = some r ∧ (r.life = .due ∨ r.life.engaged = true)) ∨
        (∃ c h u n, (s.converter c).state = .running h u n) →
      exec (.stopDispatch tag []) s = .next (s.answered 30 tag 5 .busy [] s.taken)) ∧
    ((∀ h r, s.order? h = some r → r.life ≠ .due ∧ r.life.engaged = false) →
      (∀ c h u n, (s.converter c).state ≠ .running h u n) →
      exec (.stopDispatch tag []) s = .next (s.answered 30 tag 5 .ok [] { s.taken with mode := .config }))

/-- RESET returns every block to its reset values: the table is empty and every handle issued before is stale, queues are empty,
converters rest or are OUT, links are DOWN, gauges UNKNOWN, latches and mask clear. Settings, straps, contributions, flow saturated
indications, live net flows, gate spacing, plant time and the pending trim stand, and no frame is sent (R181, R21, R40, R105, R112,
R126, R152, R163, R171, R192). The model's own: a converter whose cool-down is 0 is FREE at once (log entry 26), and the model's
fields are cleared (log entries 6, 27). -/
def Obligations.ResetClearsBlocks : Prop :=
  ∀ (s : State) (tag : Byte), ∃ t : State, exec (.reset tag []) s = .next (s.answered 32 tag 5 .ok [] t) ∧
    t.mode = .config ∧ t.latches = 0 ∧ t.mask = 0 ∧ t.startQueue = [] ∧ t.linkOut = [] ∧
    t.plantTime = s.plantTime ∧ t.pendingTrim = s.pendingTrim ∧ t.supervision = s.supervision ∧ t.retry = s.retry ∧
    (∀ k, (t.slot k).order = none ∧ (t.slot k).generation =
      if (s.slot k).order = none then (s.slot k).generation
      else if (s.slot k).generation = 1023 then 1 else (s.slot k).generation + 1) ∧
    (∀ u, t.unit u =
      { present := (s.unit u).present
        waterway := (s.unit u).waterway
        eligible := (s.unit u).eligible
        link := { Link.reset with lastReport := (s.unit u).link.lastReport }
        context := if (s.unit u).present then .dark else .absent
        isolated := false
        supervision := none
        motion := false
        lastConverter := none
        contribution := (s.unit u).contribution
        saturated := (s.unit u).saturated
        headOutside := false
        setpoint := none
        ceiling := none
        pendingSetpoint := none }) ∧
    (∀ c, t.converter c =
      { s.converter c with
        state :=
          if (s.converter c).faultLine then .out
          else if (s.converter c).coolDown = 0 then .free else .cooling (s.converter c).coolDown
        outRequest := false }) ∧
    (∀ w, t.waterway w =
      { s.waterway w with
        liveHead := (s.waterway w).hAdm
        headLow := false
        pumpInhibit := true
        genInhibit := true
        queue := []
        nextRank := 0
        pointer := 0
        excessUnresolved := false
        pumpExcess := false }) ∧
    ∀ g, t.gauge g =
      { highLimit := (s.gauge g).highLimit
        lowLimit := (s.gauge g).lowLimit
        hysteresis := (s.gauge g).hysteresis
        jumpLimit := (s.gauge g).jumpLimit
        silenceLimit := (s.gauge g).silenceLimit
        state := .unknown
        level := none
        high := false
        low := false
        goodRun := 0
        badRun := 0
        silence := 0
        lastBad := none
        lastTelegram := none }

/-- Power-on gives every block its power-on values and latches the straps: a unit without one is ABSENT, and a converter whose fault
line is asserted is OUT. With every strap present and both lines clear this is the state after reset (R188, R105, R147; which straps
the model's reset state has is its own choice, log entry 5). -/
def Obligations.PowerOnLatchesStraps : Prop :=
  (∀ s : State, (∀ c, (s.converter c).faultLine = false) →
    exec (.powerOn 0xFF) s = .next { State.reset with pending := s.pending }) ∧
  ∀ (straps : BitVec 8) (s : State), ∃ t : State, exec (.powerOn straps) s = .next t ∧
    t = { State.reset with units := t.units, converters := t.converters, pending := s.pending } ∧
    (∀ u : UnitNo, t.unit u =
      { State.reset.unit u with
        present := straps.getLsbD u
        context := if straps.getLsbD u then .dark else .absent }) ∧
    ∀ c, t.converter c =
      { State.reset.converter c with
        faultLine := (s.converter c).faultLine
        state := if (s.converter c).faultLine then .out else .cooling 600 }

/-! ## Requests on orders (1.5, 1.6) -/

/-- LOOKUP reports every field of the record a handle names, each marked present or absent, with the setpoint of an engaged GENERATE
order; the unseen flag is reported as it stood and then cleared, and nothing else changes. A stale handle is answered NO_SUCH_ORDER
(R14, Table 12-3). -/
def Obligations.RecordLookedUp : Prop :=
  ∀ (s : State) (tag : Byte) (body : List Byte) (h : Handle), s.mode = .dispatch → body.length = 2 → h = field body 0 2 →
    (s.order? h = none → exec (.lookup tag body) s = .next (s.answered 5 tag 7 .noSuchOrder [] s.taken)) ∧
    ∀ r : Order, s.order? h = some r → ∃ out : List Byte,
      exec (.lookup tag body) s = .next (s.answered 5 tag 7 .ok out
        (s.taken.setSlot (slotOf h) { s.slot (slotOf h) with order := some { r with unseen := false } })) ∧
      out.length = 43 ∧
      out.take 7 = beBytes 2 h ++ beBytes 1 r.unit ++ beBytes 1 r.mode.code ++ beBytes 1 r.cls.code ++
        beBytes 1 r.life.stateCode ++ optBytes 1 r.life.phaseCode ∧
      (List.range 16).map (field out 7 2).testBit =
        [r.life.phaseCode.isSome, r.finish.isSome, r.mode == .generate, r.mode == .generate, r.tolerance.isSome,
          r.partner.isSome, r.pairSense.isSome, r.successor.isSome, r.actualStart.isSome, r.life.actualEnd.isSome,
          r.life.causeCode.isSome, r.mode == .pump || r.mode == .condenseP, r.mode == .generate, r.mode == .generate,
          r.mode == .generate && r.life.engaged && (s.unit r.unit).setpoint.isSome, false] ∧
      (out.drop 9).take 30 = beBytes 4 r.start ++ optBytes 4 r.finish ++
        (if r.mode = .generate then beBytes 2 r.target ++ beBytes 2 r.ramp else [0, 0, 0, 0]) ++ optBytes 2 r.tolerance ++
        optBytes 2 r.partner ++ optBytes 1 (r.pairSense.map PairSense.code) ++ optBytes 2 r.successor ++
        beSigned 2 r.plannedFlow ++ optBytes 4 r.actualStart ++ optBytes 4 r.life.actualEnd ++ optBytes 1 r.life.causeCode ∧
      out.drop 39 = (if r.mode = .pump ∨ r.mode = .condenseP then beBytes 1 r.attempts else [0]) ++
        beBytes 1 (bitsOf [r.retirePending, r.mode == .generate && r.derated, r.mode == .generate && r.curtailed, r.unseen]) ++
        optBytes 2 (if r.mode = .generate ∧ r.life.engaged = true then (s.unit r.unit).setpoint else none)

/-- LIST_UNIT gives the handles of all the records of a unit, the live ones first in chain order and then those in DONE and FAILED in
increasing slot order; LIST_STATE gives in increasing slot order those of every record whose state is in the set and, with the option,
whose unseen flag is set. Both change no state, and refuse a number or a set outside its range with BAD_FIELD (R15, R16). -/
def Obligations.RecordsListed : Prop :=
  (∀ (s : State) (tag : Byte) (body : List Byte), s.mode = .dispatch → body.length = 1 →
     (8 ≤ (byteAt body 0).toNat → exec (.listUnit tag body) s = .next (s.answered 6 tag 6 .badField [] s.taken)) ∧
     ∀ u : UnitNo, byteAt body 0 = BitVec.ofNat 8 u → ∃ live ended : List Handle,
       exec (.listUnit tag body) s = .next (s.answered 6 tag 6 .ok
         (beBytes 1 (live.length + ended.length) ++ (live ++ ended).flatMap (beBytes 2)) s.taken) ∧
       live.length + ended.length ≤ 64 ∧ (live ++ ended).Nodup ∧
       (∀ h, h ∈ live ↔ ∃ r, s.order? h = some r ∧ r.unit = u ∧ r.life.live = true) ∧
       (∀ h, h ∈ ended ↔ ∃ r, s.order? h = some r ∧ r.unit = u ∧ r.life.live = false) ∧
       live.Pairwise (fun a b => ∀ p q, s.order? a = some p → s.order? b = some q → p.start ≤ q.start) ∧
       ended.Pairwise (fun a b => slotOf a < slotOf b)) ∧
  (∀ (s : State) (tag : Byte) (body : List Byte), s.mode = .dispatch → body.length = 2 →
     (128 ≤ (byteAt body 0).toNat ∨ 2 ≤ (byteAt body 1).toNat →
       exec (.listState tag body) s = .next (s.answered 7 tag 7 .badField [] s.taken)) ∧
     ((byteAt body 0).toNat < 128 → (byteAt body 1).toNat < 2 → ∃ hs : List Handle,
       exec (.listState tag body) s = .next (s.answered 7 tag 7 .ok (beBytes 1 hs.length ++ hs.flatMap (beBytes 2)) s.taken) ∧
       hs.length ≤ 64 ∧ hs.Pairwise (fun a b => slotOf a < slotOf b) ∧
       ∀ h, h ∈ hs ↔ ∃ r, s.order? h = some r ∧ (byteAt body 0).getLsbD r.life.stateCode = true ∧
         (byteAt body 1 = 1 → r.unseen = true)))

/-- RETIRE frees at once a single record in HELD, DUE, DONE, FAILED or an early phase of STARTING: its slot is free with the next
generation and no record names it as successor. A single order that turns its machine is answered ACCEPTED_STOPPING instead, and its
stop begins as at its window end: a RUNNING GENERATE order above Pmin unloads, any other RUNNING order waits for the gate, and one in
RUNUP runs down with ABORT_START. RETIRE of a leg retires its pair: two legs that are not engaged are both freed, and of two RUNNING ones
the GENERATE leg begins its stop and the PUMP leg stays RUNNING until that leg has ended (R17, R18, R20, R10, R75, R81, Table 1-6,
Table 4-3). -/
def Obligations.RetireTaken : Prop :=
  (∀ (s : State) (tag : Byte) (body : List Byte) (h : Handle) (r : Order), s.mode = .dispatch → body.length = 2 →
     h = field body 0 2 → s.order? h = some r → r.partner = none →
     (r.life.engaged = false → ∃ t : State,
       exec (.retire tag body) s = .next (s.answered 4 tag 7 .ok [] t) ∧ t = { s.taken with slots := t.slots } ∧
       t.slot (slotOf h) =
         { generation := if (s.slot (slotOf h)).generation = 1023 then 1 else (s.slot (slotOf h)).generation + 1, order := none } ∧
       ∀ k, k ≠ slotOf h → t.slot k =
         { s.slot k with
           order := (s.slot k).order.map fun q => if q.successor = some h then { q with successor := none } else q }) ∧
     (r.life = .starting .queuedConverter ∨ r.life = .starting .pairHold ∨
         (r.life = .starting .awaitingGate ∧ r.mode ≠ .pump) →
       r.successor = none → (∀ k q, s.order? k = some q → q.unit = r.unit → q.life ≠ .due) → ∃ t : State,
       exec (.retire tag body) s = .next (s.answered 4 tag 7 .ok [] t) ∧ t.order? h = none ∧
       (t.unit r.unit).context = .idle ∧ (∀ e ∈ t.startQueue, e.handle ≠ h) ∧
       ∀ e ∈ (t.waterway (s.unit r.unit).waterway).queue, e.handle ≠ h)) ∧
  (∀ (s : State) (tag : Byte) (body : List Byte) (h : Handle) (r : Order), s.mode = .dispatch → body.length = 2 →
     h = field body 0 2 → s.order? h = some r → r.partner = none → r.successor = none →
     ((∃ p c, r.life = .stopping p c) →
       exec (.retire tag body) s = .next (s.answered 4 tag 7 .acceptedStopping []
         (s.taken.setSlot (slotOf h) { s.slot (slotOf h) with order := some { r with retirePending := true } }))) ∧
     (r.life = .running → (s.waterway (s.unit r.unit).waterway).spacing.isSome = true →
       (∀ p c, r.mode = .generate → (s.unit r.unit).setpoint = some p → (s.unit r.unit).link.current = some c → c.pmin < p →
         ∃ t : State, exec (.retire tag body) s = .next (s.answered 4 tag 7 .acceptedStopping [] t) ∧
           t.order? h = some { r with life := .stopping .unloading .windowEnd, retirePending := true } ∧
           t.latches = s.taken.latches ∧ t.linkOut = []) ∧
       (r.mode ≠ .generate →
         ∃ t : State, exec (.retire tag body) s = .next (s.answered 4 tag 7 .acceptedStopping [] t) ∧
           t.order? h = some { r with life := .stopping .awaitingGate .windowEnd, retirePending := true } ∧
           (∃ e ∈ (t.waterway (s.unit r.unit).waterway).queue, e.handle = h ∧ e.kind = .stop ∧ e.unit = r.unit) ∧
           t.latches = s.taken.latches ∧ t.linkOut = [])) ∧
     (r.life = .starting .runup → (s.unit r.unit).link.state = .up → (s.unit r.unit).link.outstanding = none →
       ∃ t : State, exec (.retire tag body) s = .next (s.answered 4 tag 7 .acceptedStopping [] t) ∧
         t.order? h = some { r with life := .stopping .rundown .windowEnd, retirePending := true } ∧
         t.linkOut = [(r.unit, .directive (s.unit r.unit).link.toggle .abortStart)] ∧
         (t.unit r.unit).supervision = some (s.rundownTime r.unit r.mode))) ∧
  ∀ (s : State) (tag : Byte) (body : List Byte) (h g : Handle) (r q : Order), s.mode = .dispatch → body.length = 2 →
    field body 0 2 = h ∨ field body 0 2 = g → s.IsPair h g r q →
    (r.life.engaged = false → q.life.engaged = false → ∃ t : State,
      exec (.retire tag body) s = .next (s.answered 4 tag 7 .ok [] t) ∧ t.order? h = none ∧ t.order? g = none) ∧
    ∀ p c, r.life = .running → q.life = .running → (s.waterway (s.unit q.unit).waterway).spacing.isSome = true →
      (s.unit q.unit).setpoint = some p → (s.unit q.unit).link.current = some c → c.pmin < p →
      ∃ t : State, exec (.retire tag body) s = .next (s.answered 4 tag 7 .acceptedStopping [] t) ∧
        t.order? g = some { q with life := .stopping .unloading .windowEnd, retirePending := true } ∧
        t.order? h = some { r with retirePending := true, awaited := some (r.awaited.getD .windowEnd) } ∧
        t.latches = s.taken.latches ∧ t.linkOut = []

/-! ## Admission (Chapter 3) -/

/-- Check 7: an offered window is refused exactly when it shares an instant with the window of another live order of the unit, windows
being half-open and an absent end without limit (R47). -/
def Obligations.OverlapIsASharedInstant : Prop :=
  ∀ (s : State) (c : Candidate), endsAfter c.start c.finish = true → s.WindowLaw →
    (s.check7 c = false ↔ ∃ (h : Handle) (r : Order) (t : Nat), s.order? h = some r ∧ r.unit = c.unit ∧ r.life.live = true ∧
      c.self ≠ some h ∧ inWindow c.start c.finish t = true ∧ inWindow r.start r.finish t = true)

/-- Check 8: the gap to each neighbour in the unit chain is 0 between two linkable orders, or at least the stop time of the earlier
order's mode and the standstill dwell; the earlier neighbour is judged first (R48, R49). -/
def Obligations.ChangeoverGapsJudged : Prop :=
  ∀ (s : State) (c : Candidate) (other : Handle → Order → Prop) (gap : Mode → Nat)
    (zero : Mode → Mode → Prop → Prop → Option Result → Prop),
    (∀ h r, other h r ↔ s.order? h = some r ∧ r.unit = c.unit ∧ r.life.live = true ∧ c.self ≠ some h) →
    (∀ m, gap m = s.capTime c.unit (fun x => if m = .pump ∨ m = .condenseP then x.pumpStop else x.genStop) +
      s.capTime c.unit (·.dwell)) →
    (∀ a b leg stopping v, zero a b leg stopping v ↔ (a ≠ b → v = some .changeoverShort) ∧ (a = b → leg → v = some .linked) ∧
      (a = b → ¬ leg → stopping → v = some .changeoverShort) ∧ (a = b → ¬ leg → ¬ stopping → v = none)) →
    ((∀ h r, other h r → ¬ r.start < c.start) → (c.finish = none ∨ ∀ h r, other h r → ¬ c.start < r.start) →
      s.check8 c = none) ∧
    (∀ h a e, other h a → a.start < c.start → (∀ h' b, other h' b → h' ≠ h → b.start < c.start → b.start < a.start) →
      (c.finish = none ∨ ∀ h r, other h r → ¬ c.start < r.start) → a.finish = some e →
      (e = c.start → zero a.mode c.mode (c.isLeg = true ∨ a.partner.isSome = true) (a.life.isStopping = true) (s.check8 c)) ∧
      (e < c.start → gap a.mode ≤ c.start - e → s.check8 c = none) ∧
      (e < c.start → c.start - e < gap a.mode → s.check8 c = some .changeoverShort)) ∧
    (∀ h b e, other h b → c.start < b.start → (∀ h' a, other h' a → h' ≠ h → c.start < a.start → b.start < a.start) →
      s.judgeEarlier c = none → c.finish = some e →
      (e = b.start → zero c.mode b.mode (c.isLeg = true ∨ b.partner.isSome = true) False (s.check8 c)) ∧
      (e < b.start → gap c.mode ≤ b.start - e → s.check8 c = none) ∧
      (e < b.start → b.start - e < gap c.mode → s.check8 c = some .changeoverShort)) ∧
    ∀ v, s.judgeEarlier c = some v → s.check8 c = some v

/-- Check 9, which looks at the offered start and the breakpoints of the plan alone, passes exactly when the plan with the offered flow
lies within the limits of the waterway at every instant of the offered window (R50, R51). -/
def Obligations.PlanKeepsLimitsThroughout : Prop :=
  ∀ (s : State) (w : WaterwayNo) (out : List Handle) (flow : Int) (start : Nat) (finish : Option Nat),
    endsAfter start finish = true →
    (s.check9 w out flow start finish = true ↔ ∀ t : Nat, inWindow start finish t = true →
      -((s.waterway w).qpLim : Int) ≤ planAt (s.planOrders w out) t + flow ∧
        planAt (s.planOrders w out) t + flow ≤ ((s.waterway w).qgLim : Int))

/-- A PLACE is judged by the checks of Table 3-1 in their order, and the first that fails gives the result (R42 to R46, R52). -/
def Obligations.PlaceJudgedInOrder : Prop :=
  ∀ (s : State) (tag : Byte) (body : List Byte) (o : Offer) (c2 c3 c4 c5 c6 c7 c9 : Prop) (refused : Result → Prop),
    s.mode = .dispatch → body.length = 18 →
    (∀ r, refused r ↔ exec (.place tag body) s = .next (s.answered 1 tag 23 r [] s.taken)) →
    (placeOf body = none → refused .badField) ∧
    (placeOf body = some o →
      (c2 ↔ ((s.unit o.unit).context = .idle ∨ (s.unit o.unit).context = .engaged ∨ (s.unit o.unit).context = .recovering ∨
        (s.unit o.unit).context = .orphan) ∧ (s.unit o.unit).isolated = false) →
      (c3 ↔ ∃ x, (s.unit o.unit).link.current = some x ∧ x.offers o.mode = true) →
      (c4 ↔ (o.mode = .generate → ∃ x, (s.unit o.unit).link.current = some x ∧ x.pmin ≤ o.target ∧ o.target ≤ x.pmax)) →
      (c5 ↔ ∀ e, o.finish = some e → max o.start s.plantTime < e) →
      (c6 ↔ (o.mode = .pump ∨ o.mode = .condenseP → ∃ x p, (s.unit o.unit).link.current = some x ∧ x.pump = some p ∧
        p.head[0] ≤ (s.waterway (s.unit o.unit).waterway).hAdm ∧ (s.waterway (s.unit o.unit).waterway).hAdm ≤ p.head[7])) →
      (c7 ↔ s.check7 (s.candidate o false) = true) →
      (c9 ↔ s.check9 (s.unit o.unit).waterway [] (s.flowOf o.unit o.mode o.target) (max o.start s.plantTime) o.finish = true) →
      (¬ c2 → refused .unitUnavailable) ∧ (c2 → ¬ c3 → refused .modeNotSupported) ∧
      (c2 → c3 → ¬ c4 → refused .targetRange) ∧ (c2 → c3 → c4 → ¬ c5 → refused .badWindow) ∧
      (c2 → c3 → c4 → c5 → ¬ c6 → refused .headRange) ∧ (c2 → c3 → c4 → c5 → c6 → ¬ c7 → refused .overlap) ∧
      (∀ v, c2 → c3 → c4 → c5 → c6 → c7 → s.check8 (s.candidate o false) = some v → refused v) ∧
      (c2 → c3 → c4 → c5 → c6 → c7 → s.check8 (s.candidate o false) = none → ¬ c9 → refused .flowLimit) ∧
      (c2 → c3 → c4 → c5 → c6 → c7 → s.check8 (s.candidate o false) = none → c9 →
        (∀ k, (s.slot k).order.isSome = true) → refused .tableFull))

/-- A PLACE that passes every check and whose start lies ahead takes the lowest free slot as a HELD record with the fields offered; the
links that check 8 found are written, and no flag is set and no event raised (R52, R3, R7, R9, R13). The model's own: the new link takes
the place of one by which an order that ended early still names the later neighbour (log entry 54). -/
def Obligations.PlaceAdmitted : Prop :=
  ∀ (s : State) (tag : Byte) (body : List Byte) (o : Offer) (k : SlotNo) (h : Handle), s.mode = .dispatch → body.length = 18 →
    placeOf body = some o → s.judgePlace o = none → s.plantTime < o.start →
    (s.slot k).order = none → (∀ j, j < k → (s.slot j).order.isSome = true) → h = (s.slot k).generation * 64 + k →
    ∃ t : State, exec (.place tag body) s = .next (s.answered 1 tag 23 .ok (beBytes 2 h) t) ∧
      t.order? h = some
        { unit := o.unit, mode := o.mode, cls := o.cls, start := o.start, finish := o.finish, target := o.target,
          ramp := o.ramp, tolerance := o.tolerance, life := .held, partner := none, pairSense := none,
          successor := s.linkAfter (s.candidate o false), plannedFlow := s.flowOf o.unit o.mode o.target, actualStart := none,
          attempts := 0, retirePending := false, derated := false, curtailed := false, unseen := false, awaited := none } ∧
      (∀ h' r', s.order? h' = some r' → t.order? h' = some
        (if s.linkBefore (s.candidate o false) = some h' then { r' with successor := some h }
          else if r'.successor.isSome = true ∧ r'.successor = s.linkAfter (s.candidate o false) then { r' with successor := none }
          else r')) ∧
      t = { s.taken with slots := t.slots, units := t.units } ∧
      ∀ u, t.unit u =
        { s.unit u with
          saturated := (s.unit u).saturated || (decide (u = o.unit) && s.flowSaturates o.unit o.mode o.target) }

/-- A PLACE whose start has come is DUE at once while its unit is not IDLE, and is STARTING when its unit is IDLE: a GENERATE or
CONDENSE_G order then waits with a START entry at a gate that is SPACING. On an ORPHAN that does what the order says it is RUNNING at
once, with the measured power brought within Pmin and target as its setpoint; while the inhibit of its mode is set its stop with cause
LIMIT begins in the same event, and a condensing order is not stopped (R52, R53, R64 to R66, R161). -/
def Obligations.PlaceTakesEffectAtOnce : Prop :=
  ∀ (s : State) (tag : Byte) (body : List Byte) (o : Offer) (k : SlotNo) (h : Handle), s.mode = .dispatch → body.length = 18 →
    placeOf body = some o → s.judgePlace o = none → o.start ≤ s.plantTime →
    (s.slot k).order = none → (∀ j, j < k → (s.slot j).order.isSome = true) → h = (s.slot k).generation * 64 + k →
    s.linkBefore (s.candidate o false) = none → s.linkAfter (s.candidate o false) = none → o.tolerance = none →
    (((s.unit o.unit).context = .engaged ∨ (s.unit o.unit).context = .recovering) →
      ∃ t r, exec (.place tag body) s = .next (s.answered 1 tag 23 .ok (beBytes 2 h) t) ∧ t.order? h = some r ∧
        r.life = .due ∧ r.start = s.plantTime ∧ r.unseen = false ∧ t.latches = s.taken.latches) ∧
    ((s.unit o.unit).context = .idle → (∀ h' r', s.order? h' = some r' → r'.unit = o.unit → r'.life ≠ .due) →
      (o.mode = .generate ∨ o.mode = .condenseG) → (s.waterway (s.unit o.unit).waterway).spacing.isSome = true →
      ∃ t r, exec (.place tag body) s = .next (s.answered 1 tag 23 .ok (beBytes 2 h) t) ∧ t.order? h = some r ∧
        r.life = .starting .awaitingGate ∧ (t.unit o.unit).context = .engaged ∧
        ∃ e ∈ (t.waterway (s.unit o.unit).waterway).queue, e.handle = h ∧ e.unit = o.unit ∧ e.kind = .start ∧ e.cls = o.cls) ∧
    ((s.unit o.unit).context = .orphan → (s.waterway (s.unit o.unit).waterway).spacing.isSome = true →
      (s.waterway (s.unit o.unit).waterway).pumpInhibit = false → (s.waterway (s.unit o.unit).waterway).genInhibit = false →
      ∀ p : Report, (s.unit o.unit).link.lastReport = some p → MachineState.adoptableAs p.state = some o.mode →
      ∃ t r, exec (.place tag body) s = .next (s.answered 1 tag 23 .ok (beBytes 2 h) t) ∧ t.order? h = some r ∧
        r.life = .running ∧ r.actualStart = some s.plantTime ∧ r.start = s.plantTime ∧ (t.unit o.unit).context = .engaged ∧
        ∀ c, o.mode = .generate → (s.unit o.unit).link.current = some c →
          (t.unit o.unit).setpoint = some (max c.pmin (min o.target p.power.toNat))) ∧
    ((s.unit o.unit).context = .orphan → (s.waterway (s.unit o.unit).waterway).spacing.isSome = true →
      ∀ p : Report, (s.unit o.unit).link.lastReport = some p → MachineState.adoptableAs p.state = some o.mode →
      (∀ c, o.mode = .generate → (s.waterway (s.unit o.unit).waterway).genInhibit = true →
        (s.unit o.unit).link.current = some c → c.pmin < o.target → (c.pmin : Int) < p.power →
        ∃ t r, exec (.place tag body) s = .next (s.answered 1 tag 23 .ok (beBytes 2 h) t) ∧ t.order? h = some r ∧
          r.life = .stopping .unloading .limit ∧ r.actualStart = some s.plantTime ∧ r.unseen = false ∧
          t.latches = s.taken.latches ∧ (t.unit o.unit).setpoint = some (min o.target p.power.toNat)) ∧
      (o.mode = .pump → (s.waterway (s.unit o.unit).waterway).pumpInhibit = true →
        ∃ t r, exec (.place tag body) s = .next (s.answered 1 tag 23 .ok (beBytes 2 h) t) ∧ t.order? h = some r ∧
          r.life = .stopping .awaitingGate .limit ∧ r.actualStart = some s.plantTime ∧ r.unseen = false ∧
          t.latches = s.taken.latches ∧
          ∃ e ∈ (t.waterway (s.unit o.unit).waterway).queue, e.handle = h ∧ e.unit = o.unit ∧ e.kind = .stop) ∧
      (o.mode = .condenseG ∨ o.mode = .condenseP →
        ∃ t r, exec (.place tag body) s = .next (s.answered 1 tag 23 .ok (beBytes 2 h) t) ∧ t.order? h = some r ∧
          r.life = .running ∧ (t.unit o.unit).context = .engaged))

/-- A PLACE_PAIR whose legs are on one unit or on two waterways is refused with PAIR_INVALID. Any other is judged check by check, the
PUMP leg first, with both legs together in the plan, and the first check that fails gives the result. One that passes every check and whose
start lies ahead takes the two lowest free slots, the PUMP leg in the lower, each record naming the other and carrying the pair sense
(R54, R55, R38). -/
def Obligations.PairAdmitted : Prop :=
  ∀ (s : State) (tag : Byte) (body : List Byte) (p q : Offer), s.mode = .dispatch → body.length = 18 →
    pairOf body = some (p, q) →
    (p.unit = q.unit ∨ (s.unit p.unit).waterway ≠ (s.unit q.unit).waterway →
      exec (.placePair tag body) s = .next (s.answered 2 tag 23 .pairInvalid [] s.taken)) ∧
    (∀ (available : UnitNo → Prop) (w : WaterwayNo) (c2 c3 c4 c5 c6 c7 c9 : Prop) (refused : Result → Prop),
      p.unit ≠ q.unit → w = (s.unit p.unit).waterway → w = (s.unit q.unit).waterway →
      (∀ u, available u ↔ ((s.unit u).context = .idle ∨ (s.unit u).context = .engaged ∨ (s.unit u).context = .recovering ∨
        (s.unit u).context = .orphan) ∧ (s.unit u).isolated = false) →
      (c2 ↔ available p.unit ∧ available q.unit) →
      (c3 ↔ (∃ x, (s.unit p.unit).link.current = some x ∧ x.offers .pump = true) ∧
        ∃ x, (s.unit q.unit).link.current = some x ∧ x.offers .generate = true) →
      (c4 ↔ ∃ x, (s.unit q.unit).link.current = some x ∧ x.pmin ≤ q.target ∧ q.target ≤ x.pmax) →
      (c5 ↔ ∀ e, p.finish = some e → max p.start s.plantTime < e) →
      (c6 ↔ ∃ x t, (s.unit p.unit).link.current = some x ∧ x.pump = some t ∧ t.head[0] ≤ (s.waterway w).hAdm ∧
        (s.waterway w).hAdm ≤ t.head[7]) →
      (c7 ↔ s.check7 (s.candidate p true) = true ∧ s.check7 (s.candidate q true) = true) →
      (c9 ↔ s.check9 w [] (s.flowOf p.unit .pump 0 + s.flowOf q.unit .generate q.target) (max p.start s.plantTime) p.finish = true) →
      (∀ v, refused v ↔ exec (.placePair tag body) s = .next (s.answered 2 tag 23 v [] s.taken)) →
      (¬ c2 → refused .unitUnavailable) ∧ (c2 → ¬ c3 → refused .modeNotSupported) ∧
      (c2 → c3 → ¬ c4 → refused .targetRange) ∧ (c2 → c3 → c4 → ¬ c5 → refused .badWindow) ∧
      (c2 → c3 → c4 → c5 → ¬ c6 → refused .headRange) ∧ (c2 → c3 → c4 → c5 → c6 → ¬ c7 → refused .overlap) ∧
      (∀ v, c2 → c3 → c4 → c5 → c6 → c7 →
        s.check8 (s.candidate p true) = some v ∨
          (s.check8 (s.candidate p true) = none ∧ s.check8 (s.candidate q true) = some v) → refused v) ∧
      (c2 → c3 → c4 → c5 → c6 → c7 → s.check8 (s.candidate p true) = none → s.check8 (s.candidate q true) = none →
        (¬ c9 → refused .flowLimit) ∧
        (c9 → (∀ k j, (s.slot k).order = none → (s.slot j).order = none → k = j) → refused .tableFull))) ∧
    ∀ (k j : SlotNo) (hp hq : Handle), s.judgePair p q = none → s.plantTime < p.start → k < j →
      (s.slot k).order = none → (s.slot j).order = none →
      (∀ i, i < j → i ≠ k → (s.slot i).order.isSome = true) →
      hp = (s.slot k).generation * 64 + k → hq = (s.slot j).generation * 64 + j →
      ∃ t a b, exec (.placePair tag body) s = .next (s.answered 2 tag 23 .ok (beBytes 2 hp ++ beBytes 2 hq) t) ∧
        t.order? hp = some a ∧ t.order? hq = some b ∧
        a.unit = p.unit ∧ a.mode = .pump ∧ a.life = .held ∧ a.partner = some hq ∧ a.start = p.start ∧ a.finish = p.finish ∧
        b.unit = q.unit ∧ b.mode = .generate ∧ b.life = .held ∧ b.partner = some hp ∧ b.start = p.start ∧ b.finish = p.finish ∧
        b.target = q.target ∧ b.ramp = q.ramp ∧ a.cls = p.cls ∧ b.cls = p.cls ∧ a.tolerance = p.tolerance ∧
        b.tolerance = p.tolerance ∧ a.pairSense = b.pairSense ∧
        a.pairSense = some (if b.plannedFlow < -a.plannedFlow then .pumping else .generating) ∧
        a.plannedFlow = s.flowOf p.unit .pump 0 ∧ b.plannedFlow = s.flowOf q.unit .generate q.target ∧
        (∀ h r, s.order? h = some r → t.order? h = some r) ∧ t = { s.taken with slots := t.slots, units := t.units }

/-- AMEND of a stale handle is answered NO_SUCH_ORDER; one of an order that is STOPPING or has ended, WRONG_STATE; one of the window of
a linked order, LINKED. An AMEND of a single HELD order that passes its re-check and names no present start writes every field named;
one that lowers the target of a RUNNING order below its setpoint lowers the setpoint to it. An AMEND of a leg of a HELD pair gives both
legs the new start, end, class and tolerance, and the GENERATE leg alone the new target and ramp, and leaves the pair sense (R56 to
R59, R114). -/
def Obligations.AmendTaken : Prop :=
  ∀ (s : State) (tag : Byte) (body : List Byte) (h : Handle), s.mode = .dispatch → body.length = 19 → h = field body 0 2 →
    (s.order? h = none → exec (.amend tag body) s = .next (s.answered 3 tag 24 .noSuchOrder [] s.taken)) ∧
    ∀ (r : Order) (a : Amendment), s.order? h = some r →
      (amendmentOf r.mode body = none → exec (.amend tag body) s = .next (s.answered 3 tag 24 .badField [] s.taken)) ∧
      (amendmentOf r.mode body = some a →
        ((r.life.isStopping = true ∨ r.life.live = false) →
          exec (.amend tag body) s = .next (s.answered 3 tag 24 .wrongState [] s.taken)) ∧
        (r.life = .held → r.partner = none → (a.start.isSome = true ∨ a.finish.isSome = true) →
          (r.successor.isSome = true ∨ ∃ h' r', s.order? h' = some r' ∧ r'.successor = some h) →
          exec (.amend tag body) s = .next (s.answered 3 tag 24 .linked [] s.taken)) ∧
        (r.life = .held → r.partner = none → r.successor = none → (∀ h' r', s.order? h' = some r' → r'.successor ≠ some h) →
          (∀ n, a.start = some n → s.plantTime < n) → s.judgeAmended a [(h, r)] = none →
          ∃ t r', exec (.amend tag body) s = .next (s.answered 3 tag 24 .ok [] t) ∧ t.order? h = some r' ∧
            r'.life = .held ∧ r'.start = a.start.getD r.start ∧ r'.finish = a.finish.getD r.finish ∧
            r'.tolerance = a.tolerance.getD r.tolerance ∧ r'.cls = a.cls.getD r.cls ∧ r'.unit = r.unit ∧ r'.mode = r.mode ∧
            (r.mode = .generate → r'.target = a.target.getD r.target ∧ r'.ramp = a.ramp.getD r.ramp) ∧
            r'.unseen = r.unseen ∧ t.latches = s.taken.latches ∧ t.startQueue = s.startQueue ∧ t.waterways = s.waterways) ∧
        ∀ p n, r.life = .running → r.mode = .generate → r.partner = none → r.successor = none →
          (∀ h' r', s.order? h' = some r' → r'.successor ≠ some h) → (s.waterway (s.unit r.unit).waterway).spacing.isSome = true →
          s.engagedOrder r.unit = some (h, r) → (s.unit r.unit).setpoint = some p → a.target = some n → n < p → n ≠ r.target →
          a.start = none → a.finish = none → a.tolerance = none → a.cls = none → s.judgeAmended a [(h, r)] = none →
          ∃ t r', exec (.amend tag body) s = .next (s.answered 3 tag 24 .ok [] t) ∧ t.order? h = some r' ∧ r'.target = n ∧
            r'.life = .running ∧ r'.plannedFlow = s.flowOf r.unit .generate n ∧ (t.unit r.unit).setpoint = some n) ∧
    ∀ (k g : Handle) (r q x : Order) (a : Amendment), s.IsPair k g r q → h = k ∨ h = g → s.order? h = some x →
      amendmentOf x.mode body = some a → r.life = .held → q.life = .held →
      (∀ i y, s.order? i = some y → y.successor ≠ some k ∧ y.successor ≠ some g) → (∀ n, a.start = some n → s.plantTime < n) →
      s.judgeAmended a (s.amendedLegs h x a) = none →
      ∃ t r' q', exec (.amend tag body) s = .next (s.answered 3 tag 24 .ok [] t) ∧ t.order? k = some r' ∧ t.order? g = some q' ∧
        r'.life = .held ∧ q'.life = .held ∧ r'.start = a.start.getD r.start ∧ q'.start = a.start.getD q.start ∧
        r'.finish = a.finish.getD r.finish ∧ q'.finish = a.finish.getD q.finish ∧
        r'.tolerance = a.tolerance.getD r.tolerance ∧ q'.tolerance = a.tolerance.getD q.tolerance ∧
        r'.cls = a.cls.getD r.cls ∧ q'.cls = a.cls.getD q.cls ∧ r'.target = r.target ∧ r'.ramp = r.ramp ∧
        r'.plannedFlow = r.plannedFlow ∧ q'.target = a.target.getD q.target ∧ q'.ramp = a.ramp.getD q.ramp ∧
        r'.pairSense = r.pairSense ∧ q'.pairSense = q.pairSense ∧ r'.unseen = r.unseen ∧ q'.unseen = q.unseen ∧
        t.latches = s.taken.latches

/-! ## Order Progress (Chapter 4) -/

/-- A start arrival makes a HELD order DUE, and the engagement test follows: on an isolated unit the order fails, on a unit that is not
IDLE it stays DUE, and on an IDLE one it engages, to wait for a converter or for the gate as its mode asks. A GENERATE leg waits in
PAIR_HOLD, without a queue entry, until its PUMP leg is RUNNING (R64 to R66, R73, R90, R93, R106). -/
def Obligations.StartArrivalTaken : Prop :=
  (∀ (s : State) (h : Handle) (r : Order), DueEvent.startArrival h ∈ s.due → s.mode = .dispatch → s.named = [] →
    s.order? h = some r → r.life = .held → r.start = s.plantTime → (∀ e, r.finish = some e → s.plantTime < e) →
    (∀ d, r.tolerance = some d → 0 < d) → r.partner = none → r.successor = none → r.retirePending = false →
    ((s.unit r.unit).isolated = true →
      ∃ t : State, exec (.startArrival h) s = .next t ∧
        t.order? h = some { r with life := .failed .isolated s.plantTime, unseen := true } ∧ t.latched .orderFailed = true) ∧
    ((s.unit r.unit).isolated = false → (s.unit r.unit).context ≠ .idle →
      exec (.startArrival h) s = .next
        (((s.takes (.startArrival h)).setSlot (slotOf h)
          { s.slot (slotOf h) with order := some { r with life := .due, unseen := true } }).raise .orderChanged)) ∧
    ((s.unit r.unit).isolated = false → (s.unit r.unit).context = .idle →
      (∀ k q, s.order? k = some q → q.unit = r.unit → q.life ≠ .due) →
      ((r.mode = .pump ∨ r.mode = .condenseP) → (∀ c, (s.converter c).state ≠ .free) →
        ∃ t : State, exec (.startArrival h) s = .next t ∧
          t.order? h = some { r with life := .starting .queuedConverter, unseen := true } ∧
          (t.unit r.unit).context = .engaged ∧ t.latched .orderChanged = true ∧
          (∀ e, e ∈ t.startQueue ↔ e ∈ s.startQueue ∨ e = { handle := h, unit := r.unit, cls := r.cls, start := r.start })) ∧
      ((r.mode = .generate ∨ r.mode = .condenseG) → (s.waterway (s.unit r.unit).waterway).spacing.isSome = true →
        ∃ t : State, exec (.startArrival h) s = .next t ∧
          t.order? h = some { r with life := .starting .awaitingGate, unseen := true } ∧
          (t.unit r.unit).context = .engaged ∧ t.latched .orderChanged = true ∧
          ∀ e, e ∈ (t.waterway (s.unit r.unit).waterway).queue ↔ e ∈ (s.waterway (s.unit r.unit).waterway).queue ∨
            e = { handle := h, unit := r.unit, kind := .start, cls := r.cls,
                  rank := (s.waterway (s.unit r.unit).waterway).nextRank }))) ∧
  ∀ (s : State) (h g : Handle) (r q : Order), DueEvent.startArrival g ∈ s.due → s.mode = .dispatch → s.named = [] →
    s.IsPair h g r q → q.life = .held → q.start = s.plantTime → (∀ e, q.finish = some e → s.plantTime < e) →
    (∀ d, q.tolerance = some d → 0 < d) → (s.unit q.unit).isolated = false → (s.unit q.unit).context = .idle →
    (∀ k x, s.order? k = some x → x.unit = q.unit → x.life ≠ .due) →
    (r.life ≠ .running → ∃ t : State, exec (.startArrival g) s = .next t ∧
      t.order? g = some { q with life := .starting .pairHold, unseen := true } ∧ (t.unit q.unit).context = .engaged ∧
      t.waterways = s.waterways ∧ t.startQueue = s.startQueue ∧ t.linkOut = []) ∧
    (r.life = .running → (s.waterway (s.unit q.unit).waterway).spacing.isSome = true →
      ∃ t : State, exec (.startArrival g) s = .next t ∧
        t.order? g = some { q with life := .starting .awaitingGate, unseen := true } ∧ (t.unit q.unit).context = .engaged ∧
        ∃ e ∈ (t.waterway (s.unit q.unit).waterway).queue, e.handle = g ∧ e.unit = q.unit ∧ e.kind = .start)

/-- An end arrival: a DUE order fails as LATE; a RUNNING order without a waiting successor begins its stop; a STOPPING or ended one is not
touched. With a successor in HELD or DUE the machine is handed over instead: the order is DONE by HANDOVER and the successor takes its
place, with the setpoint lowered to its target and with the converter of a start in flight. The stop of a RUNNING PUMP leg is deferred while
its GENERATE leg turns; while that leg is in PAIR_HOLD or waits for its start the stop begins at once, and the GENERATE leg is DONE with
cause PARTNER; and the stop of a RUNNING GENERATE leg leaves its PUMP leg as it stands (R68, R75, R78, R79, R81, R82, Table 4-2). -/
def Obligations.EndArrivalTaken : Prop :=
  (∀ (s : State) (h : Handle) (r : Order), DueEvent.endArrival h ∈ s.due → s.mode = .dispatch → s.named = [] →
    s.order? h = some r → r.finish = some s.plantTime → r.partner = none → r.retirePending = false →
    (r.life = .due → r.successor = none → ∃ t : State, exec (.endArrival h) s = .next t ∧
      t.order? h = some { r with life := .failed .late s.plantTime, unseen := true } ∧ t.latched .orderFailed = true) ∧
    (r.life.isStopping = true ∨ r.life.live = false → exec (.endArrival h) s = .next (s.takes (.endArrival h))) ∧
    ((s.waterway (s.unit r.unit).waterway).spacing.isSome = true →
      (r.life = .running → r.successor = none →
        (∀ p c, r.mode = .generate → (s.unit r.unit).setpoint = some p → (s.unit r.unit).link.current = some c → c.pmin < p →
          ∃ t : State, exec (.endArrival h) s = .next t ∧ t.latched .orderChanged = true ∧
            t.order? h = some { r with life := .stopping .unloading .windowEnd, unseen := true }) ∧
        (r.mode ≠ .generate →
          ∃ t : State, exec (.endArrival h) s = .next t ∧ t.latched .orderChanged = true ∧
            t.order? h = some { r with life := .stopping .awaitingGate .windowEnd, unseen := true } ∧
            ∃ e ∈ (t.waterway (s.unit r.unit).waterway).queue, e.handle = h ∧ e.kind = .stop ∧ e.unit = r.unit)) ∧
      ∀ (b : Handle) (q : Order), r.successor = some b → b ≠ h → s.order? b = some q → (q.life = .held ∨ q.life = .due) →
        r.life = .running ∨ (∃ p, r.life = .starting p) →
        ∃ t q', exec (.endArrival h) s = .next t ∧
          t.order? h = some { r with life := .done .handover s.plantTime, unseen := true } ∧
          t.order? b = some q' ∧ q'.life = r.life ∧ q'.unseen = true ∧ q'.target = q.target ∧
          t.latched .orderDone = true ∧ t.latched .orderChanged = true ∧
          (t.unit r.unit).context = (s.unit r.unit).context ∧
          (r.life = .running → q'.actualStart = some s.plantTime ∧
            ∀ p, r.mode = .generate → (s.unit r.unit).setpoint = some p → (t.unit r.unit).setpoint = some (min p q.target)) ∧
          ∀ c u n, r.life = .starting .converterRun → (s.converter c).state = .running h u n →
            q'.attempts = r.attempts ∧ (t.converter c).state = .running b u n)) ∧
  ∀ (s : State) (h g : Handle) (r q : Order), s.mode = .dispatch → s.named = [] → s.IsPair h g r q →
    (DueEvent.endArrival h ∈ s.due → r.finish = some s.plantTime → r.life = .running →
      (q.life = .starting .runup ∨ q.life = .running ∨ q.life.isStopping = true →
        exec (.endArrival h) s = .next ((s.takes (.endArrival h)).setSlot (slotOf h)
          { s.slot (slotOf h) with order := some { r with awaited := some (r.awaited.getD .windowEnd) } })) ∧
      (q.life = .starting .pairHold ∨ q.life = .starting .awaitingGate → r.awaited = none → q.retirePending = false →
        (s.waterway (s.unit r.unit).waterway).spacing.isSome = true →
        (∀ k x, s.order? k = some x → x.unit = q.unit → x.life ≠ .due) →
        ∃ t : State, exec (.endArrival h) s = .next t ∧
          t.order? h = some { r with life := .stopping .awaitingGate .windowEnd, unseen := true } ∧
          (∃ e ∈ (t.waterway (s.unit r.unit).waterway).queue, e.handle = h ∧ e.kind = .stop ∧ e.unit = r.unit) ∧
          t.order? g = some { q with life := .done .partner s.plantTime, unseen := true } ∧ (t.unit q.unit).context = .idle ∧
          (∀ e ∈ (t.waterway (s.unit q.unit).waterway).queue, e.handle ≠ g) ∧ t.latched .orderDone = true)) ∧
    ∀ p c, DueEvent.endArrival g ∈ s.due → q.finish = some s.plantTime → q.life = .running →
      (s.waterway (s.unit q.unit).waterway).spacing.isSome = true → (s.unit q.unit).setpoint = some p →
      (s.unit q.unit).link.current = some c → c.pmin < p →
      ∃ t : State, exec (.endArrival g) s = .next t ∧
        t.order? g = some { q with life := .stopping .unloading .windowEnd, unseen := true } ∧ t.order? h = some r

/-- A lateness arrival: a DUE order fails as LATE, unless it is the successor of an order in STARTING or RUNNING; an order that is not
DUE is not touched. A leg that fails so makes its HELD or DUE partner DONE with cause PARTNER (R67, R82). -/
def Obligations.LatenessArrivalTaken : Prop :=
  (∀ (s : State) (h : Handle) (r : Order) (d : Nat), DueEvent.latenessArrival h ∈ s.due → s.mode = .dispatch → s.named = [] →
    s.order? h = some r → r.tolerance = some d → r.start + d = s.plantTime →
    (r.life ≠ .due → exec (.latenessArrival h) s = .next (s.takes (.latenessArrival h))) ∧
    (r.life = .due → r.partner = none → r.successor = none → r.retirePending = false →
      ((∀ k q, s.order? k = some q → q.successor = some h → q.life.isStarting = false ∧ q.life ≠ .running) →
        ∃ t : State, exec (.latenessArrival h) s = .next t ∧
          t.order? h = some { r with life := .failed .late s.plantTime, unseen := true } ∧ t.latched .orderFailed = true ∧
          ∀ k q, t.order? k = some q → q.successor ≠ some h) ∧
      ((∃ k q, s.order? k = some q ∧ q.successor = some h ∧ (q.life.isStarting = true ∨ q.life = .running)) →
        exec (.latenessArrival h) s = .next (s.takes (.latenessArrival h))))) ∧
  ∀ (s : State) (h g : Handle) (r q : Order) (d : Nat), DueEvent.latenessArrival h ∈ s.due → s.mode = .dispatch → s.named = [] →
    s.IsPair h g r q ∨ s.IsPair g h q r → r.tolerance = some d → r.start + d = s.plantTime → r.life = .due →
    r.retirePending = false → r.awaited = none → (∀ k x, s.order? k = some x → x.successor ≠ some h) →
    q.life = .held ∨ q.life = .due → q.retirePending = false →
    ∃ t : State, exec (.latenessArrival h) s = .next t ∧
      t.order? h = some { r with life := .failed .late s.plantTime, unseen := true } ∧
      t.order? g = some { q with life := .done .partner s.plantTime, unseen := true } ∧
      t.latched .orderFailed = true ∧ t.latched .orderDone = true

/-- The supervision timer expires: in RUNUP the order fails as START_TIMEOUT and ABORT_START is sent; in COASTING and RUNDOWN it fails
as STOP_TIMEOUT. The unit is RECOVERING, and holds no timer and no setpoint any more (R74, R83, Table 4-4). -/
def Obligations.SupervisionExpiryTaken : Prop :=
  ∀ (s : State) (u : UnitNo) (h : Handle) (r : Order), DueEvent.supervision u ∈ s.due → (s.unit u).supervision = some 0 →
    s.named = [] → s.engagedOrder u = some (h, r) → r.partner = none → r.successor = none → r.retirePending = false →
    ∀ cause : FailCause,
      (r.life = .starting .runup ∧ cause = .startTimeout) ∨ (r.life = .starting .coasting ∧ cause = .stopTimeout) ∨
        ((∃ c, r.life = .stopping .rundown c) ∧ cause = .stopTimeout) →
      ∃ t : State, exec (.supervisionTimerExpiry u) s = .next t ∧
        t.order? h = some { r with life := .failed cause s.plantTime, unseen := true } ∧ t.latched .orderFailed = true ∧
        (t.unit u).context = .recovering ∧ (t.unit u).supervision = none ∧ (t.unit u).setpoint = none ∧
        (t.unit u).ceiling = none ∧ (t.unit u).pendingSetpoint = none ∧
        (r.life = .starting .runup → (s.unit u).link.state = .up → (s.unit u).link.outstanding = none →
          t.linkOut = [(u, .directive (s.unit u).link.toggle .abortStart)]) ∧
        (r.life ≠ .starting .runup → t.linkOut = [])

/-! ## The Start Arbiter (Chapter 5.1 to 5.4) -/

/-- When a run timer expires the run has failed: the order is in COASTING under supervision with ABORT_START sent, and the converter is OUT
when an out request stands and COOLING otherwise. At the end of its cool-down a converter is OUT while its fault line is asserted;
otherwise it is FREE, and the first entry of the start queue whose unit may use it is granted: the converter runs for it, the order is
in CONVERTER_RUN with one attempt more, and START_PUMP or START_CONDENSE_P is sent (R100, R72, R95, R96, R70, R99). -/
def Obligations.ConverterTimersExpire : Prop :=
  (∀ (s : State) (c : ConverterNo) (h : Handle) (u : UnitNo) (r : Order), DueEvent.run c ∈ s.due →
     (s.converter c).state = .running h u 0 → s.order? h = some r → s.startQueue = [] →
     ∃ t : State, exec (.runTimerExpiry c) s = .next t ∧
       t.converter c =
         { s.converter c with
           state :=
             if (s.converter c).outRequest = true then .out
             else if 0 < (s.converter c).coolDown then .cooling (s.converter c).coolDown
             else if (s.converter c).faultLine = true then .out
             else .free
           outRequest := false } ∧
       (∀ c', c' ≠ c → t.converter c' = s.converter c') ∧
       t.order? h = some { r with life := .starting .coasting } ∧
       (t.unit u).supervision = some (s.capTime u (·.pumpStop) + s.supervision.stopMargin) ∧
       t.latched .converterChange = true ∧
       ((s.unit u).link.state = .up → (s.unit u).link.outstanding = none →
         t.linkOut = [(u, .directive (s.unit u).link.toggle .abortStart)])) ∧
  (∀ (s : State) (c : ConverterNo), DueEvent.coolDown c ∈ s.due → (s.converter c).state = .cooling 0 →
     ((s.converter c).faultLine = true →
       exec (.coolDownExpiry c) s = .next
         (((s.takes (.coolDown c)).setConverter c { s.converter c with state := .out }).raise .converterChange)) ∧
     ((s.converter c).faultLine = false →
       (∀ e ∈ s.startQueue, (s.unit e.unit).eligible.getLsbD c = false) → (∀ c', c' ≠ c → (s.converter c').state ≠ .free) →
       exec (.coolDownExpiry c) s = .next
         (((s.takes (.coolDown c)).setConverter c { s.converter c with state := .free }).raise .converterChange)) ∧
     ∀ (before after : List StartEntry) (e : StartEntry) (r : Order), (s.converter c).faultLine = false →
       (∀ c', c' ≠ c → (s.converter c').state ≠ .free) → s.startQueue = before ++ e :: after →
       (∀ x ∈ before, (s.unit x.unit).eligible.getLsbD c = false) → (s.unit e.unit).eligible.getLsbD c = true →
       s.order? e.handle = some r → (s.unit e.unit).link.state = .up → (s.unit e.unit).link.outstanding = none →
       ∃ t : State, exec (.coolDownExpiry c) s = .next t ∧
         t.converter c = { s.converter c with state := .running e.handle e.unit (s.converter c).runLimit } ∧
         t.order? e.handle = some { r with life := .starting .converterRun, attempts := r.attempts + 1 } ∧
         t.startQueue = s.startQueue.filter (fun x => x.handle != e.handle) ∧
         (t.unit e.unit).lastConverter = some c ∧ t.latched .converterChange = true ∧
         t.linkOut = [(e.unit, .directive (s.unit e.unit).link.toggle (if r.mode = .pump then .startPump c else .startCondenseP c))])

/-- A fault line that asserts takes its converter OUT whatever its state, and a run in progress fails with its order in COASTING; one that
clears changes no state. SET_CONVERTER out takes a FREE or COOLING converter OUT and leaves a request on a RUNNING one; in withdraws
the request, cools an OUT converter whose fault line is clear, and is refused with BUSY while the line is asserted (R100 to R103,
Tables 5-2, 5-3). -/
def Obligations.ConvertersTakenOutAndIn : Prop :=
  (∀ (s : State) (c : ConverterNo),
     exec (.converterFaultClear c) s = .next (s.quiet.setConverter c { s.converter c with faultLine := false }) ∧
     ((s.converter c).state = .out →
       exec (.converterFaultAssert c) s = .next (s.quiet.setConverter c { s.converter c with faultLine := true })) ∧
     ((s.converter c).state = .free ∨ (∃ n, (s.converter c).state = .cooling n) →
       exec (.converterFaultAssert c) s = .next
         ((s.quiet.setConverter c { s.converter c with faultLine := true, state := .out }).raise .converterChange)) ∧
     ∀ (h : Handle) (u : UnitNo) (n : Nat) (r : Order), (s.converter c).state = .running h u n → s.order? h = some r →
       ∃ t : State, exec (.converterFaultAssert c) s = .next t ∧
         t.converter c = { s.converter c with faultLine := true, state := .out, outRequest := false } ∧
         t.order? h = some { r with life := .starting .coasting } ∧
         (t.unit u).supervision = some (s.capTime u (·.pumpStop) + s.supervision.stopMargin) ∧
         t.latched .converterChange = true ∧
         ((s.unit u).link.state = .up → (s.unit u).link.outstanding = none →
           t.linkOut = [(u, .directive (s.unit u).link.toggle .abortStart)])) ∧
  (∀ (s : State) (tag : Byte) (body : List Byte) (c : ConverterNo), s.mode = .dispatch → body.length = 2 →
     byteAt body 0 = BitVec.ofNat 8 c →
     (byteAt body 1 = 0 →
       ((s.converter c).state = .out → exec (.setConverterOut tag body) s = .next (s.answered 11 tag 7 .ok [] s.taken)) ∧
       ((s.converter c).state = .free ∨ (∃ n, (s.converter c).state = .cooling n) →
         exec (.setConverterOut tag body) s = .next (s.answered 11 tag 7 .ok []
           ((s.taken.setConverter c { s.converter c with state := .out }).raise .converterChange))) ∧
       (∀ h u n, (s.converter c).state = .running h u n →
         exec (.setConverterOut tag body) s = .next (s.answered 11 tag 7 .ok []
           (s.taken.setConverter c { s.converter c with outRequest := true })))) ∧
     (byteAt body 1 = 1 →
       ((s.converter c).state = .out → (s.converter c).faultLine = true →
         exec (.setConverterIn tag body) s = .next (s.answered 11 tag 7 .busy [] s.taken)) ∧
       ((s.converter c).state = .out → (s.converter c).faultLine = false → 0 < (s.converter c).coolDown →
         exec (.setConverterIn tag body) s = .next (s.answered 11 tag 7 .ok []
           ((s.taken.setConverter c { s.converter c with state := .cooling (s.converter c).coolDown }).raise
             .converterChange))) ∧
       ((s.converter c).state = .free ∨ (∃ n, (s.converter c).state = .cooling n) →
         exec (.setConverterIn tag body) s = .next (s.answered 11 tag 7 .ok [] s.taken)) ∧
       (∀ h u n, (s.converter c).state = .running h u n →
         exec (.setConverterIn tag body) s = .next (s.answered 11 tag 7 .ok []
           (s.taken.setConverter c { s.converter c with outRequest := false })))))

/-! ## The Waterway Gates (5.6) -/

/-- When its spacing timer expires the gate grants the first entry in queue order that is allowed to go, and stays SPACING; with none
allowed it becomes OPEN and nothing else happens. A STOP entry is always allowed, and a START entry when its inhibit is clear and its
step keeps the limit; the grant sends the directive and starts the supervision. An OPEN gate grants an entry that joins, or that a new
live head, the clearing of an inhibit or a change of the live net flow lets go; and with a spacing time of 0 it grants one STOP entry
after another in one event and stays OPEN (R106 to R110, R69, R77). The model's own: a telegram's new head comes before its inhibits (log
entry 23), and the step of a PUMP entry whose unit has no pump table is a free value (log entry 58). -/
def Obligations.SpacingExpiryGrants : Prop :=
  (∀ (s : State) (w : WaterwayNo), DueEvent.spacing w ∈ s.due → (s.waterway w).spacing = some 0 →
    (∀ e, s.allowed w e = true ↔ e.kind = .stop ∨ ∃ r, s.order? e.handle = some r ∧
      (r.mode = .generate → (if r.pairSense = some .pumping then (s.waterway w).pumpInhibit else (s.waterway w).genInhibit) = false) ∧
      (r.mode = .pump → (s.waterway w).pumpInhibit = false) ∧
      (0 < (s.startStep e.unit r.mode).1 → (s.waterway w).netFlow + (s.startStep e.unit r.mode).1 ≤ (s.waterway w).qgLim) ∧
      ((s.startStep e.unit r.mode).1 < 0 → -((s.waterway w).qpLim : Int) ≤ (s.waterway w).netFlow + (s.startStep e.unit r.mode).1)) ∧
    ((∀ e ∈ (s.waterway w).queue, s.allowed w e = false) → ∃ t : State, exec (.spacingTimerExpiry w) s = .next t ∧
      t.waterway w = { s.waterway w with spacing := none } ∧ t.slots = s.slots ∧ t.linkOut = [] ∧ t.latches = s.latches) ∧
    ∀ (before after : List GateEntry) (e : GateEntry) (r : Order), (s.waterway w).queue = before ++ e :: after →
      (∀ x ∈ before, s.allowed w x = false) → s.allowed w e = true → 0 < (s.waterway w).spacingTime →
      s.order? e.handle = some r → r.unit = e.unit → (s.unit e.unit).link.state = .up → (s.unit e.unit).link.outstanding = none →
      (e.kind = .start ∨ r.life.isStopping = true) →
      ∃ t r', exec (.spacingTimerExpiry w) s = .next t ∧
        t.waterway w =
          { s.waterway w with
            queue := (s.waterway w).queue.filter fun x => x.handle != e.handle
            spacing := some (s.waterway w).spacingTime } ∧
        t.order? e.handle = some r' ∧
        (e.kind = .start → r' = { r with life := .starting .runup } ∧
          t.linkOut = [(e.unit, .directive (s.unit e.unit).link.toggle
            (match r.mode with | .generate => .startGen | .condenseG => .startCondenseG | _ => .waterUp))] ∧
          (t.unit e.unit).supervision = some
            (if r.mode = .generate ∨ r.mode = .condenseG then s.genStartTime e.unit else s.waterUpTime e.unit)) ∧
        (e.kind = .stop → (∀ p c, r.life = .stopping p c → r' = { r with life := .stopping .rundown c }) ∧
          t.linkOut = [(e.unit, .directive (s.unit e.unit).link.toggle .toStandstill)] ∧
          (t.unit e.unit).supervision = some (s.rundownTime e.unit r.mode))) ∧
  (∀ (s : State) (h : Handle) (r : Order) (w : WaterwayNo) (c : Capability) (f : Nat), DueEvent.startArrival h ∈ s.due →
    s.mode = .dispatch → s.named = [] → s.order? h = some r → r.life = .held → r.start = s.plantTime →
    (∀ e, r.finish = some e → s.plantTime < e) → (∀ d, r.tolerance = some d → 0 < d) → r.mode = .generate → r.partner = none →
    r.pairSense = none → w = (s.unit r.unit).waterway → (s.unit r.unit).isolated = false → (s.unit r.unit).context = .idle →
    (∀ k q, s.order? k = some q → q.unit = r.unit → q.life ≠ .due) → (s.unit r.unit).link.state = .up →
    (s.unit r.unit).link.outstanding = none → (s.unit r.unit).link.current = some c → f = c.genFlow c.pmin (s.headFor r.unit) →
    (s.waterway w).spacing = none → (s.waterway w).queue = [] → 0 < (s.waterway w).spacingTime →
    ((s.waterway w).genInhibit = false → (s.waterway w).netFlow + f ≤ (s.waterway w).qgLim →
      ∃ t : State, exec (.startArrival h) s = .next t ∧
        t.order? h = some { r with life := .starting .runup, unseen := true } ∧ (t.waterway w).queue = [] ∧
        (t.waterway w).spacing = some (s.waterway w).spacingTime ∧
        t.linkOut = [(r.unit, .directive (s.unit r.unit).link.toggle .startGen)] ∧
        (t.unit r.unit).supervision = some (s.genStartTime r.unit)) ∧
    ((s.waterway w).genInhibit = true ∨ (0 < f ∧ ((s.waterway w).qgLim : Int) < (s.waterway w).netFlow + f) →
      ∃ t : State, exec (.startArrival h) s = .next t ∧
        t.order? h = some { r with life := .starting .awaitingGate, unseen := true } ∧ (t.waterway w).spacing = none ∧
        (∃ e, (t.waterway w).queue = [e] ∧ e.handle = h ∧ e.unit = r.unit ∧ e.kind = .start) ∧ t.linkOut = [])) ∧
  (∀ (s : State) (g : GaugeNo) (bytes : List Byte) (w : WaterwayNo) (x : Gauge) (e : GateEntry) (r : Order) (f : Nat → Nat)
    (head : Nat), s.UpperTold g bytes w x → s.WaitsOpen w e r f → head = ((s.setGauge g x).headOf w).1 →
    (s.waterway w).netFlow = s.sumFlow w → (∀ v, (s.unit v).waterway = w → s.headDependent v = false) →
    (pumpInhibitOf x (s.gauge (s.waterway w).lower) = true → (s.waterway w).pumpInhibit = true) →
    genInhibitOf x (s.gauge (s.waterway w).lower) = false → (s.waterway w).netFlow + f head ≤ (s.waterway w).qgLim →
    (s.waterway w).genInhibit = true ∨ head ≠ (s.waterway w).liveHead →
    ∃ t : State, exec (.gaugeTelegram g bytes) s = .next t ∧ s.GrantsTo t w e r ∧ (t.waterway w).liveHead = head ∧
      (t.waterway w).genInhibit = false) ∧
  (∀ (s : State) (v : UnitNo) (p : Report) (w : WaterwayNo) (e : GateEntry) (r : Order) (f : Nat → Nat), s.WaitsOpen w e r f →
    (s.waterway w).genInhibit = false → (s.unit v).present = true → (s.unit v).waterway = w → v ≠ e.unit →
    (s.unit v).link.state = .up → (s.unit v).link.sinceUp = true → (s.unit v).link.current.isSome = true →
    (s.unit v).context = .orphan → (∀ k q, s.order? k = some q → q.unit = v → q.life ≠ .due) → p.place = .remote →
    p.state = .standstill → (s.unit v).contribution ≠ 0 → (s.waterway w).netFlow = s.sumFlow w →
    (s.waterway w).netFlow - (s.unit v).contribution + f (s.waterway w).liveHead ≤ (s.waterway w).qgLim →
    ∃ t : State, exec (.stateReport v p) s = .next t ∧ s.GrantsTo t w e r ∧
      (t.waterway w).netFlow = (s.waterway w).netFlow - (s.unit v).contribution) ∧
  ∀ (s : State) (w : WaterwayNo), DueEvent.spacing w ∈ s.due → (s.waterway w).spacing = some 0 → (s.waterway w).spacingTime = 0 →
    (∀ e ∈ (s.waterway w).queue, e.kind = .stop) → ∃ t : State, exec (.spacingTimerExpiry w) s = .next t ∧
      t.waterway w = { s.waterway w with queue := [], spacing := none } ∧
      ∀ e ∈ (s.waterway w).queue, ∀ r p c, s.order? e.handle = some r → r.life = .stopping p c →
        t.order? e.handle = some { r with life := .stopping .rundown c }

/-! ## The Ramp Controllers (Chapter 6) -/

/-- At a ramp period the RUNNING GENERATE order of a unit, the only engaged order, steps toward its target: within the limit by the
largest step up to the ramp rate whose flow change fits the allowance and the limit; above the limit it is curtailed by the smallest
step that covers the excess, or the largest there is, and that setpoint becomes its ceiling. A setpoint at Pmin whose ceiling lies
below it is not lowered (R113 to R119; that such a ceiling counts as Pmin is log entry 44). -/
def Obligations.RampPeriodSteps : Prop :=
  ∀ (s : State) (u : UnitNo) (h : Handle) (r : Order) (p : Nat) (x : Waterway) (change : Nat → Nat → Nat),
    DueEvent.ramp (s.unit u).waterway ∈ s.due → x = s.waterway (s.unit u).waterway → x.queue = [] →
    s.order? h = some r → r.unit = u → r.life = .running → r.mode = .generate → 1 ≤ r.ramp →
    (∀ k q, s.order? k = some q → q.life.engaged = true → k = h) →
    (s.unit u).setpoint = some p → (s.unit u).link.silent = false → (∀ a b, change a b = s.trialFlow u b - s.trialFlow u a) →
    (x.netFlow ≤ x.qgLim → p < r.target → ∃ t k, exec (.rampPeriodExpiry (s.unit u).waterway) s = .next t ∧
      (t.unit u).setpoint = some (p + k) ∧ (t.unit u).ceiling = none ∧ k ≤ min r.ramp (r.target - p) ∧
      (0 < k → change p (p + k) ≤ x.allowance ∧ x.netFlow + change p (p + k) ≤ x.qgLim) ∧
      ∀ j, k < j → j ≤ min r.ramp (r.target - p) →
        x.allowance < change p (p + j) ∨ (x.qgLim : Int) < x.netFlow + change p (p + j)) ∧
    (x.netFlow ≤ x.qgLim → r.target < p → ∃ t k, exec (.rampPeriodExpiry (s.unit u).waterway) s = .next t ∧
      (t.unit u).setpoint = some (p - k) ∧ (t.unit u).ceiling = none ∧ k ≤ min r.ramp (p - r.target) ∧
      (0 < k → change (p - k) p ≤ x.allowance) ∧
      ∀ j, k < j → j ≤ min r.ramp (p - r.target) → x.allowance < change (p - j) p) ∧
    (x.qgLim < x.netFlow → s.capTime u (·.pmin) < p → p ≤ r.target →
      ∃ t k q, exec (.rampPeriodExpiry (s.unit u).waterway) s = .next t ∧
        (t.unit u).setpoint = some (p - k) ∧ (t.unit u).ceiling = some (p - k) ∧ t.order? h = some q ∧ q.curtailed = true ∧
        1 ≤ k ∧ k ≤ min r.ramp (p - s.capTime u (·.pmin)) ∧
        (∀ j, 1 ≤ j → j < k → change (p - j) p < x.netFlow - x.qgLim) ∧
        (x.netFlow - x.qgLim ≤ change (p - k) p ∨ k = min r.ramp (p - s.capTime u (·.pmin)))) ∧
    ∀ c, x.qgLim < x.netFlow → s.capTime u (·.pmin) = p → p ≤ r.target → (s.unit u).ceiling = some c → c ≤ p →
      ∃ t : State, exec (.rampPeriodExpiry (s.unit u).waterway) s = .next t ∧ (t.unit u).setpoint = some p ∧
        (t.unit u).ceiling = some c ∧ t.linkOut = []

/-- A ramp period of a waterway with no engaged order moves its pointer to the next unit, clears or sets its excess indications, and
has no other effect on it; an unloading order is lowered by its ramp rate with its ceiling as it stood, and waits for the gate once it
stands at Pmin (R115, R116, R121, R122, R76; that the ceiling of an unloading order stays is log entry 45, and what a waterway without
units does with its pointer is log entry 51). -/
def Obligations.RampPeriodUnloadsAndIndicates : Prop :=
  ∀ (s : State) (w : WaterwayNo), DueEvent.ramp w ∈ s.due →
    ((∀ k q, s.order? k = some q → q.life.engaged = false) → ∃ t : State, exec (.rampPeriodExpiry w) s = .next t ∧
      t.waterway w =
        { s.waterway w with
          pointer := (t.waterway w).pointer
          excessUnresolved := decide (((s.waterway w).qgLim : Int) < (s.waterway w).netFlow)
          pumpExcess := decide ((s.waterway w).netFlow < -((s.waterway w).qpLim : Int)) } ∧
      t.slots = s.slots ∧ t.linkOut = [] ∧
      (∀ u, (s.unit u).waterway = w → (s.waterway w).pointer < u →
        (∀ v, (s.unit v).waterway = w → (s.waterway w).pointer < v → u ≤ v) →
        (s.unit (s.waterway w).pointer).waterway = w → (t.waterway w).pointer = u) ∧
      (((s.waterway w).qgLim : Int) < (s.waterway w).netFlow → (s.waterway w).excessUnresolved = false →
        t.latched .inhibitChange = true)) ∧
    ∀ (u : UnitNo) (h : Handle) (r : Order) (c : DoneCause) (p : Nat), (s.unit u).waterway = w →
      (s.waterway w).netFlow ≤ (s.waterway w).qgLim → (s.waterway w).spacing.isSome = true →
      s.order? h = some r → r.unit = u → r.life = .stopping .unloading c →
      (∀ k q, s.order? k = some q → q.life.engaged = true → k = h) →
      (s.unit u).setpoint = some p → (s.unit u).link.silent = false → s.capTime u (·.pmin) < p →
      ∃ t : State, exec (.rampPeriodExpiry w) s = .next t ∧
        (t.unit u).setpoint = some (max (s.capTime u (·.pmin)) (p - r.ramp)) ∧ (t.unit u).ceiling = (s.unit u).ceiling ∧
        (s.capTime u (·.pmin) < p - r.ramp → t.order? h = some r) ∧
        (p - r.ramp ≤ s.capTime u (·.pmin) → t.order? h = some { r with life := .stopping .awaitingGate c } ∧
          ∃ e ∈ (t.waterway w).queue, e.handle = h ∧ e.kind = .stop ∧ e.unit = u)

/-! ## The Flow Calculator (Chapter 2) -/

/-- With a generating table of the shape that R132 asks for, the generating flow never falls as the power rises within the table, and
never rises as the head rises; at a breakpoint and at Href it is the flow of that breakpoint, 9999 at most (R24 to R26). -/
def Obligations.GeneratingFlowMonotone : Prop :=
  ∀ (c : Capability), (∀ i : Fin 7, c.powers[i.val] < c.powers[i.val + 1] ∧ c.flows[i.val] ≤ c.flows[i.val + 1]) →
    (∀ p p' head : Nat, c.powers[0] ≤ p → p ≤ p' → p' ≤ c.powers[7] → 0 < head → c.genFlow p head ≤ c.genFlow p' head) ∧
    (∀ p head head' : Nat, 0 < head → head ≤ head' → c.genFlow p head' ≤ c.genFlow p head) ∧
    (∀ i : Fin 8, 0 < c.href → c.genFlow c.powers[i] c.href = min c.flows[i] 9999) ∧
    ∀ p head : Nat, c.genFlow p head ≤ 9999

/-! ## The Unit Link Controllers (Chapter 7) -/

/-- HELLO goes out at a second mark in DOWN and LOST. A frame error is counted while the link is EXCHANGE or UP, the burst window clears
the count, and a mark that no valid frame came before raises the silence count and sets the silent indication, unless a frame has come
since; a page, an ACK, a report or a bad frame of an absent unit, or a bad frame in another link state, has no effect (R128, R139, R141,
R142). The model's own: the fields `due` (log entry 1), `heard` and `heardBefore` (log entries 6, 43) and `linkOut` (log entry 8). -/
def Obligations.LinkSupervised : Prop :=
  ∀ (s : State) (u : UnitNo),
    (DueEvent.hello u ∈ s.due → (s.unit u).present = true → ((s.unit u).link.state = .down ∨ (s.unit u).link.state = .lost) →
      exec (.helloInterval u) s = .next { s.takes (.hello u) with linkOut := [(u, .hello)] }) ∧
    (DueEvent.burst u ∈ s.due → (s.unit u).link.burstTimer = some 0 →
      exec (.burstWindowExpiry u) s = .next ((s.takes (.burst u)).setUnit u
        { s.unit u with
          link := { (s.unit u).link with frameErrors := 0, burstTimer := some s.supervision.burstWindow } })) ∧
    ((s.unit u).present = false ∨ ((s.unit u).link.state ≠ .exchange ∧ (s.unit u).link.state ≠ .up) →
      exec (.linkFrameBad u) s = .next s.quiet) ∧
    ((s.unit u).present = false →
      (∀ p : Page, exec (.pageReport u p) s = .next s.quiet) ∧ (∀ r : Report, exec (.stateReport u r) s = .next s.quiet) ∧
        ∀ kind toggle : Byte, exec (.ackReport u kind toggle) s = .next s.quiet) ∧
    ((s.unit u).present = true → ((s.unit u).link.state = .exchange ∨ (s.unit u).link.state = .up) →
      (s.unit u).link.frameErrors + 1 < s.supervision.burstCount →
      exec (.linkFrameBad u) s = .next (s.quiet.setUnit u
        { s.unit u with link := { (s.unit u).link with frameErrors := (s.unit u).link.frameErrors + 1 } })) ∧
    (DueEvent.linkSilence u ∈ s.due → ((s.unit u).link.state = .exchange ∨ (s.unit u).link.state = .up) →
      ((s.unit u).link.heardBefore = true →
        exec (.linkSilenceCount u) s = .next ((s.takes (.linkSilence u)).setUnit u
          { s.unit u with link := { (s.unit u).link with silenceCount := 0, silent := false } })) ∧
      ((s.unit u).link.heardBefore = false → (s.unit u).link.silenceCount + 1 < s.supervision.silenceHold →
        exec (.linkSilenceCount u) s = .next ((s.takes (.linkSilence u)).setUnit u
          { s.unit u with
            link :=
              { (s.unit u).link with
                silenceCount := (s.unit u).link.silenceCount + 1
                silent := !(s.unit u).link.heard } })))

/-- A link is lost when its ack timer expires, when its silence count reaches the hold, and when its frame errors reach the burst count.
It is LOST with its latched indicator set, its directives and timers are dropped, its unit is DARK, and its contribution is frozen; an
engaged order fails as LINK_LOST (R141 to R144, R88, R35). The model's own: the fields `due` (log entry 1), `heardBefore` (log entries
6, 43) and `linkOut` (log entry 8). -/
def Obligations.LinkLost : Prop :=
  ∀ (s : State) (u : UnitNo) (i : Instr) (count silence : Nat),
    (s.unit u).present = true → (s.unit u).link.state = .exchange ∨ (s.unit u).link.state = .up →
    (i = .ackTimerExpiry u ∧ DueEvent.ack u ∈ s.due ∧ (s.unit u).link.ackTimer = some 0 ∧
        count = (s.unit u).link.frameErrors ∧ silence = (s.unit u).link.silenceCount) ∨
      (i = .linkSilenceCount u ∧ DueEvent.linkSilence u ∈ s.due ∧ (s.unit u).link.heardBefore = false ∧
        s.supervision.silenceHold ≤ (s.unit u).link.silenceCount + 1 ∧
        count = (s.unit u).link.frameErrors ∧ silence = (s.unit u).link.silenceCount + 1) ∨
      (i = .linkFrameBad u ∧ s.supervision.burstCount ≤ (s.unit u).link.frameErrors + 1 ∧
        count = (s.unit u).link.frameErrors + 1 ∧ silence = (s.unit u).link.silenceCount) →
    ((s.unit u).context ≠ .engaged → ∃ t b : _, exec i s = .next t ∧ b = (s.unit u).disconnected .lost ∧
      t.unit u = { b with link := { b.link with frameErrors := count, silenceCount := silence } } ∧
      t.latched .linkChange = true ∧ ((s.unit u).context ≠ .dark → t.latched .unitChange = true) ∧
      (∀ v, v ≠ u → t.unit v = s.unit v) ∧ t.slots = s.slots ∧ t.waterways = s.waterways ∧ t.linkOut = []) ∧
    ∀ (h : Handle) (r : Order), (s.unit u).context = .engaged → s.engagedOrder u = some (h, r) → s.named = [] →
      r.partner = none → r.successor = none → r.retirePending = false →
      ∃ t : State, exec i s = .next t ∧ t.order? h = some { r with life := .failed .linkLost s.plantTime, unseen := true } ∧
        (t.unit u).context = .dark ∧ (t.unit u).link.state = .lost ∧ (t.unit u).link.lostLatch = true ∧
        (t.unit u).contribution = (s.unit u).contribution ∧ t.latched .linkChange = true ∧ t.latched .orderFailed = true

/-- A page while the link is EXCHANGE or UP: one that repeats the last page taken is acknowledged again, PAGE 0 with a more flag of 1
starts a collection, the page that follows the last one is taken, and any other is out of sequence: a frame error without a PAGE_ACK.
In DOWN, LOST and REFUSED, PAGE 0 with a more flag of 1 starts an exchange, and any other page is discarded (R128, R129, R131, Table
7-3). The model's own: the page that starts an exchange counts as a valid frame (log entry 14), and how an undefined more flag or page
toggle is taken (log entry 16). -/
def Obligations.PageJudged : Prop :=
  ∀ (s : State) (u : UnitNo) (p : Page) (l : Link), (s.unit u).present = true → l = (s.unit u).link →
    (l.state = .exchange ∨ l.state = .up →
      (l.lastPage = some (p.contents.number, p.toggle) →
        exec (.pageReport u p) s = .next
          { s.quiet.setUnit u { s.unit u with link := { l with heard := true, silent := false } } with
            linkOut := [(u, .pageAck p.contents.number p.toggle)] }) ∧
      (∀ ps : List Page, p.contents.number < 4 → l.lastPage ≠ some (p.contents.number, p.toggle) →
        (p.contents.number = 0 ∧ p.more = 1 ∧ ps = []) ∨
          (p.contents.number ≠ 0 ∧ p.more = 1 ∧ l.collecting = some ps ∧
            ∃ toggle, l.lastPage = some (p.contents.number - 1, toggle) ∧ toggle ≠ p.toggle) →
        exec (.pageReport u p) s = .next
          { s.quiet.setUnit u
              { s.unit u with
                link :=
                  { l with
                    heard := true
                    silent := false
                    collecting := some (ps ++ [p])
                    lastPage := some (p.contents.number, p.toggle) } } with
            linkOut := [(u, .pageAck p.contents.number p.toggle)] }) ∧
      (l.lastPage ≠ some (p.contents.number, p.toggle) → ¬ (p.contents.number = 0 ∧ p.more = 1) →
        (∀ n toggle, l.lastPage = some (n, toggle) →
          p.contents.number ≠ n + 1 ∨ p.toggle = toggle ∨ p.more ≠ (if p.contents.number = 4 then 0 else 1)) →
        l.frameErrors + 1 < s.supervision.burstCount →
        exec (.pageReport u p) s = .next (s.quiet.setUnit u
          { s.unit u with
            link :=
              { l with
                heard := true
                silent := false
                collecting := none
                lastPage := none
                frameErrors := l.frameErrors + 1 } }))) ∧
    (l.state = .down ∨ l.state = .lost ∨ l.state = .refused →
      (p.contents.number = 0 → p.more = 1 →
        exec (.pageReport u p) s = .next
          { s.quiet.setUnit u
              { s.unit u with
                link :=
                  { l with
                    state := .exchange
                    heard := true
                    heardBefore := true
                    silent := false
                    silenceCount := 0
                    frameErrors := 0
                    burstTimer := some s.supervision.burstWindow
                    collecting := some [p]
                    lastPage := some (0, p.toggle) } } with
            linkOut := [(u, .pageAck 0 p.toggle)] }) ∧
      (¬ (p.contents.number = 0 ∧ p.more = 1) → exec (.pageReport u p) s = .next s.quiet))

/-- The fifth page completes a record. In EXCHANGE a record that passes its checks becomes current and the link is UP, with toggle 0; one
that fails leaves the link REFUSED with its reason. While UP a record that fails leaves the current record as it stands. A record that
differs from the one held, and any that passes while UP, is a capability swap: CAPABILITY_CHANGE is raised and the unit's order, which is
HELD, DUE or a RUNNING GENERATE order, is re-checked. A target above the new Pmax is lowered to it with the derated flag, planned_flow is
worked out anew, a feasible order goes on, its setpoint brought within the new Pmin and target, and an infeasible one fails with cause
CAPABILITY before it is engaged, or begins its stop (R132, R133, R135, R60, R61, R37); a gate that is not SPACING may grant at the swap, so
there the entries of its queue name orders that wait for it. The model's own: which pages are part of a record
(log entry 17), and that planned_flow stands where the new record has no pump table (log entry 46). -/
def Obligations.RecordCompleted : Prop :=
  ∀ (s : State) (u : UnitNo) (p : Page) (l : Link) (ps : List Page) (last : Byte), (s.unit u).present = true →
    l = (s.unit u).link → l.collecting = some ps → l.lastPage = some (3, last) → last ≠ p.toggle → p.contents.number = 4 →
    p.more = 0 →
    (∀ (c : Capability) (h : Handle) (r : Order) (w : WaterwayNo) (target : Nat) (flow : Int) (lowered feasible : Prop),
      recordOf u (ps ++ [p]) = .ok c →
      (l.state = .up ∨ (l.state = .exchange ∧ ∃ old, l.current = some old ∧ old ≠ c)) → s.named = [] → w = (s.unit u).waterway →
      s.order? h = some r → r.unit = u → r.life.live = true → r.life.isStopping = false → r.partner = none → r.successor = none →
      r.retirePending = false → (∀ k q, s.order? k = some q → q.unit = u → q.life.live = true → k = h) →
      (lowered ↔ r.mode = .generate ∧ c.pmax < r.target) → (lowered → target = c.pmax) → (¬ lowered → target = r.target) →
      (r.mode = .generate → flow = c.genFlow target (s.waterway w).hAdm) →
      (r.mode = .pump → ∀ x, c.pump = some x → flow = -(x.pumpFlow (s.waterway w).hAdm : Int)) →
      (r.mode = .pump → c.pump = none → flow = r.plannedFlow) → (r.mode = .condenseG ∨ r.mode = .condenseP → flow = 0) →
      (feasible ↔ c.offers r.mode = true ∧ (r.mode = .generate → c.pmin ≤ target) ∧
        (r.mode = .pump ∨ r.mode = .condenseP → ∃ x, c.pump = some x ∧ x.head[0] ≤ (s.waterway w).hAdm ∧
          (s.waterway w).hAdm ≤ x.head[7]) ∧
        s.check9 w [h] flow r.start r.finish = true) →
      (r.life = .held ∨ r.life = .due →
        (s.waterway w).spacing.isSome = true ∨ (∀ e ∈ (s.waterway w).queue, ∃ x, s.order? e.handle = some x ∧
          ((e.kind = .start ∧ x.life = .starting .awaitingGate) ∨ (e.kind = .stop ∧ ∃ c, x.life = .stopping .awaitingGate c))) →
        ∃ t : State, exec (.pageReport u p) s = .next t ∧ t.latched .capabilityChange = true ∧
        (t.unit u).link.state = .up ∧ (t.unit u).link.current = some c ∧
        (feasible → ∃ q, t.order? h = some q ∧
          q = { r with target := target, derated := q.derated, plannedFlow := flow, unseen := q.unseen } ∧
          (q.derated = true ↔ lowered ∨ r.derated = true) ∧
          (q.unseen = true ↔ lowered ∨ flow ≠ r.plannedFlow ∨ r.unseen = true)) ∧
        (¬ feasible → ∃ q, t.order? h = some q ∧ q.life = .failed .capability s.plantTime ∧ q.unseen = true ∧
          t.latched .orderFailed = true)) ∧
      ∀ sp, l.state = .up → r.life = .running → r.mode = .generate → s.engagedOrder u = some (h, r) →
        (s.waterway w).spacing.isSome = true → (s.unit u).setpoint = some sp →
        ∃ t q, exec (.pageReport u p) s = .next t ∧ t.latched .capabilityChange = true ∧ (t.unit u).link.current = some c ∧
          t.order? h = some q ∧ q.target = target ∧ q.plannedFlow = flow ∧
          (feasible → q.life = .running ∧ (t.unit u).setpoint = some (if target < sp then target else max sp c.pmin)) ∧
          (¬ feasible → c.pmin < sp → q.life = .stopping .unloading .capability ∧ q.unseen = true ∧
            (t.unit u).setpoint = some sp)) ∧
    (∀ c, recordOf u (ps ++ [p]) = .ok c → l.state = .exchange → (l.current = none ∨ l.current = some c) →
      ∃ t : State, exec (.pageReport u p) s = .next t ∧ t.latched .linkChange = true ∧
        (t.unit u).link =
          { l with
            state := .up
            current := some c
            heard := true
            silent := false
            collecting := none
            lastPage := some (4, p.toggle)
            toggle := false
            outstanding := none
            held := none
            ackTimer := none
            refusal := none
            sinceUp := false } ∧
        (t.unit u).context = (s.unit u).context ∧ t.linkOut = [(u, .pageAck 4 p.toggle)]) ∧
    ∀ e, recordOf u (ps ++ [p]) = .error e →
      (l.state = .exchange → ∃ t : State, exec (.pageReport u p) s = .next t ∧ t.latched .linkChange = true ∧
        (t.unit u).link.state = .refused ∧ (t.unit u).link.refusal = some e ∧ (t.unit u).link.current = l.current ∧
        (t.unit u).link.burstTimer = none ∧ (t.unit u).link.collecting = none) ∧
      (l.state = .up → ∃ t : State, exec (.pageReport u p) s = .next t ∧ t.latched .linkChange = true ∧
        (t.unit u).link.state = .up ∧ (t.unit u).link.refusal = some e ∧ (t.unit u).link.current = l.current ∧
        (t.unit u).link.collecting = none)

/-- An ACK that matches the outstanding directive and the toggle stops the ack timer and flips the toggle, and the held directive goes
next, or else the pending setpoint. With another toggle it is discarded; with the right toggle and the wrong kind, or nothing
outstanding, it is a frame error (R137, R138, R143). The model's own: a toggle byte other than 0 and 1 is another toggle (log entry
41). -/
def Obligations.AckJudged : Prop :=
  ∀ (s : State) (u : UnitNo) (kind toggle : Byte) (b : UnitBlock), (s.unit u).present = true →
    b = { s.unit u with link := { (s.unit u).link with heard := true, silent := false } } →
    (b.link.state = .down ∨ b.link.state = .lost ∨ b.link.state = .refused → exec (.ackReport u kind toggle) s = .next s.quiet) ∧
    (b.link.state = .exchange ∨ (b.link.state = .up ∧ toggle ≠ (if b.link.toggle = true then 1 else 0)) →
      exec (.ackReport u kind toggle) s = .next (s.quiet.setUnit u b)) ∧
    (b.link.state = .up → toggle = (if b.link.toggle = true then 1 else 0) →
      ((∀ d, b.link.outstanding = some d → d.code ≠ kind.toNat) → b.link.frameErrors + 1 < s.supervision.burstCount →
        exec (.ackReport u kind toggle) s = .next
          (s.quiet.setUnit u { b with link := { b.link with frameErrors := b.link.frameErrors + 1 } })) ∧
      ∀ d, b.link.outstanding = some d → d.code = kind.toNat →
        (b.link.held = none → b.pendingSetpoint = none →
          exec (.ackReport u kind toggle) s = .next (s.quiet.setUnit u
            { b with link := { b.link with outstanding := none, ackTimer := none, toggle := !b.link.toggle } })) ∧
        ∀ next, b.link.held = some next ∨ (b.link.held = none ∧ ∃ p, b.pendingSetpoint = some p ∧ next = .setPower p) →
          exec (.ackReport u kind toggle) s = .next
            { s.quiet.setUnit u
                { b with
                  pendingSetpoint := if b.link.held.isSome = true then b.pendingSetpoint else none
                  link :=
                    { b.link with
                      outstanding := some next
                      held := none
                      ackTimer := some s.supervision.ackTimeout
                      toggle := !b.link.toggle } } with
              linkOut := [(u, .directive (!b.link.toggle) next)] })

/-- A STATE report for a unit with no order engaged is stored, places the unit at its first report, moves the context by Table 7-8 after
it, gives the contribution of Table 2-1, and a report that starts a trip restarts the spacing (R140, R147, R148, R33, R85, R111). The
model's own: the order of the parts of a report (log entry 10), and that the spacing restarts first (log entry 11). -/
def Obligations.StateReportPlacesUnit : Prop :=
  ∀ (s : State) (u : UnitNo) (p : Report) (c : Capability) (b : UnitBlock) (placed : Context), (s.unit u).present = true →
    b = s.unit u → b.link.state = .up → b.link.current = some c →
    (∀ k q, s.order? k = some q → q.unit = u → q.life ≠ .due ∧ q.life.engaged = false) →
    placed = (if p.place = .locally then .locally else if p.state = .standstill then .idle else .orphan) →
    (b.link.sinceUp = true → b.context = .idle ∨ b.context = .orphan ∨ b.context = .recovering ∨ b.context = .locally) →
    ∃ t : State, exec (.stateReport u p) s = .next t ∧
      (t.unit u).link.lastReport = some p ∧ (t.unit u).link.sinceUp = true ∧ (t.unit u).link.silent = false ∧
      (t.unit u).context =
        (if b.link.sinceUp = true ∧ b.context = .recovering ∧ placed = .orphan then .recovering else placed) ∧
      (t.unit u).contribution =
        (match p.state with
          | .generating => (c.genFlow (c.clampPower p.power) (s.headFor u) : Int)
          | .runupG => (c.genFlow c.pmin (s.headFor u) : Int)
          | .pumping => match c.pump with
            | some x => -(x.pumpFlow (s.headFor u) : Int)
            | none => b.contribution
          | _ => 0) ∧
      (p.state = .tripped → (∀ q, b.link.lastReport = some q → q.state ≠ .tripped) →
        (t.waterway b.waterway).spacing =
          (if (s.waterway b.waterway).spacingTime = 0 then none else some (s.waterway b.waterway).spacingTime))

/-- A STATE report for an engaged order: LOCAL control, a trip and a dropped machine fail it; SYNCED_P ends its converter run, by which a
PUMP order waits for its water-up and a CONDENSE_P order is RUNNING; the running state of GENERATE, PUMP and CONDENSE_G completes its start;
STANDSTILL ends a rundown or a coasting; a report that does not fit its phase, as PUMPING of a RUNNING GENERATE order, is ignored and
counted as a frame error. A PUMP leg that becomes RUNNING releases its GENERATE leg from PAIR_HOLD; the end of a GENERATE leg begins the
stop of its RUNNING PUMP leg, with the cause awaited or else PARTNER (R69 to R73, R77, R81 to R87, R97, Tables 4-4, 4-5). The model's own:
the order of the parts of a report (log entry 10), and that SYNCED_P sets the motion mark (log entry 12). -/
def Obligations.EngagedReportJudged : Prop :=
  (∀ (s : State) (u : UnitNo) (p : Report) (h : Handle) (r : Order), (s.unit u).present = true → (s.unit u).context = .engaged →
    (s.unit u).link.state = .up → (s.unit u).link.sinceUp = true → s.engagedOrder u = some (h, r) → s.named = [] →
    r.partner = none → r.successor = none → r.retirePending = false → (s.waterway (s.unit u).waterway).spacing.isSome = true →
    0 < (s.waterway (s.unit u).waterway).spacingTime → (∀ k q, s.order? k = some q → q.unit = u → q.life ≠ .due) →
    (∀ c, (s.converter c).state ≠ .free) →
    (∀ cause context,
      (p.place = .locally ∧ cause = .localControl ∧ context = .locally) ∨
        (p.place = .remote ∧ p.state = .tripped ∧ cause = .trip ∧ context = .recovering) ∨
        (p.place = .remote ∧ p.state = .standstill ∧ cause = .dropped ∧ context = .idle ∧
          (r.life = .running ∨ (r.life = .starting .runup ∧ (s.unit u).motion = true) ∨
            (r.life = .starting .awaitingGate ∧ r.mode = .pump) ∨ (∃ c, r.life = .stopping .unloading c) ∨
            ∃ c, r.life = .stopping .awaitingGate c)) ∨
        (p.place = .remote ∧ p.state = .standstill ∧ r.life = .starting .coasting ∧ (s.retry = false ∨ 2 ≤ r.attempts) ∧
          cause = .converter ∧ context = .idle) →
      r.life ≠ .starting .converterRun →
      ∃ t : State, exec (.stateReport u p) s = .next t ∧
        t.order? h = some { r with life := .failed cause s.plantTime, unseen := true } ∧ (t.unit u).context = context ∧
        t.latched .orderFailed = true ∧ (t.unit u).setpoint = none ∧ (t.unit u).supervision = none) ∧
    (∀ c n, r.life = .starting .converterRun → (s.converter c).state = .running h u n → 0 < (s.converter c).coolDown →
      (∀ c' v m, (s.converter c').state = .running h v m → c' = c) →
      ((p.place = .locally ∨ p.state = .tripped ∨ (p.state = .standstill ∧ (s.unit u).motion = true)) → ∃ (t : State) (q : Order),
        exec (.stateReport u p) s = .next t ∧ t.order? h = some q ∧
          q = { r with life := q.life, unseen := true } ∧
          q.life = .failed (if p.place = .locally then .localControl else if p.state = .tripped then .trip else .dropped)
            s.plantTime ∧
          (t.unit u).context = (if p.place = .locally then .locally else if p.state = .tripped then .recovering else .idle) ∧
          t.converter c =
            { s.converter c with
              state := if (s.converter c).outRequest = true then .out else .cooling (s.converter c).coolDown
              outRequest := false } ∧
          t.latched .orderFailed = true ∧ t.latched .converterChange = true) ∧
      (p.place = .remote → p.state = .syncedP → (r.mode = .pump ∨ r.mode = .condenseP) → ∃ t : State,
        exec (.stateReport u p) s = .next t ∧ (t.unit u).motion = true ∧ (t.unit u).context = .engaged ∧
          t.converter c =
            { s.converter c with
              state := if (s.converter c).outRequest = true then .out else .cooling (s.converter c).coolDown
              outRequest := false } ∧
          t.latched .converterChange = true ∧
          (r.mode = .pump → t.order? h = some { r with life := .starting .awaitingGate } ∧
            ∃ e ∈ (t.waterway (s.unit u).waterway).queue, e.handle = h ∧ e.unit = u ∧ e.kind = .start) ∧
          (r.mode = .condenseP → t.latched .orderChanged = true ∧ (t.unit u).supervision = none ∧
            t.order? h = some { r with life := .running, actualStart := some s.plantTime, unseen := true }))) ∧
    (∀ c : Capability, (s.unit u).link.current = some c → p.place = .remote → r.life = .starting .runup →
      (r.mode = .pump ∧ p.state = .pumping) ∨ (r.mode = .condenseG ∧ p.state = .condensingG) → ∃ t : State,
      exec (.stateReport u p) s = .next t ∧
        t.order? h = some { r with life := .running, actualStart := some s.plantTime, unseen := true } ∧
        (t.unit u).supervision = none ∧ (t.unit u).context = .engaged ∧ t.latched .orderChanged = true ∧
        (r.mode = .condenseG → (t.unit u).contribution = 0) ∧
        ∀ x, r.mode = .pump → c.pump = some x → (t.unit u).contribution = -(x.pumpFlow (s.headFor u) : Int)) ∧
    (∀ c, p.place = .remote → p.state = .standstill → r.life = .stopping .rundown c → ∃ t : State,
      exec (.stateReport u p) s = .next t ∧ t.order? h = some { r with life := .done c s.plantTime, unseen := true } ∧
        (t.unit u).context = .idle ∧ t.latched .orderDone = true) ∧
    (p.place = .remote → p.state = .standstill → r.life = .starting .coasting → s.retry = true → r.attempts < 2 →
      ∃ t : State, exec (.stateReport u p) s = .next t ∧ t.order? h = some { r with life := .starting .queuedConverter } ∧
        (t.unit u).supervision = none ∧ { handle := h, unit := u, cls := r.cls, start := r.start } ∈ t.startQueue) ∧
    (∀ c : Capability, (s.unit u).link.current = some c → p.place = .remote → p.state = .generating → r.mode = .generate →
      r.life = .starting .runup → c.pmin ≠ r.target → ∃ t : State, exec (.stateReport u p) s = .next t ∧
        t.order? h = some { r with life := .running, actualStart := some s.plantTime, unseen := true } ∧
        (t.unit u).setpoint = some c.pmin ∧ (t.unit u).supervision = none ∧ (t.unit u).context = .engaged ∧
        (t.unit u).contribution = c.genFlow c.pmin (s.headFor u) ∧
        ((s.unit u).link.outstanding = none →
          t.linkOut = [(u, .directive (s.unit u).link.toggle (.setPower c.pmin))])) ∧
    (p.place = .remote → p.state = .pumping → r.mode = .generate → r.life = .running →
      (s.unit u).link.frameErrors + 1 < s.supervision.burstCount → ∃ t : State, exec (.stateReport u p) s = .next t ∧
        t.order? h = some r ∧ (t.unit u).context = .engaged ∧
        (t.unit u).link.frameErrors = (s.unit u).link.frameErrors + 1)) ∧
  ∀ (s : State) (h g : Handle) (r q : Order) (p : Report), s.IsPair h g r q → s.named = [] → r.retirePending = false →
    q.retirePending = false → (∀ u, u = r.unit ∨ u = q.unit → (s.unit u).present = true ∧ (s.unit u).context = .engaged ∧
      (s.unit u).link.state = .up ∧ (s.unit u).link.sinceUp = true ∧ (s.waterway (s.unit u).waterway).spacing.isSome = true ∧
      0 < (s.waterway (s.unit u).waterway).spacingTime ∧ ∀ k y, s.order? k = some y → y.unit = u → y.life ≠ .due) →
    s.engagedOrder r.unit = some (h, r) → s.engagedOrder q.unit = some (g, q) → p.place = .remote →
    (p.state = .pumping → r.life = .starting .runup → q.life = .starting .pairHold → ∃ t : State,
      exec (.stateReport r.unit p) s = .next t ∧
        t.order? h = some { r with life := .running, actualStart := some s.plantTime, unseen := true } ∧
        t.order? g = some { q with life := .starting .awaitingGate } ∧
        ∃ e ∈ (t.waterway (s.unit q.unit).waterway).queue, e.handle = g ∧ e.unit = q.unit ∧ e.kind = .start) ∧
    ∀ ended : Life, r.life = .running →
      ((∃ c, p.state = .standstill ∧ q.life = .stopping .rundown c ∧ ended = .done c s.plantTime) ∨
        (p.state = .tripped ∧ (q.life = .running ∨ q.life = .starting .runup) ∧ ended = .failed .trip s.plantTime)) →
      ∃ t : State, exec (.stateReport q.unit p) s = .next t ∧
        t.order? g = some { q with life := ended, unseen := true } ∧
        t.order? h = some
          { r with life := .stopping .awaitingGate (r.awaited.getD .partner), awaited := none, unseen := true } ∧
        ∃ e ∈ (t.waterway (s.unit r.unit).waterway).queue, e.handle = h ∧ e.unit = r.unit ∧ e.kind = .stop

/-! ## Requests on units and links (R89, R90, R145, R146) -/

/-- ISOLATE is refused with BUSY for an ENGAGED or RECOVERING unit; otherwise it sets the isolated flag and fails a DUE order of the unit,
and RESTORE clears the flag. HALT_UNIT is refused for an ABSENT, DARK or LOCAL unit and does nothing to an IDLE one; to an ORPHAN,
RECOVERING or ENGAGED one it sends TO_STANDSTILL without waiting for the gate, whose spacing starts afresh, and leaves it RECOVERING,
an engaged order failing as HALTED (R89, R90, R111). The model's own: the spacing restarts before the order is released (log entry
11). -/
def Obligations.UnitRequestsTaken : Prop :=
  (∀ (s : State) (tag : Byte) (body : List Byte) (u : UnitNo), s.mode = .dispatch → body.length = 1 →
     byteAt body 0 = BitVec.ofNat 8 u →
     ((s.unit u).context = .engaged ∨ (s.unit u).context = .recovering →
       exec (.isolate tag body) s = .next (s.answered 8 tag 6 .busy [] s.taken)) ∧
     ((s.unit u).context ≠ .engaged → (s.unit u).context ≠ .recovering →
       ((∀ k q, s.order? k = some q → q.unit = u → q.life ≠ .due) →
         exec (.isolate tag body) s = .next (s.answered 8 tag 6 .ok []
           (s.taken.setUnit u { s.unit u with isolated := true }))) ∧
       ∀ (h : Handle) (r : Order), s.named = [] → s.order? h = some r → r.unit = u → r.life = .due → r.partner = none →
         r.successor = none → r.retirePending = false → (∀ k q, s.order? k = some q → q.unit = u → q.life = .due → k = h) →
         ∃ t : State, exec (.isolate tag body) s = .next (s.answered 8 tag 6 .ok [] t) ∧ (t.unit u).isolated = true ∧
           t.order? h = some { r with life := .failed .isolated s.plantTime, unseen := true } ∧ t.latched .orderFailed = true) ∧
     exec (.restore tag body) s = .next (s.answered 9 tag 6 .ok [] (s.taken.setUnit u { s.unit u with isolated := false }))) ∧
  (∀ (s : State) (tag : Byte) (body : List Byte) (u : UnitNo), body.length = 1 → byteAt body 0 = BitVec.ofNat 8 u →
     ((s.unit u).context = .absent ∨ (s.unit u).context = .dark ∨ (s.unit u).context = .locally →
       exec (.haltUnit tag body) s = .next (s.answered 10 tag 6 .unitUnavailable [] s.taken)) ∧
     ((s.unit u).context = .idle → exec (.haltUnit tag body) s = .next (s.answered 10 tag 6 .ok [] s.taken)) ∧
     ((s.unit u).link.state = .up → (s.unit u).link.outstanding = none →
       0 < (s.waterway (s.unit u).waterway).spacingTime →
       (s.unit u).context = .orphan ∨ (s.unit u).context = .recovering ∨
         (s.unit u).context = .engaged ∧ (∃ h r, s.engagedOrder u = some (h, r) ∧ r.partner = none ∧ r.successor = none ∧
           r.life ≠ .starting .converterRun) →
       ∃ t : State, exec (.haltUnit tag body) s = .next (s.answered 10 tag 6 .ok [] t) ∧ (t.unit u).context = .recovering ∧
         (t.unit u).link.outstanding = some .toStandstill ∧
         (u, .directive (s.unit u).link.toggle .toStandstill) ∈ t.linkOut ∧
         (t.waterway (s.unit u).waterway).spacing = some (s.waterway (s.unit u).waterway).spacingTime ∧
         ∀ h r, (s.unit u).context = .engaged → s.engagedOrder u = some (h, r) → s.named = [] → r.retirePending = false →
           t.order? h = some { r with life := .failed .halted s.plantTime, unseen := true } ∧ t.latched .orderFailed = true))

/-- RELINK puts a link into DOWN: an EXCHANGE or UP one with the effects of a loss, but with the latched lost indicator as it stands, so
that an engaged order fails as LINK_LOST; and a LOST or REFUSED one with LINK_CHANGE alone. LINK_STATUS reports every item of the link,
and the lost indicator, which it then clears (R145, R146, R88, R144). The model's own: a pending exchange is reported only while the
link is UP and has pages collected (log entries 15, 56). -/
def Obligations.LinkRequestsTaken : Prop :=
  ∀ (s : State) (tag : Byte) (body : List Byte) (u : UnitNo), body.length = 1 → byteAt body 0 = BitVec.ofNat 8 u →
    ((s.unit u).present = false → exec (.relink tag body) s = .next (s.answered 16 tag 6 .unitUnavailable [] s.taken)) ∧
    ((s.unit u).present = true →
      ((s.unit u).link.state = .down → exec (.relink tag body) s = .next (s.answered 16 tag 6 .ok [] s.taken)) ∧
      ((s.unit u).link.state = .lost ∨ (s.unit u).link.state = .refused →
        exec (.relink tag body) s = .next (s.answered 16 tag 6 .ok []
          ((s.taken.setUnit u { s.unit u with link := { (s.unit u).link with state := .down } }).raise .linkChange))) ∧
      ((s.unit u).link.state = .exchange ∨ (s.unit u).link.state = .up → (s.unit u).context ≠ .engaged →
        ∃ t : State, exec (.relink tag body) s = .next (s.answered 16 tag 6 .ok [] t) ∧
          t.unit u = (s.unit u).disconnected .down ∧ t.latched .linkChange = true ∧ t.slots = s.slots) ∧
      ∀ (h : Handle) (r : Order), (s.unit u).link.state = .up → (s.unit u).context = .engaged → s.engagedOrder u = some (h, r) →
        s.named = [] → r.partner = none → r.successor = none → r.retirePending = false →
        ∃ t : State, exec (.relink tag body) s = .next (s.answered 16 tag 6 .ok [] t) ∧
          t.order? h = some { r with life := .failed .linkLost s.plantTime, unseen := true } ∧ (t.unit u).context = .dark ∧
          (t.unit u).link.state = .down ∧ (t.unit u).link.lostLatch = (s.unit u).link.lostLatch ∧
          (t.unit u).contribution = (s.unit u).contribution ∧ (t.unit u).setpoint = none ∧ t.latched .linkChange = true ∧
          t.latched .orderFailed = true) ∧
    ∃ out : List Byte,
      exec (.linkStatus tag body) s = .next (s.answered 15 tag 6 .ok out
        (s.taken.setUnit u { s.unit u with link := { (s.unit u).link with lostLatch := false } })) ∧
      out.length = 13 ∧
      ∀ (l : Link) (exchanging : Bool), l = (s.unit u).link →
        (exchanging = true ↔ l.state = .up ∧ l.collecting ≠ none) →
        out.take 1 = beBytes 1 l.state.code ∧
        (List.range 8).map (byteAt out 1).getLsbD =
          [l.lostLatch, l.silent, exchanging, l.current.isSome, l.refusal.isSome, l.burstTimer.isSome, l.outstanding.isSome,
            l.held.isSome] ∧
        (out.drop 2).take 6 = optBytes 1 (l.refusal.map RefusalReason.code) ++ beBytes 1 l.frameErrors ++ optBytes 2 l.burstTimer ++
          beBytes 1 l.silenceCount ++ boolByte l.toggle ∧
        (out.drop 8).take 4 = optBytes 1 (l.outstanding.map Directive.code) ++ optBytes 2 l.ackTimer ++
          optBytes 1 (l.held.map Directive.code) ∧
        (exchanging = false → out.drop 12 = [0]) ∧
        ∀ pages, exchanging = true → l.collecting = some pages → out.drop 12 = beBytes 1 pages.length

/-! ## The Gauge Monitor (Chapter 8) -/

/-- A telegram is judged by the first check it fails: frame, validity flag, range, jump. A good one gives the held level and raises the good
run, a bad one the bad run; a good run of 3 makes a gauge VALID, and a bad run of 3 takes a VALID one to FAULT. At each second mark the
silence count rises by one, to 255 at most, and above the setting a VALID gauge is in FAULT; a change of state raises GAUGE_CHANGE
(R153 to R156). -/
def Obligations.GaugesJudgedAndSupervised : Prop :=
  (∀ (s : State) (g : GaugeNo) (bytes : List Byte) (level : Nat) (heard good : Prop) (reason : BadReason) (x : Gauge),
     x = s.gauge g → level = field bytes 2 4 →
     (heard ↔ bytes.length = 11 ∧ byteAt bytes 0 = 10 ∧ bytes = withCrc (bytes.take 9) ∧ byteAt bytes 1 = BitVec.ofNat 8 g) →
     (good ↔ heard ∧ (byteAt bytes 6).getLsbD 0 = true ∧ level ≤ 100000 ∧
       (x.state = .valid → ∀ v, x.level = some v → max level v - min level v ≤ x.jumpLimit)) →
     (x.state = .valid → x.level.isSome = true) →
     (reason = .frame ↔ ¬ heard) →
     (heard → (reason = .notValid ↔ (byteAt bytes 6).getLsbD 0 = false)) →
     (heard → (byteAt bytes 6).getLsbD 0 = true → (reason = .range ↔ 100000 < level)) →
     ∃ t : State, exec (.gaugeTelegram g bytes) s = .next t ∧
       (good → (t.gauge g).level = some level ∧ (t.gauge g).lastBad = x.lastBad ∧ (t.gauge g).silence = 0 ∧
         (x.state = .valid → (t.gauge g).state = .valid ∧ (t.gauge g).goodRun = min (x.goodRun + 1) 3 ∧ (t.gauge g).badRun = 0) ∧
         (x.state ≠ .valid → x.goodRun < 2 → (t.gauge g).state = x.state ∧ (t.gauge g).goodRun = x.goodRun + 1 ∧
           (t.gauge g).badRun = 0) ∧
         (x.state ≠ .valid → 2 ≤ x.goodRun → (t.gauge g).state = .valid ∧ (t.gauge g).goodRun = 0 ∧ (t.gauge g).badRun = 0 ∧
           t.latched .gaugeChange = true)) ∧
       (¬ good → (t.gauge g).level = x.level ∧ (t.gauge g).high = x.high ∧ (t.gauge g).low = x.low ∧
         (t.gauge g).lastBad = some reason ∧ (t.gauge g).silence = (if (t.gauge g).lastBad = some .frame then x.silence else 0) ∧
         (x.state = .valid ∧ 2 ≤ x.badRun → (t.gauge g).state = .fault ∧ (t.gauge g).goodRun = 0 ∧ (t.gauge g).badRun = 0 ∧
           t.latched .gaugeChange = true) ∧
         (x.state ≠ .valid ∨ x.badRun < 2 → (t.gauge g).state = x.state ∧ (t.gauge g).goodRun = 0 ∧
           (t.gauge g).badRun = min (x.badRun + 1) 3)) ∧
       ∀ g', g' ≠ g → t.gauge g' = s.gauge g') ∧
  (∀ (s : State) (g : GaugeNo) (n : Nat), DueEvent.gaugeSilence g ∈ s.due → n = min ((s.gauge g).silence + 1) 255 →
     ((s.gauge g).state = .valid → (s.gauge g).silenceLimit < n →
       exec (.gaugeSilenceCount g) s = .next (((s.takes (.gaugeSilence g)).setGauge g
         { s.gauge g with silence := n, state := .fault, goodRun := 0, badRun := 0 }).raise .gaugeChange)) ∧
     ((s.gauge g).state ≠ .valid ∨ n ≤ (s.gauge g).silenceLimit →
       exec (.gaugeSilenceCount g) s = .next ((s.takes (.gaugeSilence g)).setGauge g { s.gauge g with silence := n })))

/-- A limit flag sets at its limit, clears at the hysteresis beyond it, and otherwise stands; the two inhibits of a waterway follow the
flags of its gauges and are set while either gauge is UNKNOWN, and the live head is the difference of the levels, kept within 500..90 000,
or H_adm. An inhibit that a telegram sets gives a stop with cause LIMIT to the RUNNING order of its mode and to one in RUNUP, and to no
other order: not to a condensing order, nor to one whose water is not yet moving. A pair is judged by the inhibit of its sense while its
GENERATE leg is RUNNING, and its PUMP leg alone by PUMP_INHIBIT while that leg is in PAIR_HOLD (R157, R158, R29, R159, R160, R81, R82). The
model's own: the new head comes before the inhibits (log entry 23). -/
def Obligations.LevelsGiveFlagsInhibitsAndHead : Prop :=
  (∀ (x : Gauge) (v : Nat), x.level = some v →
    ((x.evaluateFlags).high = true ↔ x.highLimit ≤ v ∨ (x.highLimit < v + x.hysteresis ∧ x.high = true)) ∧
    ((x.evaluateFlags).low = true ↔ v ≤ x.lowLimit ∨ (v < x.lowLimit + x.hysteresis ∧ x.low = true))) ∧
  (∀ upper lower : Gauge,
    (pumpInhibitOf upper lower = true ↔
      upper.high = true ∨ lower.low = true ∨ upper.state = .unknown ∨ lower.state = .unknown) ∧
    (genInhibitOf upper lower = true ↔
      upper.low = true ∨ lower.high = true ∨ upper.state = .unknown ∨ lower.state = .unknown)) ∧
  (∀ (s : State) (w : WaterwayNo) (a b : Nat), (s.gauge (s.waterway w).upper).level = some a →
    (s.gauge (s.waterway w).lower).level = some b →
    ((s.gauge (s.waterway w).upper).state = .unknown ∨ (s.gauge (s.waterway w).lower).state = .unknown →
      s.headOf w = ((s.waterway w).hAdm, false)) ∧
    ((s.gauge (s.waterway w).upper).state ≠ .unknown → (s.gauge (s.waterway w).lower).state ≠ .unknown →
      s.headOf w = (max 500 (min 90000 (a - b)), decide (a < b + 500)))) ∧
  (∀ (s : State) (g : GaugeNo) (bytes : List Byte) (w : WaterwayNo) (x lower : Gauge) (h : Handle) (r : Order),
    s.UpperTold g bytes w x → lower = s.gauge (s.waterway w).lower → s.named = [] → (s.waterway w).spacing.isSome = true →
    s.order? h = some r → r.partner = none → r.successor = none → (s.unit r.unit).waterway = w →
    (∀ k q, s.order? k = some q → q.life.engaged = true → (s.unit q.unit).waterway = w → k = h) →
    (r.mode = .pump → r.life = .running → (s.waterway w).pumpInhibit = false → pumpInhibitOf x lower = true →
      ∃ t : State, exec (.gaugeTelegram g bytes) s = .next t ∧ (t.waterway w).pumpInhibit = true ∧
        t.order? h = some { r with life := .stopping .awaitingGate .limit, unseen := true } ∧
        (∃ e ∈ (t.waterway w).queue, e.handle = h ∧ e.kind = .stop ∧ e.unit = r.unit) ∧ t.latched .inhibitChange = true ∧
        t.latched .orderChanged = true) ∧
    (∀ p c, r.mode = .generate → r.life = .running → (s.waterway w).genInhibit = false → genInhibitOf x lower = true →
      (s.unit r.unit).setpoint = some p → (s.unit r.unit).link.current = some c → c.pmin < p →
      ∃ t : State, exec (.gaugeTelegram g bytes) s = .next t ∧ (t.waterway w).genInhibit = true ∧
        t.order? h = some { r with life := .stopping .unloading .limit, unseen := true } ∧ t.latched .inhibitChange = true ∧
        t.latched .orderChanged = true) ∧
    ((r.mode = .pump ∧ (s.waterway w).pumpInhibit = false ∧ pumpInhibitOf x lower = true) ∨
        (r.mode = .generate ∧ (s.waterway w).genInhibit = false ∧ genInhibitOf x lower = true) →
      r.life = .starting .runup → (s.unit r.unit).link.state = .up → (s.unit r.unit).link.outstanding = none →
      ∃ t : State, exec (.gaugeTelegram g bytes) s = .next t ∧
        t.order? h = some { r with life := .stopping .rundown .limit, unseen := true } ∧
        t.linkOut = [(r.unit, .directive (s.unit r.unit).link.toggle .abortStart)] ∧
        (t.unit r.unit).supervision = some (s.rundownTime r.unit r.mode)) ∧
    ((r.mode = .condenseG ∨ r.mode = .condenseP) ∨ (r.life ≠ .running ∧ r.life ≠ .starting .runup) →
      ∃ t : State, exec (.gaugeTelegram g bytes) s = .next t ∧ t.order? h = some r ∧ t.linkOut = [])) ∧
  ∀ (s : State) (u : GaugeNo) (bytes : List Byte) (w : WaterwayNo) (x lower : Gauge) (h g : Handle) (r q : Order),
    s.UpperTold u bytes w x → lower = s.gauge (s.waterway w).lower → s.named = [] → (s.waterway w).spacing.isSome = true →
    s.IsPair h g r q → (s.unit r.unit).waterway = w → (s.unit q.unit).waterway = w → r.awaited = none →
    (∀ k y, s.order? k = some y → y.life.engaged = true → (s.unit y.unit).waterway = w → k = h ∨ k = g) → r.life = .running →
    (∀ p c sense, q.life = .running → (s.unit q.unit).setpoint = some p → (s.unit q.unit).link.current = some c → c.pmin < p →
      r.pairSense = some sense →
      ((sense = .pumping ∧ (s.waterway w).pumpInhibit = false ∧ pumpInhibitOf x lower = true) ∨
          (sense = .generating ∧ (s.waterway w).genInhibit = false ∧ genInhibitOf x lower = true) →
        ∃ t : State, exec (.gaugeTelegram u bytes) s = .next t ∧
          t.order? g = some { q with life := .stopping .unloading .limit, unseen := true } ∧
          t.order? h = some { r with awaited := some .limit }) ∧
      ((sense = .pumping ∧ ((s.waterway w).pumpInhibit = true ∨ pumpInhibitOf x lower = false)) ∨
          (sense = .generating ∧ ((s.waterway w).genInhibit = true ∨ genInhibitOf x lower = false)) →
        ∃ t : State, exec (.gaugeTelegram u bytes) s = .next t ∧ t.order? g = some q ∧ t.order? h = some r)) ∧
    (q.life = .starting .pairHold → q.retirePending = false → (s.waterway w).pumpInhibit = false → pumpInhibitOf x lower = true →
      (∀ k y, s.order? k = some y → y.unit = q.unit → y.life ≠ .due) →
      ∃ t : State, exec (.gaugeTelegram u bytes) s = .next t ∧
        t.order? h = some { r with life := .stopping .awaitingGate .limit, unseen := true } ∧
        t.order? g = some { q with life := .done .partner s.plantTime, unseen := true } ∧ (t.unit q.unit).context = .idle)

/-! ## Laws of the whole part -/

/-- After power-on and while no command has come, every law of the state holds: the power-on values of the model, with every strap
present and every fault line clear, as log entry 5 chooses them (R3, R164, R176, R36, R158, Table 11-1). -/
def Obligations.ResetMeetsLaws : Prop :=
  State.reset.GenerationLaw ∧ State.reset.WindowLaw ∧ State.reset.ClockLaw ∧ State.reset.port.Law ∧ State.reset.LinkLaw ∧
    State.reset.GaugeLaw ∧ State.reset.SettingsLaw ∧ State.reset.FlowLaw ∧ State.reset.HeadLaw ∧ State.reset.InhibitLaw ∧
    State.reset.QueueLaw ∧ State.reset.named = []

/-- Every step keeps the laws of the table, the clock, the port, the settings and the gauges: generations in 1..1023, every end after
its start, plant time and trim in their ranges, a response standing while one is unread, every setting in its range, runs and counts
of the gauges in theirs; between commands no handle is named (R3, R45, R164, R176, R184, R153 to R155). -/
def Obligations.StepKeepsPlainLaws : Prop :=
  ∀ s t : State, step s = .next t →
    (s.GenerationLaw → t.GenerationLaw) ∧ (s.WindowLaw → t.WindowLaw) ∧ (s.ClockLaw → t.ClockLaw) ∧
      (s.port.Law → t.port.Law) ∧ (s.SettingsLaw → t.SettingsLaw) ∧ (s.GaugeLaw → t.GaugeLaw) ∧ (s.named = [] → t.named = [])

/-- Every step keeps the law of the Unit Links: an ack timer runs exactly while a directive is outstanding, one is outstanding only
while the link is UP, what waits waits behind it, and an UP link holds a record (R127, R136, R138, R143, R144). -/
def Obligations.StepKeepsLinks : Prop :=
  ∀ s t : State, step s = .next t → s.LinkLaw → t.LinkLaw

/-- Every step keeps the live net flow equal to the sum of the contributions, the live head and the inhibits equal to what the gauges
give, and the start queue and the transient queues in their orders (R29, R30, R34, R36, R158, R93, R106). -/
def Obligations.StepKeepsFlowHeadInhibitsQueues : Prop :=
  ∀ s t : State, step s = .next t →
    (s.FlowLaw → t.FlowLaw) ∧ (s.HeadLaw → t.HeadLaw) ∧ (s.InhibitLaw → t.InhibitLaw) ∧ (s.QueueLaw → t.QueueLaw)
end

