-- ==== Sys2Proof/Laws/State.lean ====
section
/-! SUPPORT. One lemma for each field of the state under each update of it, so that no later proof unfolds a record update. -/

namespace Sys2Proof.Machine

/-! ## Vectors -/

@[simp] theorem getElem_mapVector {α β : Type} {n : Nat} (f : α → β) (v : Vector α n) (i : Nat) (h : i < n) :
    (mapVector f v)[i] = f v[i] := by
  simp [mapVector]

/-! ## Events -/

@[simp] theorem raise_mode (s : State) (e : EventKind) : (s.raise e).mode = s.mode := rfl
@[simp] theorem raise_supervision (s : State) (e : EventKind) : (s.raise e).supervision = s.supervision := rfl
@[simp] theorem raise_retry (s : State) (e : EventKind) : (s.raise e).retry = s.retry := rfl
@[simp] theorem raise_slots (s : State) (e : EventKind) : (s.raise e).slots = s.slots := rfl
@[simp] theorem raise_startQueue (s : State) (e : EventKind) : (s.raise e).startQueue = s.startQueue := rfl
@[simp] theorem raise_units (s : State) (e : EventKind) : (s.raise e).units = s.units := rfl
@[simp] theorem raise_waterways (s : State) (e : EventKind) : (s.raise e).waterways = s.waterways := rfl
@[simp] theorem raise_converters (s : State) (e : EventKind) : (s.raise e).converters = s.converters := rfl
@[simp] theorem raise_gauges (s : State) (e : EventKind) : (s.raise e).gauges = s.gauges := rfl
@[simp] theorem raise_plantTime (s : State) (e : EventKind) : (s.raise e).plantTime = s.plantTime := rfl
@[simp] theorem raise_pendingTrim (s : State) (e : EventKind) : (s.raise e).pendingTrim = s.pendingTrim := rfl
@[simp] theorem raise_latches (s : State) (e : EventKind) : (s.raise e).latches = s.latches ||| e.bit := rfl
@[simp] theorem raise_mask (s : State) (e : EventKind) : (s.raise e).mask = s.mask := rfl
@[simp] theorem raise_port (s : State) (e : EventKind) : (s.raise e).port = s.port := rfl
@[simp] theorem raise_linkOut (s : State) (e : EventKind) : (s.raise e).linkOut = s.linkOut := rfl
@[simp] theorem raise_portOut (s : State) (e : EventKind) : (s.raise e).portOut = s.portOut := rfl
@[simp] theorem raise_due (s : State) (e : EventKind) : (s.raise e).due = s.due := rfl
@[simp] theorem raise_named (s : State) (e : EventKind) : (s.raise e).named = s.named := rfl
@[simp] theorem raise_picks (s : State) (e : EventKind) : (s.raise e).picks = s.picks := rfl
@[simp] theorem raise_pending (s : State) (e : EventKind) : (s.raise e).pending = s.pending := rfl
@[simp] theorem raise_unit (s : State) (e : EventKind) (u : UnitNo) : (s.raise e).unit u = s.unit u := rfl
@[simp] theorem raise_waterway (s : State) (e : EventKind) (w : WaterwayNo) : (s.raise e).waterway w = s.waterway w := rfl
@[simp] theorem raise_converter (s : State) (e : EventKind) (c : ConverterNo) : (s.raise e).converter c = s.converter c := rfl
@[simp] theorem raise_gauge (s : State) (e : EventKind) (g : GaugeNo) : (s.raise e).gauge g = s.gauge g := rfl
@[simp] theorem raise_slot (s : State) (e : EventKind) (k : SlotNo) : (s.raise e).slot k = s.slot k := rfl
@[simp] theorem raise_order? (s : State) (e : EventKind) (h : Handle) : (s.raise e).order? h = s.order? h := rfl

/-! ## Writing one unit -/

@[simp] theorem unit_setUnit (s : State) (u j : UnitNo) (x : UnitBlock) : (s.setUnit u x).unit j = if u = j then x else s.unit j := by
  simp [State.unit, State.setUnit, Vector.getElem_set, Fin.ext_iff]
@[simp] theorem setUnit_mode (s : State) (u : UnitNo) (x : UnitBlock) : (s.setUnit u x).mode = s.mode := rfl
@[simp] theorem setUnit_supervision (s : State) (u : UnitNo) (x : UnitBlock) : (s.setUnit u x).supervision = s.supervision := rfl
@[simp] theorem setUnit_retry (s : State) (u : UnitNo) (x : UnitBlock) : (s.setUnit u x).retry = s.retry := rfl
@[simp] theorem setUnit_slots (s : State) (u : UnitNo) (x : UnitBlock) : (s.setUnit u x).slots = s.slots := rfl
@[simp] theorem setUnit_startQueue (s : State) (u : UnitNo) (x : UnitBlock) : (s.setUnit u x).startQueue = s.startQueue := rfl
@[simp] theorem setUnit_waterways (s : State) (u : UnitNo) (x : UnitBlock) : (s.setUnit u x).waterways = s.waterways := rfl
@[simp] theorem setUnit_converters (s : State) (u : UnitNo) (x : UnitBlock) : (s.setUnit u x).converters = s.converters := rfl
@[simp] theorem setUnit_gauges (s : State) (u : UnitNo) (x : UnitBlock) : (s.setUnit u x).gauges = s.gauges := rfl
@[simp] theorem setUnit_plantTime (s : State) (u : UnitNo) (x : UnitBlock) : (s.setUnit u x).plantTime = s.plantTime := rfl
@[simp] theorem setUnit_pendingTrim (s : State) (u : UnitNo) (x : UnitBlock) : (s.setUnit u x).pendingTrim = s.pendingTrim := rfl
@[simp] theorem setUnit_latches (s : State) (u : UnitNo) (x : UnitBlock) : (s.setUnit u x).latches = s.latches := rfl
@[simp] theorem setUnit_mask (s : State) (u : UnitNo) (x : UnitBlock) : (s.setUnit u x).mask = s.mask := rfl
@[simp] theorem setUnit_port (s : State) (u : UnitNo) (x : UnitBlock) : (s.setUnit u x).port = s.port := rfl
@[simp] theorem setUnit_linkOut (s : State) (u : UnitNo) (x : UnitBlock) : (s.setUnit u x).linkOut = s.linkOut := rfl
@[simp] theorem setUnit_portOut (s : State) (u : UnitNo) (x : UnitBlock) : (s.setUnit u x).portOut = s.portOut := rfl
@[simp] theorem setUnit_due (s : State) (u : UnitNo) (x : UnitBlock) : (s.setUnit u x).due = s.due := rfl
@[simp] theorem setUnit_named (s : State) (u : UnitNo) (x : UnitBlock) : (s.setUnit u x).named = s.named := rfl
@[simp] theorem setUnit_picks (s : State) (u : UnitNo) (x : UnitBlock) : (s.setUnit u x).picks = s.picks := rfl
@[simp] theorem setUnit_pending (s : State) (u : UnitNo) (x : UnitBlock) : (s.setUnit u x).pending = s.pending := rfl
@[simp] theorem setUnit_waterway (s : State) (u : UnitNo) (x : UnitBlock) (w' : WaterwayNo) : (s.setUnit u x).waterway w' = s.waterway w' := rfl
@[simp] theorem setUnit_converter (s : State) (u : UnitNo) (x : UnitBlock) (c' : ConverterNo) : (s.setUnit u x).converter c' = s.converter c' := rfl
@[simp] theorem setUnit_gauge (s : State) (u : UnitNo) (x : UnitBlock) (g' : GaugeNo) : (s.setUnit u x).gauge g' = s.gauge g' := rfl
@[simp] theorem setUnit_slot (s : State) (u : UnitNo) (x : UnitBlock) (k' : SlotNo) : (s.setUnit u x).slot k' = s.slot k' := rfl

@[simp] theorem unit_modUnit (s : State) (u j : UnitNo) (f : UnitBlock → UnitBlock) :
    (s.modUnit u f).unit j = if u = j then f (s.unit u) else s.unit j := by
  simp [State.modUnit]
@[simp] theorem modUnit_mode (s : State) (u : UnitNo) (f : UnitBlock → UnitBlock) : (s.modUnit u f).mode = s.mode := rfl
@[simp] theorem modUnit_supervision (s : State) (u : UnitNo) (f : UnitBlock → UnitBlock) : (s.modUnit u f).supervision = s.supervision := rfl
@[simp] theorem modUnit_retry (s : State) (u : UnitNo) (f : UnitBlock → UnitBlock) : (s.modUnit u f).retry = s.retry := rfl
@[simp] theorem modUnit_slots (s : State) (u : UnitNo) (f : UnitBlock → UnitBlock) : (s.modUnit u f).slots = s.slots := rfl
@[simp] theorem modUnit_startQueue (s : State) (u : UnitNo) (f : UnitBlock → UnitBlock) : (s.modUnit u f).startQueue = s.startQueue := rfl
@[simp] theorem modUnit_waterways (s : State) (u : UnitNo) (f : UnitBlock → UnitBlock) : (s.modUnit u f).waterways = s.waterways := rfl
@[simp] theorem modUnit_converters (s : State) (u : UnitNo) (f : UnitBlock → UnitBlock) : (s.modUnit u f).converters = s.converters := rfl
@[simp] theorem modUnit_gauges (s : State) (u : UnitNo) (f : UnitBlock → UnitBlock) : (s.modUnit u f).gauges = s.gauges := rfl
@[simp] theorem modUnit_plantTime (s : State) (u : UnitNo) (f : UnitBlock → UnitBlock) : (s.modUnit u f).plantTime = s.plantTime := rfl
@[simp] theorem modUnit_pendingTrim (s : State) (u : UnitNo) (f : UnitBlock → UnitBlock) : (s.modUnit u f).pendingTrim = s.pendingTrim := rfl
@[simp] theorem modUnit_latches (s : State) (u : UnitNo) (f : UnitBlock → UnitBlock) : (s.modUnit u f).latches = s.latches := rfl
@[simp] theorem modUnit_mask (s : State) (u : UnitNo) (f : UnitBlock → UnitBlock) : (s.modUnit u f).mask = s.mask := rfl
@[simp] theorem modUnit_port (s : State) (u : UnitNo) (f : UnitBlock → UnitBlock) : (s.modUnit u f).port = s.port := rfl
@[simp] theorem modUnit_linkOut (s : State) (u : UnitNo) (f : UnitBlock → UnitBlock) : (s.modUnit u f).linkOut = s.linkOut := rfl
@[simp] theorem modUnit_portOut (s : State) (u : UnitNo) (f : UnitBlock → UnitBlock) : (s.modUnit u f).portOut = s.portOut := rfl
@[simp] theorem modUnit_due (s : State) (u : UnitNo) (f : UnitBlock → UnitBlock) : (s.modUnit u f).due = s.due := rfl
@[simp] theorem modUnit_named (s : State) (u : UnitNo) (f : UnitBlock → UnitBlock) : (s.modUnit u f).named = s.named := rfl
@[simp] theorem modUnit_picks (s : State) (u : UnitNo) (f : UnitBlock → UnitBlock) : (s.modUnit u f).picks = s.picks := rfl
@[simp] theorem modUnit_pending (s : State) (u : UnitNo) (f : UnitBlock → UnitBlock) : (s.modUnit u f).pending = s.pending := rfl
@[simp] theorem modUnit_waterway (s : State) (u : UnitNo) (f : UnitBlock → UnitBlock) (w' : WaterwayNo) : (s.modUnit u f).waterway w' = s.waterway w' := rfl
@[simp] theorem modUnit_converter (s : State) (u : UnitNo) (f : UnitBlock → UnitBlock) (c' : ConverterNo) : (s.modUnit u f).converter c' = s.converter c' := rfl
@[simp] theorem modUnit_gauge (s : State) (u : UnitNo) (f : UnitBlock → UnitBlock) (g' : GaugeNo) : (s.modUnit u f).gauge g' = s.gauge g' := rfl
@[simp] theorem modUnit_slot (s : State) (u : UnitNo) (f : UnitBlock → UnitBlock) (k' : SlotNo) : (s.modUnit u f).slot k' = s.slot k' := rfl
@[simp] theorem modUnit_order? (s : State) (u : UnitNo) (f : UnitBlock → UnitBlock) (h : Handle) : (s.modUnit u f).order? h = s.order? h := rfl

/-! ## Writing one waterway -/

@[simp] theorem waterway_setWaterway (s : State) (w j : WaterwayNo) (x : Waterway) : (s.setWaterway w x).waterway j = if w = j then x else s.waterway j := by
  simp [State.waterway, State.setWaterway, Vector.getElem_set, Fin.ext_iff]
@[simp] theorem setWaterway_mode (s : State) (w : WaterwayNo) (x : Waterway) : (s.setWaterway w x).mode = s.mode := rfl
@[simp] theorem setWaterway_supervision (s : State) (w : WaterwayNo) (x : Waterway) : (s.setWaterway w x).supervision = s.supervision := rfl
@[simp] theorem setWaterway_retry (s : State) (w : WaterwayNo) (x : Waterway) : (s.setWaterway w x).retry = s.retry := rfl
@[simp] theorem setWaterway_slots (s : State) (w : WaterwayNo) (x : Waterway) : (s.setWaterway w x).slots = s.slots := rfl
@[simp] theorem setWaterway_startQueue (s : State) (w : WaterwayNo) (x : Waterway) : (s.setWaterway w x).startQueue = s.startQueue := rfl
@[simp] theorem setWaterway_units (s : State) (w : WaterwayNo) (x : Waterway) : (s.setWaterway w x).units = s.units := rfl
@[simp] theorem setWaterway_converters (s : State) (w : WaterwayNo) (x : Waterway) : (s.setWaterway w x).converters = s.converters := rfl
@[simp] theorem setWaterway_gauges (s : State) (w : WaterwayNo) (x : Waterway) : (s.setWaterway w x).gauges = s.gauges := rfl
@[simp] theorem setWaterway_plantTime (s : State) (w : WaterwayNo) (x : Waterway) : (s.setWaterway w x).plantTime = s.plantTime := rfl
@[simp] theorem setWaterway_pendingTrim (s : State) (w : WaterwayNo) (x : Waterway) : (s.setWaterway w x).pendingTrim = s.pendingTrim := rfl
@[simp] theorem setWaterway_latches (s : State) (w : WaterwayNo) (x : Waterway) : (s.setWaterway w x).latches = s.latches := rfl
@[simp] theorem setWaterway_mask (s : State) (w : WaterwayNo) (x : Waterway) : (s.setWaterway w x).mask = s.mask := rfl
@[simp] theorem setWaterway_port (s : State) (w : WaterwayNo) (x : Waterway) : (s.setWaterway w x).port = s.port := rfl
@[simp] theorem setWaterway_linkOut (s : State) (w : WaterwayNo) (x : Waterway) : (s.setWaterway w x).linkOut = s.linkOut := rfl
@[simp] theorem setWaterway_portOut (s : State) (w : WaterwayNo) (x : Waterway) : (s.setWaterway w x).portOut = s.portOut := rfl
@[simp] theorem setWaterway_due (s : State) (w : WaterwayNo) (x : Waterway) : (s.setWaterway w x).due = s.due := rfl
@[simp] theorem setWaterway_named (s : State) (w : WaterwayNo) (x : Waterway) : (s.setWaterway w x).named = s.named := rfl
@[simp] theorem setWaterway_picks (s : State) (w : WaterwayNo) (x : Waterway) : (s.setWaterway w x).picks = s.picks := rfl
@[simp] theorem setWaterway_pending (s : State) (w : WaterwayNo) (x : Waterway) : (s.setWaterway w x).pending = s.pending := rfl
@[simp] theorem setWaterway_unit (s : State) (w : WaterwayNo) (x : Waterway) (u' : UnitNo) : (s.setWaterway w x).unit u' = s.unit u' := rfl
@[simp] theorem setWaterway_converter (s : State) (w : WaterwayNo) (x : Waterway) (c' : ConverterNo) : (s.setWaterway w x).converter c' = s.converter c' := rfl
@[simp] theorem setWaterway_gauge (s : State) (w : WaterwayNo) (x : Waterway) (g' : GaugeNo) : (s.setWaterway w x).gauge g' = s.gauge g' := rfl
@[simp] theorem setWaterway_slot (s : State) (w : WaterwayNo) (x : Waterway) (k' : SlotNo) : (s.setWaterway w x).slot k' = s.slot k' := rfl

@[simp] theorem waterway_modWaterway (s : State) (w j : WaterwayNo) (f : Waterway → Waterway) :
    (s.modWaterway w f).waterway j = if w = j then f (s.waterway w) else s.waterway j := by
  simp [State.modWaterway]
@[simp] theorem modWaterway_mode (s : State) (w : WaterwayNo) (f : Waterway → Waterway) : (s.modWaterway w f).mode = s.mode := rfl
@[simp] theorem modWaterway_supervision (s : State) (w : WaterwayNo) (f : Waterway → Waterway) : (s.modWaterway w f).supervision = s.supervision := rfl
@[simp] theorem modWaterway_retry (s : State) (w : WaterwayNo) (f : Waterway → Waterway) : (s.modWaterway w f).retry = s.retry := rfl
@[simp] theorem modWaterway_slots (s : State) (w : WaterwayNo) (f : Waterway → Waterway) : (s.modWaterway w f).slots = s.slots := rfl
@[simp] theorem modWaterway_startQueue (s : State) (w : WaterwayNo) (f : Waterway → Waterway) : (s.modWaterway w f).startQueue = s.startQueue := rfl
@[simp] theorem modWaterway_units (s : State) (w : WaterwayNo) (f : Waterway → Waterway) : (s.modWaterway w f).units = s.units := rfl
@[simp] theorem modWaterway_converters (s : State) (w : WaterwayNo) (f : Waterway → Waterway) : (s.modWaterway w f).converters = s.converters := rfl
@[simp] theorem modWaterway_gauges (s : State) (w : WaterwayNo) (f : Waterway → Waterway) : (s.modWaterway w f).gauges = s.gauges := rfl
@[simp] theorem modWaterway_plantTime (s : State) (w : WaterwayNo) (f : Waterway → Waterway) : (s.modWaterway w f).plantTime = s.plantTime := rfl
@[simp] theorem modWaterway_pendingTrim (s : State) (w : WaterwayNo) (f : Waterway → Waterway) : (s.modWaterway w f).pendingTrim = s.pendingTrim := rfl
@[simp] theorem modWaterway_latches (s : State) (w : WaterwayNo) (f : Waterway → Waterway) : (s.modWaterway w f).latches = s.latches := rfl
@[simp] theorem modWaterway_mask (s : State) (w : WaterwayNo) (f : Waterway → Waterway) : (s.modWaterway w f).mask = s.mask := rfl
@[simp] theorem modWaterway_port (s : State) (w : WaterwayNo) (f : Waterway → Waterway) : (s.modWaterway w f).port = s.port := rfl
@[simp] theorem modWaterway_linkOut (s : State) (w : WaterwayNo) (f : Waterway → Waterway) : (s.modWaterway w f).linkOut = s.linkOut := rfl
@[simp] theorem modWaterway_portOut (s : State) (w : WaterwayNo) (f : Waterway → Waterway) : (s.modWaterway w f).portOut = s.portOut := rfl
@[simp] theorem modWaterway_due (s : State) (w : WaterwayNo) (f : Waterway → Waterway) : (s.modWaterway w f).due = s.due := rfl
@[simp] theorem modWaterway_named (s : State) (w : WaterwayNo) (f : Waterway → Waterway) : (s.modWaterway w f).named = s.named := rfl
@[simp] theorem modWaterway_picks (s : State) (w : WaterwayNo) (f : Waterway → Waterway) : (s.modWaterway w f).picks = s.picks := rfl
@[simp] theorem modWaterway_pending (s : State) (w : WaterwayNo) (f : Waterway → Waterway) : (s.modWaterway w f).pending = s.pending := rfl
@[simp] theorem modWaterway_unit (s : State) (w : WaterwayNo) (f : Waterway → Waterway) (u' : UnitNo) : (s.modWaterway w f).unit u' = s.unit u' := rfl
@[simp] theorem modWaterway_converter (s : State) (w : WaterwayNo) (f : Waterway → Waterway) (c' : ConverterNo) : (s.modWaterway w f).converter c' = s.converter c' := rfl
@[simp] theorem modWaterway_gauge (s : State) (w : WaterwayNo) (f : Waterway → Waterway) (g' : GaugeNo) : (s.modWaterway w f).gauge g' = s.gauge g' := rfl
@[simp] theorem modWaterway_slot (s : State) (w : WaterwayNo) (f : Waterway → Waterway) (k' : SlotNo) : (s.modWaterway w f).slot k' = s.slot k' := rfl
@[simp] theorem modWaterway_order? (s : State) (w : WaterwayNo) (f : Waterway → Waterway) (h : Handle) : (s.modWaterway w f).order? h = s.order? h := rfl

/-! ## Writing one converter -/

@[simp] theorem converter_setConverter (s : State) (c j : ConverterNo) (x : Converter) : (s.setConverter c x).converter j = if c = j then x else s.converter j := by
  simp [State.converter, State.setConverter, Vector.getElem_set, Fin.ext_iff]
@[simp] theorem setConverter_mode (s : State) (c : ConverterNo) (x : Converter) : (s.setConverter c x).mode = s.mode := rfl
@[simp] theorem setConverter_supervision (s : State) (c : ConverterNo) (x : Converter) : (s.setConverter c x).supervision = s.supervision := rfl
@[simp] theorem setConverter_retry (s : State) (c : ConverterNo) (x : Converter) : (s.setConverter c x).retry = s.retry := rfl
@[simp] theorem setConverter_slots (s : State) (c : ConverterNo) (x : Converter) : (s.setConverter c x).slots = s.slots := rfl
@[simp] theorem setConverter_startQueue (s : State) (c : ConverterNo) (x : Converter) : (s.setConverter c x).startQueue = s.startQueue := rfl
@[simp] theorem setConverter_units (s : State) (c : ConverterNo) (x : Converter) : (s.setConverter c x).units = s.units := rfl
@[simp] theorem setConverter_waterways (s : State) (c : ConverterNo) (x : Converter) : (s.setConverter c x).waterways = s.waterways := rfl
@[simp] theorem setConverter_gauges (s : State) (c : ConverterNo) (x : Converter) : (s.setConverter c x).gauges = s.gauges := rfl
@[simp] theorem setConverter_plantTime (s : State) (c : ConverterNo) (x : Converter) : (s.setConverter c x).plantTime = s.plantTime := rfl
@[simp] theorem setConverter_pendingTrim (s : State) (c : ConverterNo) (x : Converter) : (s.setConverter c x).pendingTrim = s.pendingTrim := rfl
@[simp] theorem setConverter_latches (s : State) (c : ConverterNo) (x : Converter) : (s.setConverter c x).latches = s.latches := rfl
@[simp] theorem setConverter_mask (s : State) (c : ConverterNo) (x : Converter) : (s.setConverter c x).mask = s.mask := rfl
@[simp] theorem setConverter_port (s : State) (c : ConverterNo) (x : Converter) : (s.setConverter c x).port = s.port := rfl
@[simp] theorem setConverter_linkOut (s : State) (c : ConverterNo) (x : Converter) : (s.setConverter c x).linkOut = s.linkOut := rfl
@[simp] theorem setConverter_portOut (s : State) (c : ConverterNo) (x : Converter) : (s.setConverter c x).portOut = s.portOut := rfl
@[simp] theorem setConverter_due (s : State) (c : ConverterNo) (x : Converter) : (s.setConverter c x).due = s.due := rfl
@[simp] theorem setConverter_named (s : State) (c : ConverterNo) (x : Converter) : (s.setConverter c x).named = s.named := rfl
@[simp] theorem setConverter_picks (s : State) (c : ConverterNo) (x : Converter) : (s.setConverter c x).picks = s.picks := rfl
@[simp] theorem setConverter_pending (s : State) (c : ConverterNo) (x : Converter) : (s.setConverter c x).pending = s.pending := rfl
@[simp] theorem setConverter_unit (s : State) (c : ConverterNo) (x : Converter) (u' : UnitNo) : (s.setConverter c x).unit u' = s.unit u' := rfl
@[simp] theorem setConverter_waterway (s : State) (c : ConverterNo) (x : Converter) (w' : WaterwayNo) : (s.setConverter c x).waterway w' = s.waterway w' := rfl
@[simp] theorem setConverter_gauge (s : State) (c : ConverterNo) (x : Converter) (g' : GaugeNo) : (s.setConverter c x).gauge g' = s.gauge g' := rfl
@[simp] theorem setConverter_slot (s : State) (c : ConverterNo) (x : Converter) (k' : SlotNo) : (s.setConverter c x).slot k' = s.slot k' := rfl

@[simp] theorem converter_modConverter (s : State) (c j : ConverterNo) (f : Converter → Converter) :
    (s.modConverter c f).converter j = if c = j then f (s.converter c) else s.converter j := by
  simp [State.modConverter]
@[simp] theorem modConverter_mode (s : State) (c : ConverterNo) (f : Converter → Converter) : (s.modConverter c f).mode = s.mode := rfl
@[simp] theorem modConverter_supervision (s : State) (c : ConverterNo) (f : Converter → Converter) : (s.modConverter c f).supervision = s.supervision := rfl
@[simp] theorem modConverter_retry (s : State) (c : ConverterNo) (f : Converter → Converter) : (s.modConverter c f).retry = s.retry := rfl
@[simp] theorem modConverter_slots (s : State) (c : ConverterNo) (f : Converter → Converter) : (s.modConverter c f).slots = s.slots := rfl
@[simp] theorem modConverter_startQueue (s : State) (c : ConverterNo) (f : Converter → Converter) : (s.modConverter c f).startQueue = s.startQueue := rfl
@[simp] theorem modConverter_units (s : State) (c : ConverterNo) (f : Converter → Converter) : (s.modConverter c f).units = s.units := rfl
@[simp] theorem modConverter_waterways (s : State) (c : ConverterNo) (f : Converter → Converter) : (s.modConverter c f).waterways = s.waterways := rfl
@[simp] theorem modConverter_gauges (s : State) (c : ConverterNo) (f : Converter → Converter) : (s.modConverter c f).gauges = s.gauges := rfl
@[simp] theorem modConverter_plantTime (s : State) (c : ConverterNo) (f : Converter → Converter) : (s.modConverter c f).plantTime = s.plantTime := rfl
@[simp] theorem modConverter_pendingTrim (s : State) (c : ConverterNo) (f : Converter → Converter) : (s.modConverter c f).pendingTrim = s.pendingTrim := rfl
@[simp] theorem modConverter_latches (s : State) (c : ConverterNo) (f : Converter → Converter) : (s.modConverter c f).latches = s.latches := rfl
@[simp] theorem modConverter_mask (s : State) (c : ConverterNo) (f : Converter → Converter) : (s.modConverter c f).mask = s.mask := rfl
@[simp] theorem modConverter_port (s : State) (c : ConverterNo) (f : Converter → Converter) : (s.modConverter c f).port = s.port := rfl
@[simp] theorem modConverter_linkOut (s : State) (c : ConverterNo) (f : Converter → Converter) : (s.modConverter c f).linkOut = s.linkOut := rfl
@[simp] theorem modConverter_portOut (s : State) (c : ConverterNo) (f : Converter → Converter) : (s.modConverter c f).portOut = s.portOut := rfl
@[simp] theorem modConverter_due (s : State) (c : ConverterNo) (f : Converter → Converter) : (s.modConverter c f).due = s.due := rfl
@[simp] theorem modConverter_named (s : State) (c : ConverterNo) (f : Converter → Converter) : (s.modConverter c f).named = s.named := rfl
@[simp] theorem modConverter_picks (s : State) (c : ConverterNo) (f : Converter → Converter) : (s.modConverter c f).picks = s.picks := rfl
@[simp] theorem modConverter_pending (s : State) (c : ConverterNo) (f : Converter → Converter) : (s.modConverter c f).pending = s.pending := rfl
@[simp] theorem modConverter_unit (s : State) (c : ConverterNo) (f : Converter → Converter) (u' : UnitNo) : (s.modConverter c f).unit u' = s.unit u' := rfl
@[simp] theorem modConverter_waterway (s : State) (c : ConverterNo) (f : Converter → Converter) (w' : WaterwayNo) : (s.modConverter c f).waterway w' = s.waterway w' := rfl
@[simp] theorem modConverter_gauge (s : State) (c : ConverterNo) (f : Converter → Converter) (g' : GaugeNo) : (s.modConverter c f).gauge g' = s.gauge g' := rfl
@[simp] theorem modConverter_slot (s : State) (c : ConverterNo) (f : Converter → Converter) (k' : SlotNo) : (s.modConverter c f).slot k' = s.slot k' := rfl
@[simp] theorem modConverter_order? (s : State) (c : ConverterNo) (f : Converter → Converter) (h : Handle) : (s.modConverter c f).order? h = s.order? h := rfl

/-! ## Writing one gauge -/

@[simp] theorem gauge_setGauge (s : State) (g j : GaugeNo) (x : Gauge) : (s.setGauge g x).gauge j = if g = j then x else s.gauge j := by
  simp [State.gauge, State.setGauge, Vector.getElem_set, Fin.ext_iff]
@[simp] theorem setGauge_mode (s : State) (g : GaugeNo) (x : Gauge) : (s.setGauge g x).mode = s.mode := rfl
@[simp] theorem setGauge_supervision (s : State) (g : GaugeNo) (x : Gauge) : (s.setGauge g x).supervision = s.supervision := rfl
@[simp] theorem setGauge_retry (s : State) (g : GaugeNo) (x : Gauge) : (s.setGauge g x).retry = s.retry := rfl
@[simp] theorem setGauge_slots (s : State) (g : GaugeNo) (x : Gauge) : (s.setGauge g x).slots = s.slots := rfl
@[simp] theorem setGauge_startQueue (s : State) (g : GaugeNo) (x : Gauge) : (s.setGauge g x).startQueue = s.startQueue := rfl
@[simp] theorem setGauge_units (s : State) (g : GaugeNo) (x : Gauge) : (s.setGauge g x).units = s.units := rfl
@[simp] theorem setGauge_waterways (s : State) (g : GaugeNo) (x : Gauge) : (s.setGauge g x).waterways = s.waterways := rfl
@[simp] theorem setGauge_converters (s : State) (g : GaugeNo) (x : Gauge) : (s.setGauge g x).converters = s.converters := rfl
@[simp] theorem setGauge_plantTime (s : State) (g : GaugeNo) (x : Gauge) : (s.setGauge g x).plantTime = s.plantTime := rfl
@[simp] theorem setGauge_pendingTrim (s : State) (g : GaugeNo) (x : Gauge) : (s.setGauge g x).pendingTrim = s.pendingTrim := rfl
@[simp] theorem setGauge_latches (s : State) (g : GaugeNo) (x : Gauge) : (s.setGauge g x).latches = s.latches := rfl
@[simp] theorem setGauge_mask (s : State) (g : GaugeNo) (x : Gauge) : (s.setGauge g x).mask = s.mask := rfl
@[simp] theorem setGauge_port (s : State) (g : GaugeNo) (x : Gauge) : (s.setGauge g x).port = s.port := rfl
@[simp] theorem setGauge_linkOut (s : State) (g : GaugeNo) (x : Gauge) : (s.setGauge g x).linkOut = s.linkOut := rfl
@[simp] theorem setGauge_portOut (s : State) (g : GaugeNo) (x : Gauge) : (s.setGauge g x).portOut = s.portOut := rfl
@[simp] theorem setGauge_due (s : State) (g : GaugeNo) (x : Gauge) : (s.setGauge g x).due = s.due := rfl
@[simp] theorem setGauge_named (s : State) (g : GaugeNo) (x : Gauge) : (s.setGauge g x).named = s.named := rfl
@[simp] theorem setGauge_picks (s : State) (g : GaugeNo) (x : Gauge) : (s.setGauge g x).picks = s.picks := rfl
@[simp] theorem setGauge_pending (s : State) (g : GaugeNo) (x : Gauge) : (s.setGauge g x).pending = s.pending := rfl
@[simp] theorem setGauge_unit (s : State) (g : GaugeNo) (x : Gauge) (u' : UnitNo) : (s.setGauge g x).unit u' = s.unit u' := rfl
@[simp] theorem setGauge_waterway (s : State) (g : GaugeNo) (x : Gauge) (w' : WaterwayNo) : (s.setGauge g x).waterway w' = s.waterway w' := rfl
@[simp] theorem setGauge_converter (s : State) (g : GaugeNo) (x : Gauge) (c' : ConverterNo) : (s.setGauge g x).converter c' = s.converter c' := rfl
@[simp] theorem setGauge_slot (s : State) (g : GaugeNo) (x : Gauge) (k' : SlotNo) : (s.setGauge g x).slot k' = s.slot k' := rfl

@[simp] theorem gauge_modGauge (s : State) (g j : GaugeNo) (f : Gauge → Gauge) :
    (s.modGauge g f).gauge j = if g = j then f (s.gauge g) else s.gauge j := by
  simp [State.modGauge]
@[simp] theorem modGauge_mode (s : State) (g : GaugeNo) (f : Gauge → Gauge) : (s.modGauge g f).mode = s.mode := rfl
@[simp] theorem modGauge_supervision (s : State) (g : GaugeNo) (f : Gauge → Gauge) : (s.modGauge g f).supervision = s.supervision := rfl
@[simp] theorem modGauge_retry (s : State) (g : GaugeNo) (f : Gauge → Gauge) : (s.modGauge g f).retry = s.retry := rfl
@[simp] theorem modGauge_slots (s : State) (g : GaugeNo) (f : Gauge → Gauge) : (s.modGauge g f).slots = s.slots := rfl
@[simp] theorem modGauge_startQueue (s : State) (g : GaugeNo) (f : Gauge → Gauge) : (s.modGauge g f).startQueue = s.startQueue := rfl
@[simp] theorem modGauge_units (s : State) (g : GaugeNo) (f : Gauge → Gauge) : (s.modGauge g f).units = s.units := rfl
@[simp] theorem modGauge_waterways (s : State) (g : GaugeNo) (f : Gauge → Gauge) : (s.modGauge g f).waterways = s.waterways := rfl
@[simp] theorem modGauge_converters (s : State) (g : GaugeNo) (f : Gauge → Gauge) : (s.modGauge g f).converters = s.converters := rfl
@[simp] theorem modGauge_plantTime (s : State) (g : GaugeNo) (f : Gauge → Gauge) : (s.modGauge g f).plantTime = s.plantTime := rfl
@[simp] theorem modGauge_pendingTrim (s : State) (g : GaugeNo) (f : Gauge → Gauge) : (s.modGauge g f).pendingTrim = s.pendingTrim := rfl
@[simp] theorem modGauge_latches (s : State) (g : GaugeNo) (f : Gauge → Gauge) : (s.modGauge g f).latches = s.latches := rfl
@[simp] theorem modGauge_mask (s : State) (g : GaugeNo) (f : Gauge → Gauge) : (s.modGauge g f).mask = s.mask := rfl
@[simp] theorem modGauge_port (s : State) (g : GaugeNo) (f : Gauge → Gauge) : (s.modGauge g f).port = s.port := rfl
@[simp] theorem modGauge_linkOut (s : State) (g : GaugeNo) (f : Gauge → Gauge) : (s.modGauge g f).linkOut = s.linkOut := rfl
@[simp] theorem modGauge_portOut (s : State) (g : GaugeNo) (f : Gauge → Gauge) : (s.modGauge g f).portOut = s.portOut := rfl
@[simp] theorem modGauge_due (s : State) (g : GaugeNo) (f : Gauge → Gauge) : (s.modGauge g f).due = s.due := rfl
@[simp] theorem modGauge_named (s : State) (g : GaugeNo) (f : Gauge → Gauge) : (s.modGauge g f).named = s.named := rfl
@[simp] theorem modGauge_picks (s : State) (g : GaugeNo) (f : Gauge → Gauge) : (s.modGauge g f).picks = s.picks := rfl
@[simp] theorem modGauge_pending (s : State) (g : GaugeNo) (f : Gauge → Gauge) : (s.modGauge g f).pending = s.pending := rfl
@[simp] theorem modGauge_unit (s : State) (g : GaugeNo) (f : Gauge → Gauge) (u' : UnitNo) : (s.modGauge g f).unit u' = s.unit u' := rfl
@[simp] theorem modGauge_waterway (s : State) (g : GaugeNo) (f : Gauge → Gauge) (w' : WaterwayNo) : (s.modGauge g f).waterway w' = s.waterway w' := rfl
@[simp] theorem modGauge_converter (s : State) (g : GaugeNo) (f : Gauge → Gauge) (c' : ConverterNo) : (s.modGauge g f).converter c' = s.converter c' := rfl
@[simp] theorem modGauge_slot (s : State) (g : GaugeNo) (f : Gauge → Gauge) (k' : SlotNo) : (s.modGauge g f).slot k' = s.slot k' := rfl
@[simp] theorem modGauge_order? (s : State) (g : GaugeNo) (f : Gauge → Gauge) (h : Handle) : (s.modGauge g f).order? h = s.order? h := rfl

/-! ## Writing one slot -/

@[simp] theorem slot_setSlot (s : State) (k j : SlotNo) (x : Slot) : (s.setSlot k x).slot j = if k = j then x else s.slot j := by
  simp [State.slot, State.setSlot, Vector.getElem_set, Fin.ext_iff]
@[simp] theorem setSlot_mode (s : State) (k : SlotNo) (x : Slot) : (s.setSlot k x).mode = s.mode := rfl
@[simp] theorem setSlot_supervision (s : State) (k : SlotNo) (x : Slot) : (s.setSlot k x).supervision = s.supervision := rfl
@[simp] theorem setSlot_retry (s : State) (k : SlotNo) (x : Slot) : (s.setSlot k x).retry = s.retry := rfl
@[simp] theorem setSlot_startQueue (s : State) (k : SlotNo) (x : Slot) : (s.setSlot k x).startQueue = s.startQueue := rfl
@[simp] theorem setSlot_units (s : State) (k : SlotNo) (x : Slot) : (s.setSlot k x).units = s.units := rfl
@[simp] theorem setSlot_waterways (s : State) (k : SlotNo) (x : Slot) : (s.setSlot k x).waterways = s.waterways := rfl
@[simp] theorem setSlot_converters (s : State) (k : SlotNo) (x : Slot) : (s.setSlot k x).converters = s.converters := rfl
@[simp] theorem setSlot_gauges (s : State) (k : SlotNo) (x : Slot) : (s.setSlot k x).gauges = s.gauges := rfl
@[simp] theorem setSlot_plantTime (s : State) (k : SlotNo) (x : Slot) : (s.setSlot k x).plantTime = s.plantTime := rfl
@[simp] theorem setSlot_pendingTrim (s : State) (k : SlotNo) (x : Slot) : (s.setSlot k x).pendingTrim = s.pendingTrim := rfl
@[simp] theorem setSlot_latches (s : State) (k : SlotNo) (x : Slot) : (s.setSlot k x).latches = s.latches := rfl
@[simp] theorem setSlot_mask (s : State) (k : SlotNo) (x : Slot) : (s.setSlot k x).mask = s.mask := rfl
@[simp] theorem setSlot_port (s : State) (k : SlotNo) (x : Slot) : (s.setSlot k x).port = s.port := rfl
@[simp] theorem setSlot_linkOut (s : State) (k : SlotNo) (x : Slot) : (s.setSlot k x).linkOut = s.linkOut := rfl
@[simp] theorem setSlot_portOut (s : State) (k : SlotNo) (x : Slot) : (s.setSlot k x).portOut = s.portOut := rfl
@[simp] theorem setSlot_due (s : State) (k : SlotNo) (x : Slot) : (s.setSlot k x).due = s.due := rfl
@[simp] theorem setSlot_named (s : State) (k : SlotNo) (x : Slot) : (s.setSlot k x).named = s.named := rfl
@[simp] theorem setSlot_picks (s : State) (k : SlotNo) (x : Slot) : (s.setSlot k x).picks = s.picks := rfl
@[simp] theorem setSlot_pending (s : State) (k : SlotNo) (x : Slot) : (s.setSlot k x).pending = s.pending := rfl
@[simp] theorem setSlot_unit (s : State) (k : SlotNo) (x : Slot) (u' : UnitNo) : (s.setSlot k x).unit u' = s.unit u' := rfl
@[simp] theorem setSlot_waterway (s : State) (k : SlotNo) (x : Slot) (w' : WaterwayNo) : (s.setSlot k x).waterway w' = s.waterway w' := rfl
@[simp] theorem setSlot_converter (s : State) (k : SlotNo) (x : Slot) (c' : ConverterNo) : (s.setSlot k x).converter c' = s.converter c' := rfl
@[simp] theorem setSlot_gauge (s : State) (k : SlotNo) (x : Slot) (g' : GaugeNo) : (s.setSlot k x).gauge g' = s.gauge g' := rfl

/-! ## Links -/

@[simp] theorem unit_modLink (s : State) (u v : UnitNo) (f : Link → Link) :
    (s.modLink u f).unit v = if u = v then { s.unit u with link := f (s.unit u).link } else s.unit v := by
  simp [State.modLink]
@[simp] theorem modLink_waterway (s : State) (u : UnitNo) (f : Link → Link) (w : WaterwayNo) :
    (s.modLink u f).waterway w = s.waterway w := rfl
@[simp] theorem modLink_converter (s : State) (u : UnitNo) (f : Link → Link) (c : ConverterNo) :
    (s.modLink u f).converter c = s.converter c := rfl
@[simp] theorem modLink_gauge (s : State) (u : UnitNo) (f : Link → Link) (g : GaugeNo) :
    (s.modLink u f).gauge g = s.gauge g := rfl
@[simp] theorem modLink_order? (s : State) (u : UnitNo) (f : Link → Link) (h : Handle) :
    (s.modLink u f).order? h = s.order? h := rfl
@[simp] theorem modLink_linkOut (s : State) (u : UnitNo) (f : Link → Link) : (s.modLink u f).linkOut = s.linkOut := rfl
@[simp] theorem modLink_supervision (s : State) (u : UnitNo) (f : Link → Link) :
    (s.modLink u f).supervision = s.supervision := rfl
@[simp] theorem emit_unit (s : State) (u v : UnitNo) (f : LinkFrame) : (s.emit u f).unit v = s.unit v := rfl
@[simp] theorem emit_linkOut (s : State) (u : UnitNo) (f : LinkFrame) : (s.emit u f).linkOut = s.linkOut ++ [(u, f)] := rfl
@[simp] theorem emit_order? (s : State) (u : UnitNo) (f : LinkFrame) (h : Handle) : (s.emit u f).order? h = s.order? h := rfl
@[simp] theorem unit_send (s : State) (u v : UnitNo) (d : Directive) :
    (s.send u d).unit v =
      if u = v then
        { s.unit u with
          link := { (s.unit u).link with outstanding := some d, ackTimer := some s.supervision.ackTimeout } }
      else s.unit v := by
  simp [State.send]
@[simp] theorem send_linkOut (s : State) (u : UnitNo) (d : Directive) :
    (s.send u d).linkOut = s.linkOut ++ [(u, .directive (s.unit u).link.toggle d)] := rfl
@[simp] theorem send_order? (s : State) (u : UnitNo) (d : Directive) (h : Handle) : (s.send u d).order? h = s.order? h := rfl

end Sys2Proof.Machine
end

