-- ==== Sys2Proof/Laws/Kept.lean ====
section
/-! SUPPORT. What the blocks do inside an event is made of few elementary changes. A property that each elementary change keeps
(`Kept`) is kept by every shared operation of the gates, the Start Arbiter, Order Progress, the Admission Unit and the Ramp
Controllers; the laws of the state, and every frame, are such properties. -/

namespace Sys2Proof.Machine

/-- A change of a waterway that touches neither its settings, heads, flow and inhibits nor the order of its queue. -/
structure Waterway.SameBut (x y : Waterway) : Prop where
  configured : y.configured = x.configured
  hAdm : y.hAdm = x.hAdm
  qgLim : y.qgLim = x.qgLim
  qpLim : y.qpLim = x.qpLim
  allowance : y.allowance = x.allowance
  spacingTime : y.spacingTime = x.spacingTime
  upper : y.upper = x.upper
  lower : y.lower = x.lower
  liveHead : y.liveHead = x.liveHead
  headLow : y.headLow = x.headLow
  netFlow : y.netFlow = x.netFlow
  pumpInhibit : y.pumpInhibit = x.pumpInhibit
  genInhibit : y.genInhibit = x.genInhibit
  nextRank : y.nextRank = x.nextRank
  queue : y.queue.Sublist x.queue

/-- A change of a unit that touches neither its strap, its settings, its isolated flag, its contribution, nor its link but for the
directives on it, and that keeps the law of its link. -/
structure UnitBlock.SameBut (b c : UnitBlock) : Prop where
  present : c.present = b.present
  waterway : c.waterway = b.waterway
  eligible : c.eligible = b.eligible
  isolated : c.isolated = b.isolated
  contribution : c.contribution = b.contribution
  link : c.link =
    { b.link with outstanding := c.link.outstanding, held := c.link.held, ackTimer := c.link.ackTimer }
  law : b.LinkLaw → c.LinkLaw

/-- A property of states that every elementary change within an event keeps. -/
structure Kept (P : State → Prop) : Prop where
  raise : ∀ s e, P s → P (s.raise e)
  order : ∀ s h f, P s → P (s.modOrder h f)
  unlinkTo : ∀ s h, P s → P (s.unlinkTo h)
  free : ∀ s h, P s → P (s.freeOrder h)
  record : ∀ s k r, P s → P (s.enterRecord k r)
  picks : ∀ s n, P s → P { s with picks := n }
  leaveStart : ∀ s h, P s → P (s.leaveStartQueue h)
  joinStart : ∀ s e, P s → P { s with startQueue := insertStart e s.startQueue }
  handOver : ∀ s a b q, P s → P (s.handOverQueues a b q)
  unit : ∀ s u f, (s.unit u).SameBut (f (s.unit u)) → P s → P (s.modUnit u f)
  send : ∀ s u d, (s.unit u).link.state = .up → (s.unit u).link.outstanding.isNone → P s → P (s.send u d)
  contribution : ∀ s u, P s → P ((s.refreshContribution u).refreshFlow (s.unit u).waterway)
  water : ∀ s w f, (s.waterway w).SameBut (f (s.waterway w)) → P s → P (s.modWaterway w f)
  joinGate : ∀ s w h u kind cls, P s →
    P (s.modWaterway w fun x =>
      { x with
        queue := insertGate { handle := h, unit := u, kind := kind, cls := cls, rank := x.nextRank } x.queue
        nextRank := x.nextRank + 1 })
  converter : ∀ s c f, ((f (s.converter c)).runLimit = (s.converter c).runLimit ∧
    (f (s.converter c)).coolDown = (s.converter c).coolDown) → P s → P (s.modConverter c f)

namespace Kept

variable {P : State → Prop} (k : Kept P)

/-! ## Units whose link is not touched -/

/-- A change that leaves link, strap, waterway, contribution and pending setpoint alone. -/
theorem plain {b c : UnitBlock} (h₁ : c.present = b.present) (h₂ : c.waterway = b.waterway) (h₆ : c.eligible = b.eligible)
    (h₇ : c.isolated = b.isolated) (h₃ : c.contribution = b.contribution) (h₄ : c.link = b.link)
    (h₅ : c.pendingSetpoint = b.pendingSetpoint ∨ c.pendingSetpoint = none) : b.SameBut c := by
  refine ⟨h₁, h₂, h₆, h₇, h₃, by rw [h₄], fun l => ?_⟩
  refine ⟨?_, ?_, ?_, ?_, ?_, ?_, ?_, ?_⟩
  · rw [h₄]; exact l.ackTimer
  · rw [h₄]; exact l.held
  · rw [h₄]; rcases h₅ with h | h
    · rw [h]; exact l.pending
    · rw [h]; simp
  · rw [h₄]; exact l.outstanding
  · rw [h₄]; exact l.current
  · rw [h₄]; exact l.burst
  · rw [h₄]; exact l.silent
  · rw [h₄, h₁]; exact l.absent

include k

/-! ## Machine/Ops.lean -/

theorem raiseFor {s : State} (h : Handle) (e : EventKind) (p : P s) : P (s.raiseFor h e) := by
  unfold State.raiseFor; split <;> [exact p; exact k.raise _ _ p]

theorem note {s : State} (h : Handle) (e : EventKind) (p : P s) : P (s.note h e) := by
  unfold State.note; split <;> [exact p; exact k.raise _ _ (k.order _ _ _ p)]

theorem enter {s : State} (h : Handle) (l : Life) (e : EventKind) (p : P s) : P (s.enter h l e) :=
  k.note h e (k.order _ _ _ p)

theorem unlink {s : State} (h : Handle) (p : P s) : P (s.unlink h) := k.order _ _ _ (k.unlinkTo _ _ p)

theorem setContext {s : State} (u : UnitNo) (c : Context) (p : P s) : P (s.setContext u c) := by
  have q : P (s.modUnit u fun b =>
      { b with
        context := c
        lastConverter := if (s.unit u).context = .engaged ∧ c ≠ .engaged then none else b.lastConverter
        motion := if (s.unit u).context = .engaged ∧ c ≠ .engaged then false else b.motion
        link := if c = .locally then { b.link with held := none } else b.link }) := by
    refine k.unit _ _ _ ⟨rfl, rfl, rfl, rfl, rfl, by dsimp only; split <;> rfl, fun l => ?_⟩ p
    by_cases hc : c = .locally
    · simp only [hc, if_true]
      exact ⟨l.ackTimer, by simp, l.pending, l.outstanding, l.current, l.burst, l.silent, l.absent⟩
    · simp only [hc, if_false]
      exact ⟨l.ackTimer, l.held, l.pending, l.outstanding, l.current, l.burst, l.silent, l.absent⟩
  unfold State.setContext
  dsimp only
  split <;> [exact q; exact k.raise _ _ q]

theorem ask {s : State} (u : UnitNo) (d : Directive) (p : P s) : P (s.ask u d) := by
  unfold State.ask
  dsimp only
  split
  · exact p
  · rename_i up
    have up : (s.unit u).link.state = .up := by simpa using up
    split
    · exact k.send _ _ _ up ‹_› p
    · rename_i busy
      have out : (s.unit u).link.outstanding.isSome = true := by
        cases h : (s.unit u).link.outstanding <;> simp_all
      split
      · split
        · exact p
        · refine k.unit _ _ _ ⟨rfl, rfl, rfl, rfl, rfl, rfl, fun l => ?_⟩ p
          exact ⟨l.ackTimer, l.held, fun _ => out, l.outstanding, l.current, l.burst, l.silent, l.absent⟩
      · refine k.unit _ _ _ ⟨rfl, rfl, rfl, rfl, rfl, rfl, fun l => ?_⟩ p
        refine ⟨l.ackTimer, fun _ => out, ?_, l.outstanding, l.current, l.burst, l.silent, l.absent⟩
        dsimp only; split
        · simp
        · exact l.pending

theorem startSupervision {s : State} (u : UnitNo) (n : Nat) (p : P s) : P (s.startSupervision u n) :=
  k.unit _ _ _ (plain rfl rfl rfl rfl rfl rfl (.inl rfl)) p

theorem stopSupervision {s : State} (u : UnitNo) (p : P s) : P (s.stopSupervision u) :=
  k.unit _ _ _ (plain rfl rfl rfl rfl rfl rfl (.inl rfl)) p

theorem pick {s : State} (n : Nat) (p : P s) : P (s.pick n).2 := by
  unfold State.pick; split <;> [exact p; exact k.picks _ _ p]

theorem drawAll {α : Type} (n : Nat) (xs : List α) {s : State} (p : P s) : P (Machine.drawAll n xs s).2 := by
  induction n generalizing xs s with
  | zero => exact p
  | succ n ih =>
    have q := k.pick xs.length p
    unfold Machine.drawAll
    dsimp only
    split <;> [exact ih _ q; exact q]

theorem inFreeOrder {α : Type} {s : State} (xs : List α) (p : P s) : P (s.inFreeOrder xs).2 := k.drawAll _ xs p

/-! ## Machine/Flow.lean -/

theorem markSaturated {s : State} (u : UnitNo) (sat : Bool) (p : P s) : P (s.markSaturated u sat) := by
  unfold State.markSaturated; split <;> [exact k.unit _ _ _ (plain rfl rfl rfl rfl rfl rfl (.inl rfl)) p; exact p]

theorem refreshOutside {s : State} (u : UnitNo) (p : P s) : P (s.refreshOutside u) := by
  unfold State.refreshOutside; split <;> [exact k.unit _ _ _ (plain rfl rfl rfl rfl rfl rfl (.inl rfl)) p; exact p]

/-! ## Machine/Gate.lean -/

theorem leaveGate {s : State} (w : WaterwayNo) (h : Handle) (p : P s) : P (s.leaveGate w h) :=
  k.water _ _ _ ⟨rfl, rfl, rfl, rfl, rfl, rfl, rfl, rfl, rfl, rfl, rfl, rfl, rfl, rfl, List.filter_sublist⟩ p

theorem markTest {s : State} (e : GateEntry) (p : P s) : P (s.markTest e) := by
  unfold State.markTest; split <;> [exact k.markSaturated _ _ p; exact p]

theorem firstAllowed (w : WaterwayNo) (es : List GateEntry) {s : State} (p : P s) : P (State.firstAllowed w es s).1 := by
  induction es generalizing s with
  | nil => exact p
  | cons e es ih =>
    unfold State.firstAllowed
    split
    · exact k.markTest e p
    · exact ih (k.markTest e p)

theorem startGranted {s : State} (h : Handle) (p : P s) : P (s.startGranted h) := by
  unfold State.startGranted
  split
  · exact p
  · have q := fun f => k.order s h f p
    split
    · exact k.ask _ _ (k.startSupervision _ _ (k.unit _ _ _ (plain rfl rfl rfl rfl rfl rfl (.inl rfl)) (q _)))
    · exact k.ask _ _ (k.startSupervision _ _ (k.unit _ _ _ (plain rfl rfl rfl rfl rfl rfl (.inl rfl)) (q _)))
    · exact k.ask _ _ (k.startSupervision _ _ (q _))

theorem enterRundown {s : State} (h : Handle) (r : Order) (c : DoneCause) (p : P s) : P (s.enterRundown h r c) :=
  k.startSupervision _ _ (k.order _ _ _ p)

theorem stopGranted {s : State} (h : Handle) (p : P s) : P (s.stopGranted h) := by
  unfold State.stopGranted
  split
  · exact p
  · split <;> [exact k.ask _ _ (k.enterRundown _ _ _ p); exact p]

theorem grantGate {s : State} (w : WaterwayNo) (e : GateEntry) (p : P s) : P (s.grantGate w e) := by
  have q : P (s.modWaterway w fun x =>
      { x with
        queue := withoutGate e.handle x.queue
        spacing := if x.spacingTime = 0 then none else some x.spacingTime }) :=
    k.water _ _ _ ⟨rfl, rfl, rfl, rfl, rfl, rfl, rfl, rfl, rfl, rfl, rfl, rfl, rfl, rfl, List.filter_sublist⟩ p
  unfold State.grantGate
  split <;> [exact k.startGranted _ q; exact k.stopGranted _ q]

theorem gateLoop (w : WaterwayNo) (n : Nat) {s : State} (p : P s) : P (State.gateLoop w n s) := by
  induction n generalizing s with
  | zero => exact p
  | succ n ih =>
    have q := k.firstAllowed w (s.waterway w).queue p
    unfold State.gateLoop
    split
    · rename_i h; rw [h] at q; exact q
    · rename_i h; rw [h] at q
      split <;> [exact ih (k.grantGate _ _ q); exact k.grantGate _ _ q]

theorem gateOpportunity {s : State} (w : WaterwayNo) (p : P s) : P (s.gateOpportunity w) := by
  unfold State.gateOpportunity; split <;> [exact p; exact k.gateLoop _ _ p]

theorem joinsGate {s : State} (h : Handle) (r : Order) (kind : EntryKind) (p : P s) : P (s.joinGate h r kind) :=
  k.gateOpportunity _ (k.joinGate _ _ _ _ _ _ p)

theorem spacingExpired {s : State} (w : WaterwayNo) (p : P s) : P (s.spacingExpired w) :=
  k.gateOpportunity _
    (k.water _ _ _ ⟨rfl, rfl, rfl, rfl, rfl, rfl, rfl, rfl, rfl, rfl, rfl, rfl, rfl, rfl, List.Sublist.refl _⟩ p)

theorem tripGate {s : State} (w : WaterwayNo) (p : P s) : P (s.tripGate w) :=
  k.water _ _ _ ⟨rfl, rfl, rfl, rfl, rfl, rfl, rfl, rfl, rfl, rfl, rfl, rfl, rfl, rfl, List.Sublist.refl _⟩ p

end Kept

/-- A live net flow already up to date is not changed by bringing it up to date. -/
theorem refreshFlow_of_eq (s : State) (w : WaterwayNo) (h : s.sumFlow w = (s.waterway w).netFlow) : s.refreshFlow w = s := by
  have hv : s.waterways.set w (s.waterway w) = s.waterways := by
    simp [State.waterway]
  unfold State.refreshFlow State.modWaterway State.setWaterway
  rw [h]
  show { s with waterways := s.waterways.set w (s.waterway w) } = s
  rw [hv]

namespace Kept

variable {P : State → Prop} (k : Kept P)
include k

theorem recompute {s : State} (u : UnitNo) (p : P s) : P (s.recompute u) := by
  have q := k.contribution s u p
  unfold State.recompute State.updateFlow
  split
  · rename_i h; rwa [refreshFlow_of_eq _ _ h] at q
  · exact k.gateOpportunity _ q

theorem clearCurtailed {s : State} (u : UnitNo) (n : Nat) (p : P s) : P (s.clearCurtailed u n) := by
  unfold State.clearCurtailed
  split
  · split <;> [exact k.order _ _ _ p; exact p]
  · exact p

theorem commitSetpoint {s : State} (u : UnitNo) (n : Nat) (p : P s) : P (s.commitSetpoint u n) :=
  k.ask _ _ (k.recompute _ (k.clearCurtailed _ _ (k.unit _ _ _ (plain rfl rfl rfl rfl rfl rfl (.inl rfl)) p)))

/-! ## Machine/Arbiter.lean -/

theorem grantConverter {s : State} (c : ConverterNo) (e : StartEntry) (p : P s) : P (s.grantConverter c e) := by
  unfold State.grantConverter
  dsimp only
  have q := k.raise _ .converterChange
    (k.unit _ e.unit (fun b => { b with lastConverter := some c, motion := false }) (plain rfl rfl rfl rfl rfl rfl (.inl rfl))
      (k.converter _ c (fun x => { x with state := .running e.handle e.unit x.runLimit }) ⟨rfl, rfl⟩
        (k.leaveStart s e.handle p)))
  split <;> [exact q; exact k.ask _ _ (k.order _ _ _ q)]

theorem walkEntry {s : State} (e : StartEntry) (p : P s) : P (s.walkEntry e) := by
  unfold State.walkEntry; split <;> [exact k.grantConverter _ _ p; exact p]

omit k in
/-- A property that each step keeps is kept by the whole fold. -/
theorem foldl {α : Type} {P : State → Prop} {f : State → α → State} (hf : ∀ s a, P s → P (f s a)) (l : List α) {s : State}
    (p : P s) : P (l.foldl f s) := by
  induction l generalizing s with
  | nil => exact p
  | cons a l ih => exact ih (hf s a p)

theorem grantWalk {s : State} (p : P s) : P s.grantWalk := foldl (fun _ e q => k.walkEntry e q) _ p

theorem joinStartQueue {s : State} (h : Handle) (r : Order) (p : P s) : P (s.joinStartQueue h r) :=
  k.grantWalk (k.joinStart _ _ p)

theorem setConverterState {s : State} (c : ConverterNo) (st : ConverterState) (p : P s) : P (s.setConverterState c st) :=
  k.raise _ _ (k.converter _ _ _ ⟨rfl, rfl⟩ p)

theorem cooled {s : State} (c : ConverterNo) (p : P s) : P (s.cooled c) := by
  unfold State.cooled
  split <;> [exact k.setConverterState _ _ p; exact k.grantWalk (k.setConverterState _ _ p)]

theorem startCooling {s : State} (c : ConverterNo) (p : P s) : P (s.startCooling c) := by
  unfold State.startCooling
  dsimp only
  split <;> [exact k.cooled _ (k.setConverterState _ _ p); exact k.setConverterState _ _ p]

theorem endRun {s : State} (c : ConverterNo) (p : P s) : P (s.endRun c) := by
  unfold State.endRun
  split <;> [exact k.setConverterState _ _ (k.converter _ _ _ ⟨rfl, rfl⟩ p); exact k.startCooling _ p]

theorem releaseConverter {s : State} (h : Handle) (p : P s) : P (s.releaseConverter h) := by
  unfold State.releaseConverter; split <;> [exact k.endRun _ p; exact p]

theorem runFailed {s : State} (h : Handle) (u : UnitNo) (p : P s) : P (s.runFailed h u) :=
  k.ask _ _ (k.startSupervision _ _ (k.order _ _ _ p))

/-! ## Machine/Progress.lean -/

theorem releaseItems {s : State} (h : Handle) (r : Order) (p : P s) : P (s.releaseItems h r) := by
  unfold State.releaseItems
  dsimp only
  have q := k.leaveGate ((s.leaveStartQueue h).unit r.unit).waterway h (k.leaveStart s h p)
  refine k.unit _ _ _ (plain rfl rfl rfl rfl rfl rfl (.inr rfl)) ?_
  have q₁ : P (if r.life = .starting .converterRun then
      ((s.leaveStartQueue h).leaveGate ((s.leaveStartQueue h).unit r.unit).waterway h).releaseConverter h
      else (s.leaveStartQueue h).leaveGate ((s.leaveStartQueue h).unit r.unit).waterway h) := by
    split <;> [exact k.releaseConverter _ q; exact q]
  split <;> [exact k.order _ _ _ q₁; exact q₁]

theorem closeOrder {s : State} (h : Handle) (e : Ending) (p : P s) : P (s.closeOrder h e) := by
  unfold State.closeOrder
  split
  · exact p
  · split <;> [exact k.raiseFor _ _ (k.free _ _ p); exact k.enter _ _ _ p]

theorem endOrder {s : State} (h : Handle) (e : Ending) (p : P s) : P (s.endOrder h e).1 := by
  unfold State.endOrder
  split
  · exact p
  · rename_i r _
    split
    · dsimp only
      have p₁ : P (if r.life.engaged then s.releaseItems h r else s) := by
        split <;> [exact k.releaseItems _ _ p; exact p]
      generalize (if r.life.engaged then s.releaseItems h r else s) = s₁ at p₁
      have p₂ : P (if e.unlinks then s₁.unlink h else s₁) := by split <;> [exact k.unlink _ p₁; exact p₁]
      generalize (if e.unlinks then s₁.unlink h else s₁) = s₂ at p₂
      have p₃ := k.closeOrder h e p₂
      generalize s₂.closeOrder h e = s₃ at p₃
      have p₄ : P (if r.life.engaged then s₃.setContext r.unit e.context else s₃) := by
        split <;> [exact k.setContext _ _ p₃; exact p₃]
      generalize (if r.life.engaged then s₃.setContext r.unit e.context else s₃) = s₄ at p₄
      split <;> [exact k.recompute _ p₄; exact p₄]
    · exact p

theorem awaitStopGate {s : State} (h : Handle) (r : Order) (c : DoneCause) (p : P s) : P (s.awaitStopGate h r c) :=
  k.joinsGate _ _ _ (k.order _ _ _ p)

theorem abortToRundown {s : State} (h : Handle) (r : Order) (c : DoneCause) (p : P s) : P (s.abortToRundown h r c) :=
  k.ask _ _ (k.note _ _ (k.enterRundown _ _ _ (k.stopSupervision _ p)))

theorem stopEffect {s : State} (h : Handle) (r : Order) (c : DoneCause) (p : P s) : P (s.stopEffect h r c).1 := by
  unfold State.stopEffect
  split
  · dsimp only
    have q := fun ph => k.recompute r.unit (k.enter h (.stopping ph c) .orderChanged p)
    by_cases hm : r.mode = .generate
    · simp only [hm, if_true]
      split <;> [exact k.awaitStopGate _ _ _ (q _); exact q _]
    · simp only [hm, if_false]
      exact k.joinsGate _ _ _ (q _)
  · exact k.endOrder _ _ p
  · exact k.endOrder _ _ p
  · split
    · exact k.abortToRundown _ _ _ (k.leaveGate _ _ p)
    · exact k.endOrder _ _ p
  · exact k.abortToRundown _ _ _ (k.releaseConverter _ p)
  · exact k.abortToRundown _ _ _ p
  · exact k.note _ _ (k.enterRundown _ _ _ (k.stopSupervision _ p))
  · exact p

theorem stopNow {s : State} (h : Handle) (c : DoneCause) (p : P s) : P (s.stopNow h c).1 := by
  unfold State.stopNow
  split
  · exact p
  · split <;> [exact k.stopEffect _ _ _ p; exact k.stopEffect _ _ _ p; exact p]

theorem beginStop {s : State} (h : Handle) (c : DoneCause) (p : P s) : P (s.beginStop h c).1 := by
  unfold State.beginStop
  split
  · exact p
  · split
    · split
      · dsimp only
        split <;> [exact k.stopNow _ _ (k.order _ _ _ p); exact k.order _ _ _ p]
      · exact k.stopNow _ _ p
    · exact p

theorem treatPartner {s : State} (h : Handle) (p : P s) : P (s.treatPartner h).1 := by
  unfold State.treatPartner
  split
  · exact p
  · split
    · exact k.endOrder _ _ p
    · split <;> [exact k.stopNow _ _ (k.order _ _ _ p); exact k.beginStop _ _ p]

theorem treatGenerateLeg {s : State} (h : Handle) (p : P s) : P (s.treatGenerateLeg h).1 := by
  unfold State.treatGenerateLeg
  split
  · exact p
  · split <;> [exact k.endOrder _ _ p; exact p]

theorem makeEntry {s : State} (h : Handle) (r : Order) (ph : StartPhase) (p : P s) : P (s.makeEntry h r ph) := by
  unfold State.makeEntry
  split <;> [exact k.joinStartQueue _ _ p; exact k.joinsGate _ _ _ p; exact p]

theorem engage {s : State} (h : Handle) (r : Order) (p : P s) : P (s.engage h r) :=
  k.makeEntry _ _ _ (k.unit _ _ _ (plain rfl rfl rfl rfl rfl rfl (.inl rfl)) (k.enter _ _ _ (k.setContext _ _ p)))

theorem engageFirst {s : State} (u : UnitNo) (p : P s) : P (s.engageFirst u) := by
  unfold State.engageFirst
  split
  · split <;> [exact k.engage _ _ p; exact p]
  · exact p

theorem engagementTest {s : State} (u : UnitNo) (p : P s) : P (s.engagementTest u).1 := by
  unfold State.engagementTest
  split
  · split <;> [exact k.endOrder _ _ p; exact p]
  · exact k.engageFirst _ p

theorem engagementTestOf {s : State} (h : Handle) (p : P s) : P (s.engagementTestOf h).1 := by
  unfold State.engagementTestOf
  split
  · exact p
  · split
    · split <;> [exact k.endOrder _ _ p; exact k.engageFirst _ p]
    · exact p

theorem latenessTest {s : State} (h : Handle) (p : P s) : P (s.latenessTest h).1 := by
  unfold State.latenessTest
  split
  · exact p
  · split <;> [exact k.endOrder _ _ p; exact p]

theorem releasePairHold {s : State} (r : Order) (p : P s) : P (s.releasePairHold r) := by
  unfold State.releasePairHold
  split
  · split
    · split <;> [exact k.joinsGate _ _ _ (k.order _ _ _ p); exact p]
    · exact p
  · exact p

theorem completeStart {s : State} (h : Handle) (r : Order) (p : P s) : P (s.completeStart h r) := by
  unfold State.completeStart
  dsimp only
  have q := k.stopSupervision r.unit (k.enter h .running .orderChanged
    (k.order s h (fun r => { r with actualStart := some s.plantTime }) p))
  split
  · exact k.commitSetpoint _ _ (k.unit _ _ _ (plain rfl rfl rfl rfl rfl rfl (.inl rfl)) q)
  · exact k.releasePairHold _ (k.recompute _ q)

theorem handOverRecords {s : State} (a b : Handle) (r : Order) (p : P s) : P (s.handOverRecords a b r) :=
  k.enter _ _ _ (k.order _ _ _ (k.closeOrder _ _ p))

theorem handOverSetpoint {s : State} (u : UnitNo) (n : Nat) (p : P s) : P (s.handOverSetpoint u n) := by
  unfold State.handOverSetpoint
  split
  · split
    · exact k.commitSetpoint _ _ p
    · exact k.recompute _ (k.unit _ _ _ (plain rfl rfl rfl rfl rfl rfl (.inr rfl)) p)
  · exact k.recompute _ p

theorem handsOver {s : State} (a b : Handle) (r q : Order) (p : P s) : P (s.handOver a b r q) := by
  unfold State.handOver
  dsimp only
  have p₁ := k.handOverRecords a b r p
  split
  · split <;> [exact k.handOverSetpoint _ _ p₁; exact k.recompute _ p₁]
  · exact k.handOver _ _ _ _ p₁

theorem startArrival {s : State} (h : Handle) (p : P s) : P (s.startArrival h).1 := by
  unfold State.startArrival
  split
  · split <;> [exact k.enter _ _ _ p; exact p]
  · exact p

theorem endActive {s : State} (h : Handle) (p : P s) : P (s.endActive h).1 := by
  unfold State.endActive
  split
  · exact p
  · split
    · exact k.endOrder _ _ p
    · split
      · split <;> [exact k.handsOver _ _ _ _ p; exact k.beginStop _ _ p]
      · exact p

theorem endArrival {s : State} (h : Handle) (p : P s) : P (s.endArrival h).1 := by
  unfold State.endArrival
  split
  · exact p
  · split <;> [exact k.startArrival _ p; exact k.endActive _ p]

theorem runTask {s : State} (t : Task) (p : P s) : P (s.runTask t).1 := by
  cases t with
  | stop h c => exact k.beginStop _ _ p
  | partnerEnded h => exact k.treatPartner _ p
  | pumpStopped h => exact k.treatGenerateLeg _ p
  | engagement u => exact k.engagementTest _ p
  | engagementOf h => exact k.engagementTestOf _ p
  | lateness h => exact k.latenessTest _ p
  | endArrival h => exact k.endActive _ p

theorem settle {s : State} (ts : List Task) (p : P s) : P (s.settle ts) := by
  unfold State.settle
  generalize Config.cascadeBound = n
  induction n generalizing s ts with
  | zero => exact p
  | succ n ih =>
    cases ts with
    | nil => exact p
    | cons t ts => exact ih _ (k.runTask t p)

theorem finish {w : Work} (p : P w.1) : P w.finish := k.settle _ p

/-! ## Machine/Admission.lean -/

theorem writeLinks {s : State} (h : Handle) (before after : Option Handle) (p : P s) : P (s.writeLinks h before after) := by
  unfold State.writeLinks
  dsimp only
  have q : P (match before with
      | some a => s.modOrder a fun r => { r with successor := some h }
      | none => s) := by
    split <;> [exact k.order _ _ _ p; exact p]
  split <;> [exact k.order _ _ _ (k.unlinkTo _ _ q); exact q]

theorem adopt {s : State} (h : Handle) (o : Offer) (p : P s) : P (s.adopt h o) := by
  unfold State.adopt
  dsimp only
  have q := k.setContext o.unit .engaged p
  have q₁ := fun n => k.commitSetpoint o.unit n
    (k.unit _ o.unit (fun b => { b with ceiling := none }) (plain rfl rfl rfl rfl rfl rfl (.inl rfl)) q)
  have q₂ := k.recompute o.unit q
  by_cases hm : o.mode = .generate
  · simp only [hm, if_true]
    split <;> [exact k.finish (k.beginStop _ _ (q₁ _)); exact q₁ _]
  · simp only [hm, if_false]
    split <;> [exact k.finish (k.beginStop _ _ q₂); exact q₂]

theorem arriveIfNow {s : State} (h : Handle) (n : Nat) (p : P s) : P (s.arriveIfNow h n) := by
  unfold State.arriveIfNow; split <;> [exact k.finish (k.startArrival _ p); exact p]

theorem arriveBoth {s : State} (a b : Handle) (n : Nat) (p : P s) : P (s.arriveBoth a b n) := by
  unfold State.arriveBoth
  split
  · dsimp only
    exact foldl (fun _ _ q => k.finish (k.startArrival _ q)) _ (k.inFreeOrder _ p)
  · exact p

theorem writeAmended {s : State} (a : Amendment) (x : Handle × Order) (p : P s) : P (s.writeAmended a x) := by
  unfold State.writeAmended
  dsimp only
  refine k.writeLinks _ _ _ (k.order _ _ _ ?_)
  split <;> [exact k.markSaturated _ _ p; exact p]

theorem lowerToTarget {s : State} (h : Handle) (p : P s) : P (s.lowerToTarget h) := by
  unfold State.lowerToTarget
  split
  · split
    · split
      · split <;> [exact k.commitSetpoint _ _ p; exact p]
      · exact p
    · exact p
  · exact p

theorem amendedArrival {s : State} (a : Amendment) (h : Handle) (p : P s) : P (s.amendedArrival a h) := by
  unfold State.amendedArrival
  split
  · split
    · split <;> [exact k.finish (k.startArrival _ p); exact p]
    · split <;> [exact k.finish (k.endArrival _ p); exact p]
  · exact p

theorem derate {s : State} (h : Handle) (r : Order) (c : Capability) (p : P s) : P (s.derate h r c) := by
  unfold State.derate; split <;> [exact k.note _ _ (k.order _ _ _ p); exact p]

theorem replan {s : State} (h : Handle) (p : P s) : P (s.replan h) := by
  unfold State.replan
  split
  · exact p
  · split
    · exact p
    · dsimp only
      have q := fun u sat => k.markSaturated (s := s) u sat p
      split <;> [exact q _ _; exact k.note _ _ (k.order _ _ _ (q _ _))]

theorem endInfeasible {s : State} (h : Handle) (r : Order) (p : P s) : P (s.endInfeasible h r) := by
  unfold State.endInfeasible
  refine k.finish ?_
  split <;> [exact k.endOrder _ _ p; exact k.beginStop _ _ p]

theorem boundSetpoint {s : State} (r : Order) (p : P s) : P (s.boundSetpoint r) := by
  unfold State.boundSetpoint
  split
  · split
    · split
      · exact k.commitSetpoint _ _ p
      · split <;> [exact k.commitSetpoint _ _ p; exact p]
    · exact p
  · exact p

theorem recheckOrder (c : Capability) (x : State × List Handle) (h : Handle) (p : P x.1) : P (State.recheckOrder c x h).1 := by
  unfold State.recheckOrder
  split
  · exact p
  · split
    · dsimp only
      have q := fun r => k.replan h (k.derate h r c p)
      split
      · exact q _
      · split <;> [exact k.boundSetpoint _ (q _); exact k.endInfeasible _ _ (q _)]
    · exact p

theorem recheck {s : State} (u : UnitNo) (c : Capability) (p : P s) : P (s.recheck u c) := by
  unfold State.recheck
  generalize (s.chain u).map (·.1) = hs
  suffices ∀ x : State × List Handle, P x.1 → P (hs.foldl (State.recheckOrder c) x).1 from this _ p
  intro x hx
  induction hs generalizing x with
  | nil => exact hx
  | cons h hs ih => exact ih _ (k.recheckOrder c x h hx)

/-! ## Machine/Ramp.lean -/

theorem curtailUnit (cls : DispatchClass) (x : State × Int) (u : UnitNo) (p : P x.1) : P (State.curtailUnit cls x u).1 := by
  obtain ⟨s, e⟩ := x
  replace p : P s := p
  unfold State.curtailUnit
  dsimp only
  split
  · split
    · dsimp only
      refine k.order _ _ _ (k.unit _ _ _ ?_ (k.commitSetpoint _ _ (k.markSaturated _ _ p)))
      generalize State.unit _ _ = b
      exact plain rfl rfl rfl rfl rfl rfl (.inl rfl)
    · exact p
  · exact p

omit k in
/-- A fold whose state component each step keeps. -/
theorem foldlFst {α β : Type} {P : State → Prop} {f : State × β → α → State × β} (hf : ∀ x a, P x.1 → P (f x a).1)
    (l : List α) {x : State × β} (p : P x.1) : P (l.foldl f x).1 := by
  induction l generalizing x with
  | nil => exact p
  | cons a l ih => exact ih (hf x a p)

omit k in
/-- What touches only the gate, the pointer or the indications of a waterway. -/
theorem indications (x : Waterway) (y : Waterway) (h : ∃ p a b, y = { x with pointer := p, excessUnresolved := a, pumpExcess := b }) :
    x.SameBut y := by
  obtain ⟨p, a, b, rfl⟩ := h
  exact ⟨rfl, rfl, rfl, rfl, rfl, rfl, rfl, rfl, rfl, rfl, rfl, rfl, rfl, rfl, List.Sublist.refl _⟩

theorem setUnresolved {s : State} (w : WaterwayNo) (p : P s) : P (s.setUnresolved w) := by
  unfold State.setUnresolved
  split <;> [exact p; exact k.raise _ _ (k.water _ _ _ (indications _ _ ⟨_, _, _, rfl⟩) p)]

theorem curtail {s : State} (w : WaterwayNo) (p : P s) : P (s.curtail w) := by
  unfold State.curtail
  dsimp only
  have q := fun (us : List UnitNo) (e : Int) => foldlFst (P := P) (k.curtailUnit .firm) us
    (foldlFst (P := P) (k.curtailUnit .flexible) us (x := (s, e)) p)
  split <;> [exact k.setUnresolved _ (q _ _); exact q _ _]

theorem removeCeiling {s : State} (u : UnitNo) (p : P s) : P (s.removeCeiling u) := by
  unfold State.removeCeiling
  split <;> [exact p; exact k.unit _ _ _ (plain rfl rfl rfl rfl rfl rfl (.inl rfl)) p]

theorem removeCeilings {s : State} (w : WaterwayNo) (p : P s) : P (s.removeCeilings w) := by
  unfold State.removeCeilings
  exact k.water _ _ _ (indications _ _ ⟨_, _, _, rfl⟩) (foldl (fun _ u q => k.removeCeiling u q) _ p)

theorem stepUp {s : State} (u : UnitNo) (n d a : Nat) (p : P s) : P (s.stepUp u n d a).1 := by
  have q := k.markSaturated u (s.trialSaturates u (n + d)) p
  unfold State.stepUp
  dsimp only
  split <;> [exact q; exact k.commitSetpoint _ _ q]

theorem stepDown {s : State} (u : UnitNo) (n d a : Nat) (p : P s) : P (s.stepDown u n d a).1 := by
  have q := k.markSaturated u (s.trialSaturates u n) p
  unfold State.stepDown
  dsimp only
  split <;> [exact q; exact k.commitSetpoint _ _ q]

theorem visit (x : State × Nat) (u : UnitNo) (p : P x.1) : P (State.visit x u).1 := by
  obtain ⟨s, a⟩ := x
  replace p : P s := p
  unfold State.visit
  dsimp only
  split
  · split
    · exact p
    · split <;> [exact k.stepUp _ _ _ _ p; exact k.stepDown _ _ _ _ p]
  · exact p

theorem walk {s : State} (w : WaterwayNo) (p : P s) : P (s.walk w) := by
  unfold State.walk
  dsimp only
  exact k.water _ _ _ (indications _ _ ⟨_, _, _, rfl⟩) (foldlFst (P := P) k.visit _ p)

theorem unloadUnit {s : State} (u : UnitNo) (p : P s) : P (s.unloadUnit u) := by
  unfold State.unloadUnit
  split
  · rename_i h r n _ _
    split
    · rename_i c _
      have q : P (if s.isHeld u || n ≤ s.capTime u (·.pmin) then s
          else s.commitSetpoint u (max (s.capTime u (·.pmin)) (n - r.ramp))) := by
        split <;> [exact p; exact k.commitSetpoint _ _ p]
      dsimp only
      generalize (if s.isHeld u || n ≤ s.capTime u (·.pmin) then s
          else s.commitSetpoint u (max (s.capTime u (·.pmin)) (n - r.ramp))) = s' at q
      split <;> [exact k.awaitStopGate _ _ _ q; exact q]
    · exact p
  · exact p

theorem judgePumpExcess {s : State} (w : WaterwayNo) (p : P s) : P (s.judgePumpExcess w) := by
  unfold State.judgePumpExcess
  dsimp only
  have q := fun b => k.water s w (fun x => { x with pumpExcess := b }) (indications _ _ ⟨_, _, _, rfl⟩) p
  split <;> [exact k.raise _ _ (q _); exact q _]

theorem unload {s : State} (w : WaterwayNo) (p : P s) : P (s.unload w) :=
  foldl (fun _ u q => k.unloadUnit u q) _ (k.inFreeOrder _ p)

theorem rampPeriod {s : State} (w : WaterwayNo) (p : P s) : P (s.rampPeriod w) := by
  unfold State.rampPeriod
  dsimp only
  refine k.judgePumpExcess _ (k.unload _ (k.walk _ ?_))
  split <;> [exact k.curtail _ p; exact k.removeCeilings _ p]

end Kept

end Sys2Proof.Machine
end

