-- ==== Sys2Proof/Laws/Commands.lean ====
section
/-! SUPPORT. A property that every elementary change keeps, those of the commands themselves among them (`KeptByCommands`), is kept
by every command. -/

namespace Sys2Proof.Machine

/-! ## Reports, at the level of `Kept` -/

namespace Kept

variable {P : State → Prop} (k : Kept P)
include k

theorem markMotion {s : State} (u : UnitNo) (p : P s) : P (s.markMotion u) :=
  k.unit _ _ _ (plain rfl rfl rfl rfl rfl rfl (.inl rfl)) p

theorem synced {s : State} (h : Handle) (r : Order) (p : P s) : P (s.synced h r) := by
  unfold State.synced
  dsimp only
  have q := k.releaseConverter h (k.markMotion r.unit p)
  split <;> [exact k.joinsGate _ _ _ (k.order _ _ _ q); exact k.completeStart _ _ q]

theorem coasted {s : State} (h : Handle) (r : Order) (p : P s) : P (s.coasted h r).1 := by
  unfold State.coasted
  split <;> [exact k.joinStartQueue _ _ (k.order _ _ _ (k.stopSupervision _ p)); exact k.endOrder _ _ p]

theorem advancePhase {s : State} (h : Handle) (r : Order) (p : P s) : P (s.advancePhase h r).1 := by
  unfold State.advancePhase
  split <;> [exact k.synced _ _ p; exact k.coasted _ _ p; exact k.completeStart _ _ p; exact k.endOrder _ _ p; exact p]

theorem judgeReport {s : State} (h : Handle) (r : Order) (x : Report) (p : P s) : P (s.judgeReport h r x).1.1 := by
  unfold State.judgeReport
  split
  · exact k.endOrder _ _ p
  · split
    · exact k.endOrder _ _ p
    · split
      · exact k.endOrder _ _ p
      · split <;> [exact k.advancePhase _ _ p; exact p; exact k.markMotion _ p; exact p]

theorem takeReport {s : State} (u : UnitNo) (x : Report) (first : Bool) (p : P s) : P (s.takeReport u x first).1.1 := by
  unfold State.takeReport State.reportContext
  split
  · exact k.setContext _ _ p
  · split
    · split <;> [exact k.judgeReport _ _ _ p; exact p]
    · exact k.setContext _ _ p

/-! ## Inhibits -/

theorem raiseIf {s : State} (e : EventKind) (b : Bool) (p : P s) : P (s.raiseIf e b) := by
  unfold State.raiseIf; split <;> [exact k.raise _ _ p; exact p]

theorem inhibitPair {s : State} (i : InhibitsSet) (h : Handle) (r : Order) (p : P s) : P (s.inhibitPair i h r) := by
  have alone : P (if i.pump && r.life.movesWater then (s.beginStop h .limit).finish else s) := by
    split <;> [exact k.finish (k.beginStop _ _ p); exact p]
  unfold State.inhibitPair
  dsimp only
  split
  · split
    · exact p
    · split
      · split <;> [exact k.finish (k.beginStop _ _ (k.finish (k.beginStop _ _ p))); exact p]
      · exact alone
  · exact alone

theorem inhibitUnit (i : InhibitsSet) {s : State} (u : UnitNo) (p : P s) : P (State.inhibitUnit i s u) := by
  unfold State.inhibitUnit
  split
  · split
    · split <;> [exact k.inhibitPair _ _ _ p; exact p]
    · split <;> [exact k.finish (k.beginStop _ _ p); exact p]
  · exact p

/-! ## Converters, orders and units -/

theorem runTimedOut {s : State} (c : ConverterNo) (p : P s) : P (s.runTimedOut c) := by
  unfold State.runTimedOut; split <;> [exact k.runFailed _ _ (k.endRun _ p); exact p]

theorem cooledDown {s : State} (c : ConverterNo) (p : P s) : P (s.cooledDown c) := by
  unfold State.cooledDown; split <;> [exact k.cooled _ p; exact p]

theorem faultAsserted {s : State} (c : ConverterNo) (p : P s) : P (s.faultAsserted c) := by
  have q := k.converter s c (fun x => { x with faultLine := true }) ⟨rfl, rfl⟩ p
  unfold State.faultAsserted
  dsimp only
  split
  · exact q
  · exact k.runFailed _ _ (k.setConverterState _ _ (k.converter _ _ _ ⟨rfl, rfl⟩ q))
  · exact k.setConverterState _ _ q

theorem takeOut {s : State} (c : ConverterNo) (p : P s) : P (s.takeOut c) := by
  unfold State.takeOut
  split <;> [exact p; exact k.converter _ _ _ ⟨rfl, rfl⟩ p; exact k.setConverterState _ _ p]

theorem retireOne {s : State} (h : Handle) (p : P s) : P (s.retireOne h) := by
  unfold State.retireOne State.retireFree State.retireStop
  split
  · exact p
  · refine k.finish ?_
    split
    · split
      · exact k.setContext _ _ (k.free _ _ (k.releaseItems _ _ p))
      · exact k.free _ _ p
    · exact k.beginStop _ _ (k.order _ _ _ p)

theorem supervisionExpired {s : State} (u : UnitNo) (p : P s) : P (s.supervisionExpired u) := by
  unfold State.supervisionExpired
  split
  · split
    · split
      · exact k.finish (k.endOrder _ _ (k.ask _ _ p))
      · exact k.finish (k.endOrder _ _ p)
      · exact k.finish (k.endOrder _ _ p)
      · exact k.stopSupervision _ p
    · exact k.stopSupervision _ p
  · exact p

theorem haltEngaged {s : State} (u : UnitNo) (p : P s) : P (s.haltEngaged u) := by
  unfold State.haltEngaged
  split
  · exact k.settle _ (k.ask _ _ (k.endOrder _ _ (k.tripGate _ p)))
  · exact p

end Kept

/-- A change of a unit that touches neither its strap, its waterway nor its contribution, and that keeps the law of its link. -/
structure UnitBlock.SameApart (b c : UnitBlock) : Prop where
  present : c.present = b.present
  waterway : c.waterway = b.waterway
  contribution : c.contribution = b.contribution
  law : b.LinkLaw → c.LinkLaw

/-- A property that the changes of the Unit Links and the silence of a gauge keep besides, and so every event of a mark and of a
Unit Link. -/
structure KeptInEvents (P : State → Prop) : Prop extends Kept P where
  apart : ∀ s u f, (s.unit u).SameApart (f (s.unit u)) → P s → P (s.modUnit u f)
  acknowledged : ∀ s u, (s.unit u).link.state = .up → P s → P (s.acknowledged u)
  linkOut : ∀ s a, P s → P { s with linkOut := a }
  silence : ∀ s g, P s → P (s.gaugeSilence g)

/-- A property that every elementary change of the blocks keeps, those that only whole commands make among them. -/
structure KeptInside (P : State → Prop) : Prop extends KeptInEvents P where
  named : ∀ s l, P s → P { s with named := l }
  latches : ∀ s l, P s → P { s with latches := l }
  mask : ∀ s m, P s → P { s with mask := m }
  due : ∀ s l, P s → P { s with due := l }
  time : ∀ s n, n ≤ plantTimeMax → P s → P { s with plantTime := n }
  trim : ∀ s n, n ≤ 2 ∨ n ≤ s.pendingTrim → P s → P { s with pendingTrim := n }
  count : ∀ s, P s → P s.countMark
  telegram : ∀ s g bytes, P s → P ((s.modGauge g fun x => x.receive g bytes).gaugeChanged g (s.gauge g))
  waterwaySettings : ∀ s body c, waterwaySettingsOf body = some c → P s →
    P ((s.modWaterway c.1 fun x => x.write c.2).waterwayWritten c.1 (s.waterway c.1))
  gaugeSettings : ∀ s body c, gaugeSettingsOf body = some c → P s →
    P (if c.2.highLimit ≠ (s.gauge c.1).highLimit ∨ c.2.lowLimit ≠ (s.gauge c.1).lowLimit ∨
        c.2.hysteresis ≠ (s.gauge c.1).hysteresis then
      ((s.modGauge c.1 fun x => x.write c.2).modGauge c.1 Gauge.evaluateFlags).inhibitsOf c.1
      else s.modGauge c.1 fun x => x.write c.2)
  eligible : ∀ s u e, P s → P (s.modUnit u fun b => { b with waterway := (s.unit u).waterway, eligible := e })
  moved : ∀ s u w e, P s → P ((s.modUnit u fun b => { b with waterway := w, eligible := e }).moved u (s.unit u).waterway)
  converterSettings : ∀ s body c, converterSettingsOf body = some c → P s →
    P { (s.modConverter c.1 fun x => { x with runLimit := c.2.1, coolDown := c.2.2.1 }) with retry := c.2.2.2 }
  supervisionSettings : ∀ s body x, supervisionOf body = some x → P s → P { s with supervision := x }
  mode : ∀ s m, P s → P { s with mode := m }
  cleared : ∀ s, P s → P s.cleared

/-- A property that the changes of the Order Port and power-on keep besides, and so every command. -/
structure KeptByCommands (P : State → Prop) : Prop extends KeptInside P where
  port : ∀ s p, P s → P { s with port := p }
  portOut : ∀ s a, P s → P { s with portOut := a }
  powerOn : ∀ s straps, P s → P (s.poweredOn straps)

namespace KeptInEvents

/-- A change of a link alone. -/
theorem linkOnly {b : UnitBlock} {l : Link} (h : b.LinkLaw → ({ b with link := l } : UnitBlock).LinkLaw) :
    b.SameApart { b with link := l } := ⟨rfl, rfl, rfl, h⟩

/-- A supervised link belongs to a present unit. -/
theorem present_of_supervised {b : UnitBlock} (l : b.LinkLaw) (h : b.link.state.supervised = true) : b.present ≠ false := by
  intro hp; rw [l.absent hp] at h; exact absurd h (by decide)

variable {P : State → Prop} (k : KeptInEvents P)
include k

/-! ## Machine/Links.lean -/

theorem emit {s : State} (u : UnitNo) (f : LinkFrame) (p : P s) : P (s.emit u f) := k.linkOut s _ p

theorem darken {s : State} (u : UnitNo) (p : P s) : P (s.darken u) := by
  unfold State.darken; split <;> [exact k.finish (k.endOrder _ _ p); exact k.setContext _ _ p]

theorem loseLink {s : State} (u : UnitNo) (next : LinkState) (hn : next = .lost ∨ next = .down)
    (hs : (s.unit u).link.state.supervised = true) (p : P s) : P (s.loseLink u next) := by
  refine k.darken _ (k.raise _ _ (k.apart _ _ _ ⟨rfl, rfl, rfl, fun l => ?_⟩ p))
  refine ⟨rfl, by simp [Link.drop], by simp, by simp [Link.drop], ?_, ?_, by simp [Link.drop], ?_⟩
  · rcases hn with rfl | rfl <;> simp [Link.drop]
  · rcases hn with rfl | rfl <;> rfl
  · intro hp; exact absurd (show (s.unit u).present = false from hp) (present_of_supervised l hs)

theorem frameError {s : State} (u : UnitNo) (hs : (s.unit u).link.state.supervised = true) (p : P s) :
    P (s.frameError u) := by
  have q : P (s.modLink u fun l => { l with frameErrors := l.frameErrors + 1 }) :=
    k.apart _ _ _ (linkOnly fun l =>
      ⟨l.ackTimer, l.held, l.pending, l.outstanding, l.current, l.burst, l.silent, l.absent⟩) p
  unfold State.frameError
  dsimp only
  split
  · exact k.loseLink _ _ (.inl rfl) (by simpa [State.modLink] using hs) q
  · exact q

theorem validFrame {s : State} (u : UnitNo) (p : P s) : P (s.validFrame u) := by
  unfold State.validFrame
  refine k.apart _ _ _ (linkOnly fun l => ?_) p
  exact ⟨l.ackTimer, l.held, l.pending, l.outstanding, l.current, l.burst, by simp, l.absent⟩

theorem swapped {s : State} (u : UnitNo) (c : Capability) (p : P s) : P (s.swapped u c) :=
  k.raise _ _ (k.recheck _ _ (k.refreshOutside _ (k.recompute _ p)))

theorem linkUp {s : State} (u : UnitNo) (c : Capability) (hs : (s.unit u).link.state = .exchange) (p : P s) :
    P (s.linkUp u c) := by
  have q : P ((s.modLink u fun l => l.enterUp c).raise .linkChange) := by
    refine k.raise _ _ (k.apart _ _ _ (linkOnly fun l => ?_) p)
    refine ⟨rfl, by simp [Link.enterUp], fun h => ?_, by simp [Link.enterUp], by simp [Link.enterUp], ?_,
      by simp [Link.enterUp, LinkState.supervised], fun h => ?_⟩
    · have := l.outstanding (l.pending h); rw [hs] at this; exact absurd this (by decide)
    · show (s.unit u).link.burstTimer.isSome = true
      rw [l.burst, hs]; rfl
    · have := l.absent h; rw [hs] at this; exact absurd this (by decide)
  unfold State.linkUp
  dsimp only
  split <;> [exact k.swapped _ _ q; exact k.refreshOutside _ q]

theorem linkRefused {s : State} (u : UnitNo) (e : RefusalReason) (hs : (s.unit u).link.state = .exchange)
    (hq : (s.unit u).link.silent = false) (p : P s) : P (s.linkRefused u e) := by
  refine k.raise _ _ (k.apart _ _ _ (linkOnly fun l => ?_) p)
  have none : (s.unit u).link.outstanding.isSome = false := by
    by_contra h
    have := l.outstanding (eq_true_of_ne_false h)
    rw [hs] at this; exact absurd this (by decide)
  refine ⟨l.ackTimer, l.held, l.pending, fun h => ?_, by simp, rfl, fun h => ?_, fun h => ?_⟩
  · exact absurd (h.symm.trans none) (by decide)
  · exact absurd (h.symm.trans hq) (by decide)
  · have := l.absent h; rw [hs] at this; exact absurd this (by decide)

theorem pendingTaken {s : State} (u : UnitNo) (c : Capability) (p : P s) : P (s.pendingTaken u c) :=
  k.swapped _ _ (k.apart _ _ _ (linkOnly fun l =>
    ⟨l.ackTimer, l.held, l.pending, l.outstanding, fun _ => rfl, l.burst, l.silent, l.absent⟩) p)

theorem pendingRefused {s : State} (u : UnitNo) (e : RefusalReason) (p : P s) : P (s.pendingRefused u e) :=
  k.raise _ _ (k.apart _ _ _ (linkOnly fun l =>
    ⟨l.ackTimer, l.held, l.pending, l.outstanding, l.current, l.burst, l.silent, l.absent⟩) p)

theorem completeRecord {s : State} (u : UnitNo) (ps : List Page) (hs : (s.unit u).link.state.supervised = true)
    (hq : (s.unit u).link.silent = false) (p : P s) : P (s.completeRecord u ps) := by
  unfold State.completeRecord
  cases h : (s.unit u).link.state <;> rw [h] at hs <;> simp only [LinkState.supervised, Bool.false_eq_true] at hs <;>
    cases recordOf u ps
  · exact k.linkRefused _ _ h hq p
  · exact k.linkUp _ _ h p
  · exact k.pendingRefused _ _ p
  · exact k.pendingTaken _ _ p

theorem ackPage {s : State} (u : UnitNo) (x : Page) (p : P s) : P (s.ackPage u x) := k.emit _ _ p

theorem takePage {s : State} (u : UnitNo) (x : Page) (ps : List Page) (p : P s) : P (s.takePage u x ps) :=
  k.ackPage _ _ (k.apart _ _ _ (linkOnly fun l =>
    ⟨l.ackTimer, l.held, l.pending, l.outstanding, l.current, l.burst, l.silent, l.absent⟩) p)

theorem outOfSequence {s : State} (u : UnitNo) (hs : (s.unit u).link.state.supervised = true) (p : P s) :
    P (s.outOfSequence u) := by
  refine k.frameError _ (by simpa [State.modLink] using hs) (k.apart _ _ _ (linkOnly fun l => ?_) p)
  exact ⟨l.ackTimer, l.held, l.pending, l.outstanding, l.current, l.burst, l.silent, l.absent⟩

theorem judgePage {s : State} (u : UnitNo) (x : Page) (hs : (s.unit u).link.state.supervised = true)
    (hq : (s.unit u).link.silent = false) (p : P s) : P (s.judgePage u x) := by
  unfold State.judgePage
  dsimp only
  split
  · exact k.ackPage _ _ p
  · split
    · exact k.takePage _ _ _ p
    · split
      · split
        · refine k.completeRecord _ _ ?_ ?_ (k.takePage _ _ _ p)
          · simpa [State.takePage, State.ackPage, State.emit, State.modLink, State.unit, State.modUnit, State.setUnit] using hs
          · simpa [State.takePage, State.ackPage, State.emit, State.modLink, State.unit, State.modUnit, State.setUnit] using hq
        · exact k.takePage _ _ _ p
      · exact k.outOfSequence _ hs p

theorem pageReceived {s : State} (u : UnitNo) (x : Page) (hp : (s.unit u).present = true) (p : P s) :
    P (s.pageReceived u x) := by
  unfold State.pageReceived
  split
  · rename_i hs
    exact k.judgePage _ _ (by simpa [State.validFrame, State.modLink] using hs)
      (by simp [State.validFrame, State.modLink]) (k.validFrame _ p)
  · rename_i hs
    split
    · refine k.judgePage _ _ (by simp [State.modLink, Link.enterExchange, LinkState.supervised])
        (by simp [State.modLink, Link.enterExchange]) (k.apart _ _ _ (linkOnly fun l => ?_) p)
      have none : (s.unit u).link.outstanding.isSome = false := by
        by_contra h
        have := l.outstanding (eq_true_of_ne_false h)
        rw [this] at hs; exact hs rfl
      refine ⟨l.ackTimer, l.held, l.pending, fun h => ?_, by simp [Link.enterExchange], rfl,
        by simp [Link.enterExchange], fun h => ?_⟩
      · exact absurd (h.symm.trans none) (by decide)
      · exact absurd (hp.symm.trans h) (by decide)
    · exact p

theorem judgeAck {s : State} (u : UnitNo) (kind toggle : Byte) (hs : (s.unit u).link.state = .up) (p : P s) :
    P (s.judgeAck u kind toggle) := by
  have he : (s.unit u).link.state.supervised = true := by rw [hs]; rfl
  unfold State.judgeAck
  dsimp only
  split
  · exact p
  · split
    · split <;> [exact k.acknowledged _ _ hs p; exact k.frameError _ he p]
    · exact k.frameError _ he p

theorem ackReceived {s : State} (u : UnitNo) (kind toggle : Byte) (p : P s) : P (s.ackReceived u kind toggle) := by
  unfold State.ackReceived
  split
  · rename_i hs
    exact k.judgeAck _ _ _ (by simpa [State.validFrame, State.modLink] using hs) (k.validFrame _ p)
  · exact k.validFrame _ p
  · exact p

theorem storeReport {s : State} (u : UnitNo) (x : Report) (p : P s) : P (s.storeReport u x) := by
  unfold State.storeReport
  refine k.apart _ _ _ (linkOnly fun l => ?_) p
  exact ⟨l.ackTimer, l.held, l.pending, l.outstanding, l.current, l.burst, l.silent, l.absent⟩

end KeptInEvents

/-- Inside an event no link changes its state. -/
theorem kept_linkState (u : UnitNo) (st : LinkState) : Kept fun s => (s.unit u).link.state = st where
  raise _ _ p := p
  order s h f p := by
    unfold State.modOrder; split <;> exact p
  unlinkTo _ _ p := p
  free s h p := by
    unfold State.freeOrder; split <;> exact p
  record _ _ _ p := p
  picks _ _ p := p
  leaveStart _ _ p := p
  joinStart _ _ p := p
  handOver _ _ _ _ p := p
  unit s v f b p := by
    simp only [unit_modUnit]
    split
    · rename_i e; subst e; rw [b.link]; exact p
    · exact p
  send s v d _ _ p := by
    show ((s.modUnit v fun b =>
      { b with link := { b.link with outstanding := some d, ackTimer := some s.supervision.ackTimeout } }).unit u).link.state = st
    simp only [unit_modUnit]
    split
    · rename_i e; subst e; exact p
    · exact p
  contribution s v p := by
    unfold State.refreshContribution State.refreshFlow
    split
    · simp only [modWaterway_unit, unit_modUnit]
      split
      · rename_i e; subst e; exact p
      · exact p
    · exact p
  water _ _ _ _ p := p
  joinGate _ _ _ _ _ _ p := p
  converter _ _ _ _ p := p

namespace KeptInEvents

variable {P : State → Prop} (k : KeptInEvents P)
include k

theorem reportReceived {s : State} (u : UnitNo) (x : Report) (hs : (s.unit u).link.state = .up) (p : P s) :
    P (s.reportReceived u x) := by
  have t := kept_linkState u .up
  have p₁ := k.validFrame u p
  have t₁ : ((s.validFrame u).unit u).link.state = .up := by simpa [State.validFrame, State.modLink] using hs
  unfold State.reportReceived
  dsimp only
  generalize s.validFrame u = s₁ at p₁ t₁
  have p₂ : P (if startsTrip (s.unit u).link.lastReport x then s₁.tripGate (s₁.unit u).waterway else s₁) := by
    split <;> [exact k.tripGate _ p₁; exact p₁]
  have t₂ : ((if startsTrip (s.unit u).link.lastReport x then s₁.tripGate (s₁.unit u).waterway else s₁).unit
      u).link.state = .up := by split <;> exact t₁
  generalize (if startsTrip (s.unit u).link.lastReport x then s₁.tripGate (s₁.unit u).waterway else s₁) = s₂ at p₂ t₂
  have p₃ := k.storeReport u x p₂
  have t₃ : ((s₂.storeReport u x).unit u).link.state = .up := by simpa [State.storeReport, State.modLink] using t₂
  generalize s₂.storeReport u x = s₃ at p₃ t₃
  have p₄ := k.takeReport u x (!(s.unit u).link.sinceUp) p₃
  have t₄ := t.takeReport u x (!(s.unit u).link.sinceUp) t₃
  have p₅ := k.settle (s₃.takeReport u x (!(s.unit u).link.sinceUp)).1.2 (k.recompute u p₄)
  have t₅ := t.settle (s₃.takeReport u x (!(s.unit u).link.sinceUp)).1.2 (t.recompute u t₄)
  split
  · exact k.frameError _ (by rw [t₅]; rfl) p₅
  · exact p₅

theorem stateReceived {s : State} (u : UnitNo) (x : Report) (p : P s) : P (s.stateReceived u x) := by
  unfold State.stateReceived
  split <;> [exact k.reportReceived _ _ ‹_› p; exact k.validFrame _ p; exact p]

theorem helloDue {s : State} (u : UnitNo) (p : P s) : P (s.helloDue u) := by
  unfold State.helloDue; split <;> [exact k.emit _ _ p; exact p]

theorem ackExpired {s : State} (u : UnitNo) (p : P s) : P (s.ackExpired u) := by
  unfold State.ackExpired
  split
  · rename_i h; exact k.loseLink _ _ (.inl rfl) h.2 p
  · exact p

theorem burstExpired {s : State} (u : UnitNo) (p : P s) : P (s.burstExpired u) := by
  unfold State.burstExpired
  split
  · rename_i h
    refine k.apart _ _ _ (linkOnly fun l => ?_) p
    exact ⟨l.ackTimer, l.held, l.pending, l.outstanding, l.current, by rw [← l.burst, h]; rfl, l.silent, l.absent⟩
  · exact p

theorem silenceLook {s : State} (u : UnitNo) (p : P s) : P (s.silenceLook u) := by
  unfold State.silenceLook
  split
  · rename_i hs
    split
    · exact k.apart _ _ _ (linkOnly fun l =>
        ⟨l.ackTimer, l.held, l.pending, l.outstanding, l.current, l.burst, by simp, l.absent⟩) p
    · have q : P (s.modLink u fun l => { l with silenceCount := l.silenceCount + 1, silent := !l.heard }) :=
        k.apart _ _ _ (linkOnly fun l =>
          ⟨l.ackTimer, l.held, l.pending, l.outstanding, l.current, l.burst, fun _ => hs, l.absent⟩) p
      dsimp only
      split
      · exact k.loseLink _ _ (.inl rfl) (by simpa [State.modLink] using hs) q
      · exact q
  · exact p

/-! ## Machine/Clock.lean -/

theorem effect {s : State} (e : DueEvent) (p : P s) : P (e.effect s) := by
  cases e with
  | startArrival h => unfold DueEvent.effect; dsimp only; split <;> [exact k.finish (k.startArrival _ p); exact p]
  | endArrival h => unfold DueEvent.effect; dsimp only; split <;> [exact k.finish (k.endArrival _ p); exact p]
  | latenessArrival h => unfold DueEvent.effect; dsimp only; split <;> [exact k.finish (k.latenessTest _ p); exact p]
  | supervision u => show P (s.supervisionExpired u); exact k.supervisionExpired _ p
  | run c => show P (s.runTimedOut c); exact k.runTimedOut _ p
  | coolDown c => show P (s.cooledDown c); exact k.cooledDown _ p
  | spacing w => unfold DueEvent.effect; dsimp only; split <;> [exact k.spacingExpired _ p; exact p]
  | ramp w => show P (s.rampPeriod w); exact k.rampPeriod _ p
  | hello u => show P (s.helloDue u); exact k.helloDue _ p
  | ack u => show P (s.ackExpired u); exact k.ackExpired _ p
  | burst u => show P (s.burstExpired u); exact k.burstExpired _ p
  | linkSilence u => show P (s.silenceLook u); exact k.silenceLook _ p
  | gaugeSilence g => show P (s.gaugeSilence g); exact k.silence _ _ p

theorem takeAll (n : Nat) (es : List DueEvent) {s : State} (p : P s) : P (takeAll n es s) := by
  induction n generalizing es s with
  | zero => exact p
  | succ n ih =>
    have q := k.pick es.length p
    unfold Machine.takeAll
    dsimp only
    split <;> [exact ih _ (k.effect _ q); exact q]

end KeptInEvents

namespace KeptInside

variable {P : State → Prop} (k : KeptInside P)
include k

theorem takeDue {s : State} (e : DueEvent) (p : P s) : P (s.takeDue e) := by
  unfold State.takeDue; split <;> [exact k.effect _ (k.due _ _ p); exact p]

theorem takeThose {s : State} (f : DueEvent → Bool) (p : P s) : P (s.takeThose f) := k.takeAll _ _ (k.due _ _ p)

theorem advance {s : State} (p : P s) : P s.advance.1 := by
  unfold State.advance
  split
  · exact k.trim _ _ (.inr (by omega)) p
  · split <;> [exact k.time _ _ (by omega) p; exact p]

theorem secondMark {s : State} (p : P s) : P s.secondMark := by
  unfold State.secondMark
  dsimp only
  exact k.due _ _ (k.advance (k.count _ (k.takeThose _ p)))

theorem examine {s : State} (j : SlotNo) (p : P s) : P (s.examine j) := by
  unfold State.examine
  split
  · exact p
  · dsimp only
    split
    · split
      · exact k.finish (k.endOrder _ _ p)
      · split <;> [exact k.finish (k.startArrival _ p); exact p]
    · exact p

theorem examineHeld {s : State} (p : P s) : P s.examineHeld := Kept.foldl (fun _ j q => k.examine j q) _ p

theorem trimForward (n : Nat) {s : State} (p : P s) : P (trimForward n s) := by
  induction n generalizing s with
  | zero => exact p
  | succ n ih =>
    unfold Machine.trimForward
    split <;> [exact ih (k.takeAll _ _ (k.time _ _ (by omega) p)); exact p]

/-! ## Machine/Port.lean -/

/-- The property holds of the state that an owner's answer carries. -/
def OfAnswer (P : State → Prop) : Answer → Prop
  | .ok s _ => P s
  | .stopping s => P s
  | .afterReset s => P s
  | .refused _ => True

omit k in
theorem ofField {α : Type} (f : Option α) (g : α → Answer) (h : ∀ a, f = some a → OfAnswer P (g a)) :
    OfAnswer P (withField f g) := by
  unfold Machine.withField; split <;> [exact h _ rfl; trivial]

omit k in
theorem ofOrder {s : State} (h : Handle) (g : Order → Answer) (hg : ∀ r, OfAnswer P (g r)) :
    OfAnswer P (s.withOrder h g) := by
  unfold State.withOrder; split <;> [exact hg _; trivial]

/-! ## The owners -/

theorem placeOrder {s : State} (o : Offer) (p : P s) : OfAnswer P (s.placeOrder o) := by
  unfold State.placeOrder
  split
  · trivial
  · unfold State.admitOrder
    dsimp only [OfAnswer]
    have q : ∀ j r h b a, P (((({ (s.markSaturated o.unit (s.flowSaturates o.unit o.mode o.target)) with
        named := [h] } : State).enterRecord j r).writeLinks h b a)) := fun j r h b a =>
      k.writeLinks _ _ _ (k.record _ _ _ (k.named _ _ (k.markSaturated _ _ p)))
    split <;> [exact k.adopt _ _ (q _ _ _ _ _); exact k.arriveIfNow _ _ (q _ _ _ _ _)]
  · trivial

theorem placePair {s : State} (o : Offer × Offer) (p : P s) : OfAnswer P (s.placePair o) := by
  unfold State.placePair
  split
  · trivial
  · unfold State.admitPair
    dsimp only [OfAnswer]
    exact k.arriveBoth _ _ _ (k.record _ _ _ (k.record _ _ _ (k.named _ _ (k.markSaturated _ _ (k.markSaturated _ _ p)))))
  · trivial

theorem amendOrder {s : State} (h : Handle) (r : Order) (a : Amendment) (p : P s) : OfAnswer P (s.amendOrder h r a) := by
  unfold State.amendOrder
  split
  · trivial
  · unfold State.carryAmend
    dsimp only [OfAnswer]
    have q₁ := Kept.foldl (P := P) (f := fun s x => s.writeAmended a x) (fun _ x q => k.writeAmended a x q)
      (s.amendedLegs h r a) (k.named s (h :: r.partner.toList) p)
    generalize (s.amendedLegs h r a).foldl (fun s x => s.writeAmended a x) { s with named := h :: r.partner.toList } = s₁ at q₁
    have q₂ : P (if a.target.isSome then s₁.lowerToTarget h else s₁) := by
      split <;> [exact k.lowerToTarget _ q₁; exact q₁]
    generalize (if a.target.isSome then s₁.lowerToTarget h else s₁) = s₂ at q₂
    exact Kept.foldl (fun _ x q => k.amendedArrival a x q) _ (k.inFreeOrder _ q₂)

theorem retire {s : State} (h : Handle) (r : Order) (p : P s) : OfAnswer P (s.retire h r) := by
  unfold State.retire
  dsimp only
  have q := Kept.foldl (P := P) (fun _ x q => k.retireOne x q) (s.retiredLegs h r) (k.named s (h :: r.partner.toList) p)
  split <;> exact q

theorem halt {s : State} (u : UnitNo) (p : P s) : OfAnswer P (s.halt u) := by
  unfold State.halt
  split
  · exact k.haltEngaged _ p
  · exact k.setContext _ _ (k.ask _ _ (k.tripGate _ p))
  · exact k.ask _ _ (k.tripGate _ p)
  · exact p
  · trivial
  · trivial
  · trivial

theorem isolateUnit {s : State} (u : UnitNo) (p : P s) : OfAnswer P (s.isolateUnit u) := by
  unfold State.isolateUnit
  split
  · trivial
  · exact k.finish (k.engagementTest _ (k.apart _ _ _ ⟨rfl, rfl, rfl, fun l =>
      ⟨l.ackTimer, l.held, l.pending, l.outstanding, l.current, l.burst, l.silent, l.absent⟩⟩ p))

theorem restoreUnit {s : State} (u : UnitNo) (p : P s) : OfAnswer P (s.restoreUnit u) := by
  show P (s.modUnit u _)
  exact k.apart _ _ _ ⟨rfl, rfl, rfl, fun l =>
    ⟨l.ackTimer, l.held, l.pending, l.outstanding, l.current, l.burst, l.silent, l.absent⟩⟩ p

theorem takeIn {s : State} (c : ConverterNo) (p : P s) : OfAnswer P (s.takeIn c) := by
  unfold State.takeIn
  split
  · split <;> [trivial; exact k.startCooling _ p]
  · exact k.converter _ _ _ ⟨rfl, rfl⟩ p
  · exact p

theorem relinkUnit {s : State} (u : UnitNo) (p : P s) : OfAnswer P (s.relinkUnit u) := by
  have down : (s.unit u).link.state ≠ .up → (s.unit u).link.state.supervised = false →
      P ((s.modLink u fun l => { l with state := .down }).raise .linkChange) := by
    intro h hs
    refine k.raise _ _ (k.apart _ _ _ (KeptInEvents.linkOnly fun l => ?_) p)
    refine ⟨l.ackTimer, l.held, l.pending, fun g => absurd (l.outstanding g) h, by simp, ?_, fun g => ?_, fun _ => rfl⟩
    · show (s.unit u).link.burstTimer.isSome = false
      rw [l.burst, hs]
    · exact absurd (l.silent g) (by rw [hs]; decide)
  unfold State.relinkUnit
  split
  · trivial
  · cases h : (s.unit u).link.state
    · exact p
    · exact k.loseLink _ _ (.inr rfl) (by rw [h]; rfl) p
    · exact k.loseLink _ _ (.inr rfl) (by rw [h]; rfl) p
    · exact down (by rw [h]; decide) (by rw [h]; rfl)
    · exact down (by rw [h]; decide) (by rw [h]; rfl)

theorem linkStatus {s : State} (u : UnitNo) (p : P s) : OfAnswer P (s.linkStatus u) := by
  show P (s.modUnit u fun b => { b with link := { b.link with lostLatch := false } })
  exact k.apart _ _ _ (KeptInEvents.linkOnly fun l =>
    ⟨l.ackTimer, l.held, l.pending, l.outstanding, l.current, l.burst, l.silent, l.absent⟩) p

theorem setPlantTime {s : State} (v : Nat) (hv : v ≤ plantTimeMax) (p : P s) : OfAnswer P (s.setPlantTime v) := by
  unfold State.setPlantTime
  split
  · trivial
  · have q := k.due _ (s.due.filter fun e => !e.isArrival) (k.trim _ 0 (.inl (by omega)) (k.time s v hv p))
    show P (if _ then _ else _)
    split <;> [exact k.examineHeld q; exact q]

theorem trimBy {s : State} (v : Int) (p : P s) : OfAnswer P (s.trim v) := by
  unfold State.trim
  split
  · trivial
  · split
    · exact k.trimForward _ (k.takeThose _ (k.trim s 0 (.inl (by omega)) p))
    · exact k.trim s _ (.inl (by omega)) p

theorem configureWaterway {s : State} (body : List Byte) (c : WaterwayNo × WaterwaySettings)
    (h : waterwaySettingsOf body = some c) (p : P s) : OfAnswer P (s.configureWaterway c) := by
  unfold State.configureWaterway
  dsimp only
  split <;> [trivial; exact k.waterwaySettings _ body _ h p]

theorem configureGauge {s : State} (body : List Byte) (c : GaugeNo × GaugeSettings) (h : gaugeSettingsOf body = some c)
    (p : P s) : OfAnswer P (s.configureGauge c) := k.gaugeSettings s body c h p

theorem configureUnit {s : State} (c : UnitNo × WaterwayNo × BitVec 2) (p : P s) : OfAnswer P (s.configureUnit c) := by
  obtain ⟨u, w, e⟩ := c
  unfold State.configureUnit
  dsimp only
  split
  · rename_i h; subst h; exact k.eligible _ _ _ p
  · split <;> [trivial; exact k.moved _ _ _ _ p]

theorem configureConverter {s : State} (body : List Byte) (c : ConverterNo × Nat × Nat × Bool)
    (h : converterSettingsOf body = some c) (p : P s) : OfAnswer P (s.configureConverter c) :=
  k.converterSettings s body c h p

theorem enterDispatch {s : State} (p : P s) : OfAnswer P s.enterDispatch := by
  unfold State.enterDispatch
  split <;> [exact k.examineHeld (k.mode _ _ p); trivial]

theorem leaveDispatch {s : State} (p : P s) : OfAnswer P s.leaveDispatch := by
  unfold State.leaveDispatch
  split <;> [trivial; exact k.mode _ _ p]

omit k in
/-- Bytes hold a number below the power of 256 of their count. -/
theorem readBytes_lt (bs : List Byte) : readBytes bs < 256 ^ bs.length := by
  unfold readBytes
  suffices ∀ a, bs.foldl (fun acc b => acc * 256 + b.toNat) a < (a + 1) * 256 ^ bs.length by simpa using this 0
  induction bs with
  | nil => intro a; simp
  | cons b bs ih =>
    intro a
    refine lt_of_lt_of_le (ih _) ?_
    have hb : b.toNat < 256 := b.isLt
    calc (a * 256 + b.toNat + 1) * 256 ^ bs.length ≤ ((a + 1) * 256) * 256 ^ bs.length :=
          Nat.mul_le_mul_right _ (by omega)
      _ = (a + 1) * 256 ^ (b :: bs).length := by rw [List.length_cons, pow_succ]; ring

omit k in
/-- A field of `n` bytes holds a number below 256 to the n. -/
theorem field_lt (body : List Byte) (i n : Nat) : field body i n < 256 ^ n :=
  lt_of_lt_of_le (readBytes_lt _) (Nat.pow_le_pow_right (by decide) (by simp))

end KeptInside

namespace KeptByCommands

open KeptInside (OfAnswer ofField ofOrder field_lt)

variable {P : State → Prop} (k : KeptByCommands P)
include k

/-! ## Machine/Port.lean: the port's own part -/

theorem lines (s : State) (a : List (UnitNo × LinkFrame)) (b : List Byte) (p : P s) : P { s with linkOut := a, portOut := b } :=
  k.portOut { s with linkOut := a } b (k.linkOut s a p)

theorem quiet {s : State} (p : P s) : P s.quiet := k.lines s _ _ p

theorem frameEnded {s : State} (bytes : List Byte) (p : P s) : P (s.frameEnded bytes) := by
  have q : P s.quiet.discardUnread := by
    unfold State.discardUnread
    split <;> [exact k.raise _ _ (k.port _ _ (k.quiet p)); exact k.quiet p]
  unfold State.frameEnded
  dsimp only
  generalize s.quiet.discardUnread = t at q ⊢
  exact k.lines { t with port := { t.port with requestBuffer := bytes.take bufferSize } } t.linkOut _ (k.port t _ q)

theorem respond {s : State} (r : Result) (body : List Byte) (p : P s) : P (s.respond r body) := by
  unfold State.respond
  generalize ({ requestBuffer := [], response := s.responseFrame r body, unread := true, overrun := false, resetResponse := false } : Port) = x
  exact k.named { s with port := x } [] (k.port s x p)

theorem answer {s : State} {a : Answer} (p : P s) (q : OfAnswer P a) : P (s.answer a) := by
  cases a with
  | ok t body => exact k.respond _ _ q
  | stopping t => exact k.respond _ _ q
  | afterReset t => exact k.port _ _ (k.respond _ _ q)
  | refused r => exact k.respond _ _ p

theorem request {s : State} (kind : Nat) (modes : Admits) (length : Nat) (tag : Byte) (body : List Byte)
    (owner : State → Answer) (h : ∀ t, P t → OfAnswer P (owner t)) (p : P s) :
    P (s.request kind modes length tag body owner) := by
  have q := k.frameEnded (requestFrame kind tag body) p
  unfold State.request
  dsimp only
  split
  · exact k.respond _ _ q
  · split <;> [exact k.respond _ _ q; exact k.answer q (h _ q)]

/-! ## Machine/Dispatch.lean -/

/-- Every command keeps the property. -/
theorem exec {c : Instr} {s t : State} (h : Machine.exec c s = .next t) (p : P s) :
    P t := by
  have due := fun e => k.takeDue e (k.quiet p)
  cases c <;> cases h
  case powerOn straps => exact k.powerOn _ _ p
  case secondMark => exact k.secondMark (k.quiet p)
  case startArrival => exact due _
  case endArrival => exact due _
  case latenessArrival => exact due _
  case supervisionTimerExpiry => exact due _
  case runTimerExpiry => exact due _
  case coolDownExpiry => exact due _
  case spacingTimerExpiry => exact due _
  case rampPeriodExpiry => exact due _
  case helloInterval => exact due _
  case ackTimerExpiry => exact due _
  case burstWindowExpiry => exact due _
  case linkSilenceCount => exact due _
  case gaugeSilenceCount => exact due _
  case pageReport u x =>
    unfold State.fromPresent; split <;> [exact k.pageReceived _ _ ‹_› (k.quiet p); exact k.quiet p]
  case ackReport => unfold State.fromPresent; split <;> [exact k.ackReceived _ _ _ (k.quiet p); exact k.quiet p]
  case stateReport => unfold State.fromPresent; split <;> [exact k.stateReceived _ _ (k.quiet p); exact k.quiet p]
  case linkFrameBad =>
    unfold State.fromPresent
    split
    · dsimp only; split <;> [exact k.frameError _ ‹_› (k.quiet p); exact k.quiet p]
    · exact k.quiet p
  case gaugeTelegram g bytes => exact k.telegram s.quiet g bytes (k.quiet p)
  case converterFaultAssert => exact k.faultAsserted _ (k.quiet p)
  case converterFaultClear => exact k.converter _ _ _ ⟨rfl, rfl⟩ (k.quiet p)
  case place => exact k.request _ _ _ _ _ _ (fun _ q => ofField _ _ fun _ _ => k.placeOrder _ q) p
  case placePair => exact k.request _ _ _ _ _ _ (fun _ q => ofField _ _ fun _ _ => k.placePair _ q) p
  case amend =>
    exact k.request _ _ _ _ _ _ (fun _ q => ofOrder _ _ fun _ => ofField _ _ fun _ _ => k.amendOrder _ _ _ q) p
  case retire => exact k.request _ _ _ _ _ _ (fun _ q => ofOrder _ _ fun _ => k.retire _ _ q) p
  case lookup => exact k.request _ _ _ _ _ _ (fun _ q => ofOrder _ _ fun _ => k.order _ _ _ q) p
  case listUnit => exact k.request _ _ _ _ _ _ (fun _ q => ofField _ _ fun _ _ => q) p
  case listState => exact k.request _ _ _ _ _ _ (fun _ q => ofField _ _ fun _ _ => q) p
  case isolate => exact k.request _ _ _ _ _ _ (fun _ q => ofField _ _ fun _ _ => k.isolateUnit _ q) p
  case restore => exact k.request _ _ _ _ _ _ (fun _ q => ofField _ _ fun _ _ => k.restoreUnit _ q) p
  case haltUnit => exact k.request _ _ _ _ _ _ (fun _ q => ofField _ _ fun _ _ => k.halt _ q) p
  case setConverterOut => exact k.request _ _ _ _ _ _ (fun _ q => ofField _ _ fun _ _ => k.takeOut _ q) p
  case setConverterIn => exact k.request _ _ _ _ _ _ (fun _ q => ofField _ _ fun _ _ => k.takeIn _ q) p
  case converterStatus => exact k.request _ _ _ _ _ _ (fun _ q => q) p
  case waterwayStatus => exact k.request _ _ _ _ _ _ (fun _ q => ofField _ _ fun _ _ => q) p
  case unitStatus => exact k.request _ _ _ _ _ _ (fun _ q => ofField _ _ fun _ _ => q) p
  case linkStatus => exact k.request _ _ _ _ _ _ (fun _ q => ofField _ _ fun _ _ => k.linkStatus _ q) p
  case relink => exact k.request _ _ _ _ _ _ (fun _ q => ofField _ _ fun _ _ => k.relinkUnit _ q) p
  case gaugeStatus => exact k.request _ _ _ _ _ _ (fun _ q => ofField _ _ fun _ _ => q) p
  case readClock => exact k.request _ _ _ _ _ _ (fun _ q => q) p
  case setTime tag body =>
    refine k.request _ _ _ _ _ _ (fun _ q => k.setPlantTime _ ?_ q) p
    have := field_lt body 0 4
    simp only [plantTimeMax]; omega
  case trimClock => exact k.request _ _ _ _ _ _ (fun _ q => k.trimBy _ q) p
  case readEvents => exact k.request _ _ _ _ _ _ (fun _ q => q) p
  case setEventMask => exact k.request _ _ _ _ _ _ (fun _ q => ofField _ _ fun _ _ => k.mask _ _ q) p
  case clearEvents => exact k.request _ _ _ _ _ _ (fun _ q => ofField _ _ fun _ _ => k.latches _ _ q) p
  case configureWaterway tag body =>
    exact k.request _ _ _ _ _ _ (fun _ q => ofField _ _ fun _ h => k.configureWaterway body _ h q) p
  case configureGauge tag body =>
    exact k.request _ _ _ _ _ _ (fun _ q => ofField _ _ fun _ h => k.configureGauge body _ h q) p
  case configureUnit => exact k.request _ _ _ _ _ _ (fun _ q => ofField _ _ fun _ _ => k.configureUnit _ q) p
  case configureConverter tag body =>
    exact k.request _ _ _ _ _ _ (fun _ q => ofField _ _ fun _ h => k.configureConverter body _ h q) p
  case configureSupervision tag body =>
    exact k.request _ _ _ _ _ _ (fun _ q => ofField _ _ fun _ h => k.supervisionSettings _ body _ h q) p
  case startDispatch => exact k.request _ _ _ _ _ _ (fun _ q => k.enterDispatch q) p
  case stopDispatch => exact k.request _ _ _ _ _ _ (fun _ q => k.leaveDispatch q) p
  case identify => exact k.request _ _ _ _ _ _ (fun _ q => q) p
  case reset => exact k.request _ _ _ _ _ _ (fun _ q => k.cleared _ q) p
  case badFrame bytes =>
    split <;> [exact k.quiet p; exact k.respond _ _ (k.frameEnded _ p)]
  case unknownRequest => exact k.respond _ _ (k.frameEnded _ p)
  case readPeriod n =>
    dsimp only
    have q : P { s.quiet with
        portOut := 0 :: (s.port.response ++ List.replicate (n - s.port.response.length) 0).take n } :=
      k.lines s [] _ p
    split <;> [exact k.port _ _ q; exact q]

end KeptByCommands

/-! ## Properties that speak of no flow, head, inhibit or gauge -/

/-- A property that a contribution, the items of a waterway but its queue, and the gauges have no part in. -/
structure KeptFreely (P : State → Prop) : Prop extends Kept P where
  refresh : ∀ s u, P s → P (s.refreshContribution u)
  waterItems : ∀ s w f, (f (s.waterway w)).queue = (s.waterway w).queue → (f (s.waterway w)).nextRank = (s.waterway w).nextRank →
    P s → P (s.modWaterway w f)
  anyGauge : ∀ s g f, P s → P (s.modGauge g f)

namespace KeptFreely

variable {P : State → Prop} (k : KeptFreely P)
include k

theorem refreshFlow {s : State} (w : WaterwayNo) (p : P s) : P (s.refreshFlow w) := k.waterItems _ _ _ rfl rfl p

theorem takeHead {s : State} (w : WaterwayNo) (h : Nat) (l : Bool) (p : P s) : P (s.takeHead w h l) := by
  unfold State.takeHead
  dsimp only
  refine Kept.foldl (fun _ _ q => k.toKept.refreshOutside _ q) _
    (k.refreshFlow _ (Kept.foldl (fun s u q => ?_) _ (k.waterItems _ _ _ rfl rfl p)))
  split <;> [exact k.refresh _ _ q; exact q]

theorem updateHead {s : State} (w : WaterwayNo) (p : P s) : P (s.updateHead w) := by
  unfold State.updateHead
  dsimp only
  split <;> [exact k.waterItems _ _ _ rfl rfl p; exact k.toKept.gateOpportunity _ (k.takeHead _ _ _ p)]

theorem evaluateInhibits {s : State} (w : WaterwayNo) (p : P s) : P (s.evaluateInhibits w) := by
  unfold State.evaluateInhibits
  dsimp only
  have p₁ := fun b a c => k.toKept.raiseIf .inhibitChange b
    (k.waterItems s w (fun x => { x with pumpInhibit := a, genInhibit := c }) rfl rfl p)
  have p₂ : ∀ (s : State) i, P s → ∀ b : Bool, P (if b = true then (s.unitsOf w).foldl (State.inhibitUnit i) s else s) := by
    intro s i p b; split <;> [exact Kept.foldl (fun _ u q => k.toKept.inhibitUnit i u q) _ p; exact p]
  split <;> [exact k.toKept.gateOpportunity _ (p₂ _ _ (p₁ _ _ _) _); exact p₂ _ _ (p₁ _ _ _) _]

theorem inhibitsOf {s : State} (g : GaugeNo) (p : P s) : P (s.inhibitsOf g) :=
  Kept.foldl (fun _ w q => k.evaluateInhibits w q) _ p

theorem headsOf {s : State} (g : GaugeNo) (p : P s) : P (s.headsOf g) := Kept.foldl (fun _ w q => k.updateHead w q) _ p

theorem gaugeChanged {s : State} (g : GaugeNo) (old : Gauge) (p : P s) : P (s.gaugeChanged g old) := by
  unfold State.gaugeChanged
  dsimp only
  have q := k.toKept.raiseIf .gaugeChange (old.state != (s.gauge g).state) p
  split <;> [exact k.inhibitsOf _ (k.headsOf _ q); exact q]

theorem updateFlow {s : State} (w : WaterwayNo) (p : P s) : P (s.updateFlow w) := by
  unfold State.updateFlow
  split <;> [exact p; exact k.toKept.gateOpportunity _ (k.refreshFlow _ p)]

theorem telegram {s : State} (g : GaugeNo) (bytes : List Byte) (p : P s) :
    P ((s.modGauge g fun x => x.receive g bytes).gaugeChanged g (s.gauge g)) := k.gaugeChanged _ _ (k.anyGauge _ _ _ p)

theorem silence {s : State} (g : GaugeNo) (p : P s) : P (s.gaugeSilence g) := k.toKept.raiseIf _ _ (k.anyGauge _ _ _ p)

theorem waterwaySettings {s : State} (c : WaterwayNo × WaterwaySettings) (p : P s) :
    P ((s.modWaterway c.1 fun x => x.write c.2).waterwayWritten c.1 (s.waterway c.1)) := by
  have q := k.waterItems s c.1 (fun x => x.write c.2) rfl rfl p
  unfold State.waterwayWritten
  dsimp only
  split
  · split <;> [exact k.evaluateInhibits _ (k.updateHead _ q); exact k.evaluateInhibits _ q]
  · split <;> [exact k.updateHead _ q; exact q]

theorem gaugeSettings {s : State} (c : GaugeNo × GaugeSettings) (p : P s) :
    P (if c.2.highLimit ≠ (s.gauge c.1).highLimit ∨ c.2.lowLimit ≠ (s.gauge c.1).lowLimit ∨
        c.2.hysteresis ≠ (s.gauge c.1).hysteresis then
      ((s.modGauge c.1 fun x => x.write c.2).modGauge c.1 Gauge.evaluateFlags).inhibitsOf c.1
      else s.modGauge c.1 fun x => x.write c.2) := by
  split <;> [exact k.inhibitsOf _ (k.anyGauge _ _ _ (k.anyGauge _ _ _ p)); exact k.anyGauge _ _ _ p]

theorem movedTo {s : State} (u : UnitNo) (old : WaterwayNo) (p : P s) : P (s.moved u old) :=
  k.toKept.refreshOutside _ (k.updateFlow _ (k.updateFlow _ (k.refresh _ _ p)))

end KeptFreely

/-! ## Properties of some other part of the state -/

/-- A property that plain changes of the units, waterways, gauges, converters, port, clock and settings keep. -/
structure KeptPlainly (P : State → Prop) : Prop extends KeptFreely P where
  anyUnit : ∀ s u f, P s → P (s.modUnit u f)
  linkOut : ∀ s a, P s → P { s with linkOut := a }
  named : ∀ s l, P s → P { s with named := l }
  latches : ∀ s l, P s → P { s with latches := l }
  mask : ∀ s m, P s → P { s with mask := m }
  due : ∀ s l, P s → P { s with due := l }
  time : ∀ s n, P s → P { s with plantTime := n }
  trim : ∀ s n, P s → P { s with pendingTrim := n }
  count : ∀ s, P s → P s.countMark
  anyConverter : ∀ s w f, P s → P (s.modConverter w f)
  retry : ∀ s m, P s → P { s with retry := m }
  supervision : ∀ s m, P s → P { s with supervision := m }
  mode : ∀ s m, P s → P { s with mode := m }
  cleared : ∀ s, P s → P s.cleared

namespace KeptPlainly

/-- Such a property is kept within every command. -/
theorem inside {P : State → Prop} (k : KeptPlainly P) : KeptInside P where
  toKept := k.toKept
  apart _ _ _ _ p := k.anyUnit _ _ _ p
  acknowledged s u hs p := by
    unfold State.acknowledged State.sendNext
    split
    · apply k.linkOut _ _
      exact k.anyUnit _ _ _ (k.anyUnit _ _ _ (k.anyUnit _ _ _ p))
    · apply k.linkOut _ _
      exact k.anyUnit _ _ _ (k.anyUnit _ _ _ (k.anyUnit _ _ _ p))
    · exact (k.anyUnit _ _ _ p)
  linkOut := k.linkOut
  named := k.named
  latches := k.latches
  mask := k.mask
  due := k.due
  time s n _ p := k.time s n p
  trim s n _ p := k.trim s n p
  count := k.count
  telegram _ g b p := k.toKeptFreely.telegram g b p
  silence _ g p := k.toKeptFreely.silence g p
  waterwaySettings _ _ c _ p := k.toKeptFreely.waterwaySettings c p
  gaugeSettings _ _ c _ p := k.toKeptFreely.gaugeSettings c p
  eligible _ _ _ p := k.anyUnit _ _ _ p
  moved _ _ _ _ p := k.toKeptFreely.movedTo _ _ (k.anyUnit _ _ _ p)
  converterSettings s b c h p := k.retry _ _ (k.anyConverter _ _ _ p)
  supervisionSettings s b x _ p := k.supervision _ _ p
  mode := k.mode
  cleared := k.cleared

/-- Kept by the port and by power-on too, it is kept by every command. -/
theorem byCommands {P : State → Prop} (k : KeptPlainly P) (port : ∀ s p, P s → P { s with port := p })
    (portOut : ∀ s a, P s → P { s with portOut := a }) (powerOn : ∀ s straps, P s → P (s.poweredOn straps)) :
    KeptByCommands P where
  toKeptInside := k.inside
  port := port
  portOut := portOut
  powerOn := powerOn

end KeptPlainly

end Sys2Proof.Machine
end

