-- ==== Sys2Proof/Laws/Lines.lean ====
section
/-! SUPPORT. What cutting a line into frames can do (R193): how a byte is taken, and that bytes may be cut in pieces. -/

namespace Sys2Proof

/-- The frames that have ended only grow: they stand before the new ones, and what is collected does not depend on them. -/
theorem takeLineByte_frames (done : List (List Byte)) (begun : List Byte) (b : Byte) :
    takeLineByte (done, begun) b = (done ++ (takeLineByte ([], begun) b).1, (takeLineByte ([], begun) b).2) := by
  unfold takeLineByte
  split <;> simp

theorem foldl_takeLineByte (done : List (List Byte)) (begun bytes : List Byte) :
    bytes.foldl takeLineByte (done, begun) = (done ++ (cutLine begun bytes).1, (cutLine begun bytes).2) := by
  induction bytes generalizing done begun with
  | nil => simp [cutLine]
  | cons b bytes ih =>
    have h : cutLine begun (b :: bytes) = ((takeLineByte ([], begun) b).1 ++ (cutLine (takeLineByte ([], begun) b).2 bytes).1,
        (cutLine (takeLineByte ([], begun) b).2 bytes).2) := ih _ _
    rw [List.foldl_cons, takeLineByte_frames, ih, h, List.append_assoc]

/-- Bytes that come in two pieces are cut as if they had come in one. -/
theorem cutLine_append (begun a b : List Byte) : cutLine begun (a ++ b) =
    ((cutLine begun a).1 ++ (cutLine (cutLine begun a).2 b).1, (cutLine (cutLine begun a).2 b).2) := by
  rw [cutLine, List.foldl_append, show a.foldl takeLineByte ([], begun) = ((cutLine begun a).1, (cutLine begun a).2) from rfl,
    foldl_takeLineByte]

end Sys2Proof
end

