-- ==== Sys2Proof/Laws/Port.lean ====
section
/-! SUPPORT. What a request frame does, said once: the blocks leave the Order Port alone, so the outcome of a request is its owner's
state with the response put into the port (`State.answered`). -/

namespace Sys2Proof.Machine

/-! ## The blocks leave the Order Port and the waiting commands alone -/

/-- Nothing within a command changes the port, what went out on it, or the queue of waiting commands. -/
theorem kept_port (q : Port) (o : List Byte) (l : List Instr) :
    KeptPlainly fun s => s.port = q ∧ s.portOut = o ∧ s.pending = l where
  raise _ _ p := p
  order s h f p := by unfold State.modOrder; split <;> exact p
  unlinkTo _ _ p := p
  free s h p := by unfold State.freeOrder; split <;> exact p
  record _ _ _ p := p
  picks _ _ p := p
  leaveStart _ _ p := p
  joinStart _ _ p := p
  handOver _ _ _ _ p := p
  unit _ _ _ _ p := p
  send _ _ _ _ _ p := p
  contribution s u p := by unfold State.refreshContribution; split <;> exact p
  water _ _ _ _ p := p
  joinGate _ _ _ _ _ _ p := p
  converter _ _ _ _ p := p
  refresh s u p := by unfold State.refreshContribution; split <;> exact p
  waterItems _ _ _ _ _ p := p
  anyGauge _ _ _ p := p
  anyUnit _ _ _ p := p
  linkOut _ _ p := p
  named _ _ p := p
  latches _ _ p := p
  mask _ _ p := p
  due _ _ p := p
  time _ _ p := p
  trim _ _ p := p
  count _ p := p
  anyConverter _ _ _ p := p
  retry _ _ p := p
  supervision _ _ p := p
  mode _ _ p := p
  cleared _ p := p

/-- The waiting commands are kept by every command. -/
theorem kept_pending (l : List Instr) : KeptByCommands fun s => s.pending = l where
  raise _ _ p := p
  order s h f p := by unfold State.modOrder; split <;> exact p
  unlinkTo _ _ p := p
  free s h p := by unfold State.freeOrder; split <;> exact p
  record _ _ _ p := p
  picks _ _ p := p
  leaveStart _ _ p := p
  joinStart _ _ p := p
  handOver _ _ _ _ p := p
  unit _ _ _ _ p := p
  send _ _ _ _ _ p := p
  contribution s u p := by unfold State.refreshContribution; split <;> exact p
  water _ _ _ _ p := p
  joinGate _ _ _ _ _ _ p := p
  converter _ _ _ _ p := p
  apart _ _ _ _ p := p
  acknowledged s u h p := ((kept_port s.port s.portOut l).inside.acknowledged s u h ⟨rfl, rfl, p⟩).2.2
  linkOut _ _ p := p
  named _ _ p := p
  latches _ _ p := p
  mask _ _ p := p
  due _ _ p := p
  time _ _ _ p := p
  trim _ _ _ p := p
  count _ p := p
  telegram s g b p := ((kept_port s.port s.portOut l).inside.telegram s g b ⟨rfl, rfl, p⟩).2.2
  silence s g p := ((kept_port s.port s.portOut l).inside.silence s g ⟨rfl, rfl, p⟩).2.2
  waterwaySettings s b c h p := ((kept_port s.port s.portOut l).inside.waterwaySettings s b c h ⟨rfl, rfl, p⟩).2.2
  gaugeSettings s b c h p := ((kept_port s.port s.portOut l).inside.gaugeSettings s b c h ⟨rfl, rfl, p⟩).2.2
  eligible _ _ _ p := p
  moved s u w e p := ((kept_port s.port s.portOut l).inside.moved s u w e ⟨rfl, rfl, p⟩).2.2
  converterSettings _ _ _ _ p := p
  supervisionSettings _ _ _ _ p := p
  mode _ _ p := p
  cleared _ p := p
  port _ _ p := p
  portOut _ _ p := p
  powerOn _ _ p := p

/-! ## The state a request is carried out upon -/

/-- The port a request's owner finds: the frame in the request buffer, and the overrun flag raised where a response stood unread
(R172, R178). -/
def Port.atFrame (p : Port) (bytes : List Byte) : Port :=
  if p.unread then
    { requestBuffer := bytes.take bufferSize, response := [], unread := false, overrun := true, resetResponse := false }
  else { p with requestBuffer := bytes.take bufferSize }

/-- The end of a request frame changes the latches and the port alone. -/
theorem frameEnded_eq (s : State) (bytes : List Byte) :
    s.frameEnded bytes =
      { s.taken with port := s.port.atFrame bytes, portOut := List.replicate bytes.length 0 } := by
  unfold State.frameEnded State.discardUnread State.quiet State.taken State.atFrame Port.atFrame State.raise
  dsimp only
  split <;> rfl

@[simp] theorem atFrame_mode (s : State) : s.atFrame.mode = s.mode := by
  unfold State.atFrame; split <;> rfl

@[simp] theorem taken_mode (s : State) : s.taken.mode = s.mode := by simp [State.taken]

/-- The bytes of a request frame: its length byte, kind and tag stand first (Table 12-1). -/
theorem requestFrame_eq (kind : Nat) (tag : Byte) (body : List Byte) :
    ∃ rest, requestFrame kind tag body = BitVec.ofNat 8 (body.length + 4) :: BitVec.ofNat 8 kind :: tag :: rest ∧
      rest.length = body.length + 2 := by
  refine ⟨body ++ beBytes 2 (crc16 (beBytes 1 (body.length + 4) ++ beBytes 1 kind ++ [tag] ++ body)).toNat, ?_, ?_⟩
  · simp [requestFrame, withCrc, beBytes]
  · simp [beBytes]

theorem length_requestFrame (kind : Nat) (tag : Byte) (body : List Byte) :
    (requestFrame kind tag body).length = body.length + 5 := by
  obtain ⟨rest, h, l⟩ := requestFrame_eq kind tag body
  simp [h, l]

/-- The response to the frame that an owner found in the request buffer. -/
theorem respond_answered {s t : State} {bytes : List Byte} (hp : t.port = s.port.atFrame bytes) (ho : t.portOut = List.replicate n 0)
    (h1 : byteAt (bytes.take bufferSize) 1 = BitVec.ofNat 8 kind) (h2 : byteAt (bytes.take bufferSize) 2 = tag)
    (r : Result) (out : List Byte) (hk : ¬ (kind = 32 ∧ r = .ok)) : t.respond r out = s.answered kind tag n r out t := by
  have hb : t.port.requestBuffer = bytes.take bufferSize := by rw [hp]; unfold Port.atFrame; split <;> rfl
  have hv : t.port.overrun = (s.port.unread || s.port.overrun) := by
    rw [hp]; unfold Port.atFrame; split <;> simp_all
  have hz : (kind == 32 && r == .ok) = false := by simpa using hk
  unfold State.respond State.answered State.responseFrame responseBytes State.flagsByte
  rw [hb, hv, h1, h2, hz, ← ho]
  simp [beBytes]

/-! ## The outcome of a request -/

/-- The bytes a request's owner finds in the request buffer begin with its kind and tag. -/
theorem bufferHead (kind : Nat) (tag : Byte) (body : List Byte) :
    byteAt ((requestFrame kind tag body).take bufferSize) 1 = BitVec.ofNat 8 kind ∧
      byteAt ((requestFrame kind tag body).take bufferSize) 2 = tag := by
  obtain ⟨rest, h, -⟩ := requestFrame_eq kind tag body
  rw [h]
  simp [bufferSize, byteAt]

/-- How an owner's answer is delivered: as the response to the request, over the owner's state or, when it refuses, over the state
as the request found it (R176, R179). -/
def State.delivered (s : State) (kind : Nat) (tag : Byte) (n : Nat) : Answer → State
  | .ok t out => s.answered kind tag n .ok out t
  | .stopping t => s.answered kind tag n .acceptedStopping [] t
  | .afterReset t => s.answered kind tag n .ok [] t
  | .refused r => s.answered kind tag n r [] s.taken

/-- The results with which an owner refuses a request: the others carry one out, or are the port's own (R174, R179). -/
def Result.refuses (r : Result) : Prop :=
  r ≠ .ok ∧ r ≠ .acceptedStopping ∧ r ≠ .wrongMode ∧ r ≠ .badFrame ∧ r ≠ .unknownRequest

/-- The answers a request of the kind may give: a RETIRE alone accepts with a stop to come (R17), and RESET alone answers as one,
whenever it is carried out (R181). -/
def Answer.suits (kind : Nat) : Answer → Prop
  | .ok _ _ => kind ≠ 32
  | .stopping _ => kind = 4
  | .afterReset _ => kind = 32
  | .refused r => r.refuses

/-- Everything a request frame of a known kind can do (R173, R174, R176, R178, R179). -/
theorem request_eq {s : State} {kind : Nat} {modes : Admits} {length : Nat} {tag : Byte} {body : List Byte}
    {owner : State → Answer}
    (kept : KeptInside.OfAnswer
      (fun t => t.port = s.port.atFrame (requestFrame kind tag body) ∧ t.portOut = List.replicate (body.length + 5) 0)
      (owner (s.frameEnded (requestFrame kind tag body))))
    (suits : (owner (s.frameEnded (requestFrame kind tag body))).suits kind) :
    s.request kind modes length tag body owner =
      if modes.admits s.mode = false then s.answered kind tag (body.length + 5) .wrongMode [] s.taken
      else if body.length ≠ length then s.answered kind tag (body.length + 5) .badField [] s.taken
      else s.delivered kind tag (body.length + 5) (owner (s.frameEnded (requestFrame kind tag body))) := by
  obtain ⟨h1, h2⟩ := bufferHead kind tag body
  have refuse : ∀ r, r ≠ Result.ok → (s.frameEnded (requestFrame kind tag body)).respond r [] =
      s.answered kind tag (body.length + 5) r [] s.taken := by
    intro r hr
    rw [frameEnded_eq, length_requestFrame]
    exact respond_answered (s := s) (n := body.length + 5) (kind := kind) (tag := tag)
      (bytes := requestFrame kind tag body)
      (t := { s.taken with port := s.port.atFrame (requestFrame kind tag body), portOut := List.replicate (body.length + 5) 0 })
      rfl rfl h1 h2 r [] (fun h => hr h.2)
  have hm : (s.frameEnded (requestFrame kind tag body)).mode = s.mode := by rw [frameEnded_eq]; exact taken_mode s
  unfold State.request
  dsimp only
  rw [hm]
  simp only [Bool.not_eq_true']
  split
  · exact refuse _ (by decide)
  · split
    · exact refuse _ (by decide)
    · revert kept suits
      cases owner (s.frameEnded (requestFrame kind tag body)) with
      | ok t out => exact fun k q => respond_answered k.1 k.2 h1 h2 _ _ fun h => q h.1
      | stopping t => exact fun k _ => respond_answered k.1 k.2 h1 h2 _ _ fun h => by cases h.2
      | refused r => exact fun _ q => refuse r q.1
      | afterReset t =>
        intro k q
        have hb : t.port.requestBuffer = (requestFrame kind tag body).take bufferSize := by
          rw [k.1]; unfold Port.atFrame; split <;> rfl
        have hv : t.port.overrun = (s.port.unread || s.port.overrun) := by
          rw [k.1]; unfold Port.atFrame; split <;> simp_all
        have q : kind = 32 := q
        subst q
        unfold State.answer State.delivered State.markReset State.respond State.answered State.responseFrame responseBytes
          State.flagsByte
        dsimp only
        rw [hb, hv, h1, h2, ← k.2]
        simp [beBytes]

/-! ## The owners of the requests -/

/-- A result of one of the checks is a refusal. -/
theorem firstFailure_refuses {l : List (Option Result)} {r : Result} (h : ∀ x ∈ l, ∀ r, x = some r → r.refuses)
    (e : firstFailure l = some r) : r.refuses := by
  obtain ⟨x, hx, hr⟩ := List.exists_of_findSome?_eq_some e
  exact h x hx r hr

theorem unlessHolds_eq {p : Bool} {r r' : Result} (h : unlessHolds p r = some r') : r = r' := by
  unfold unlessHolds at h; split at h <;> simp_all

theorem check8_refuses {s : State} {c : Candidate} {r : Result} (h : s.check8 c = some r) : r.refuses := by
  have zero : ∀ a b l g r, judgeZeroGap a b l g = some r → r.refuses := by
    intro a b l g r; unfold judgeZeroGap
    split <;> [skip; split] <;> [skip; skip; split] <;> intro h <;> cases h <;> simp [Result.refuses]
  have gap : ∀ p r, unlessHolds p .changeoverShort = some r → r.refuses := by
    intro p r h; cases unlessHolds_eq h; simp [Result.refuses]
  refine firstFailure_refuses (fun x hx r hr => ?_) h
  simp only [List.mem_cons, List.not_mem_nil, or_false] at hx
  obtain rfl | rfl := hx
  · unfold State.judgeEarlier at hr
    split at hr
    · cases hr
    · split at hr
      · cases hr; simp [Result.refuses]
      · split at hr <;> [exact zero _ _ _ _ _ hr; exact gap _ _ hr]
  · unfold State.judgeLater at hr
    split at hr
    · split at hr <;> [exact zero _ _ _ _ _ hr; exact gap _ _ hr]
    · cases hr

theorem ok_suits {kind : Nat} {s : State} {body : List Byte} (h : kind ≠ 32) : (Answer.ok s body).suits kind := h

theorem withField_suits {kind : Nat} {α : Type} {f : Option α} {k : α → Answer} (h : ∀ a, (k a).suits kind) :
    (withField f k).suits kind := by
  unfold withField; split <;> [exact h _; simp [Answer.suits, Result.refuses]]

theorem withOrder_suits {kind : Nat} {s : State} {h : Handle} {k : Order → Answer} (hk : ∀ r, (k r).suits kind) :
    (s.withOrder h k).suits kind := by
  unfold State.withOrder; split <;> [exact hk _; simp [Answer.suits, Result.refuses]]

theorem placeOrder_suits (s : State) (o : Offer) : (s.placeOrder o).suits 1 := by
  unfold State.placeOrder
  split
  · rename_i r h
    refine firstFailure_refuses (fun x hx r hr => ?_) h
    simp only [List.mem_cons, List.not_mem_nil, or_false] at hx
    obtain rfl | rfl | rfl | rfl | rfl | rfl | rfl | rfl | rfl := hx
    case inr.inr.inr.inr.inr.inr.inl => exact check8_refuses hr
    all_goals cases unlessHolds_eq hr; simp [Result.refuses]
  · exact (by decide : (1 : Nat) ≠ 32)
  · simp [Answer.suits, Result.refuses]

theorem placePair_suits (s : State) (o : Offer × Offer) : (s.placePair o).suits 2 := by
  unfold State.placePair
  split
  · rename_i r h
    refine firstFailure_refuses (fun x hx r hr => ?_) h
    simp only [List.mem_cons, List.not_mem_nil, or_false] at hx
    obtain rfl | rfl | rfl | rfl | rfl | rfl | rfl | rfl | rfl | rfl | rfl := hx
    case inr.inr.inr.inr.inr.inr.inr.inl => exact check8_refuses hr
    case inr.inr.inr.inr.inr.inr.inr.inr.inl => exact check8_refuses hr
    all_goals cases unlessHolds_eq hr; simp [Result.refuses]
  · exact (by decide : (2 : Nat) ≠ 32)
  · simp [Answer.suits, Result.refuses]

theorem judgeAmended_refuses {s : State} {a : Amendment} {legs : List (Handle × Order)} {r : Result}
    (h : s.judgeAmended a legs = some r) : r.refuses := by
  unfold State.judgeAmended at h
  refine firstFailure_refuses (fun x hx r hr => ?_) h
  simp only [List.mem_cons, List.not_mem_nil, or_false] at hx
  obtain rfl | rfl | rfl | rfl | rfl | rfl := hx
  case inr.inr.inr.inr.inl =>
    refine firstFailure_refuses (fun y hy r hr => ?_) hr
    obtain ⟨p, -, rfl⟩ := List.mem_map.1 hy
    exact check8_refuses hr
  all_goals cases unlessHolds_eq hr; simp [Result.refuses]

theorem amendOrder_suits (s : State) (h : Handle) (r : Order) (a : Amendment) : (s.amendOrder h r a).suits 3 := by
  unfold State.amendOrder
  split
  · rename_i e he
    refine firstFailure_refuses (fun x hx r hr => ?_) he
    simp only [List.mem_cons, List.not_mem_nil, or_false] at hx
    obtain rfl | rfl | rfl := hx
    case inr.inr => exact judgeAmended_refuses hr
    all_goals cases unlessHolds_eq hr; simp [Result.refuses]
  · exact (by decide : (3 : Nat) ≠ 32)

theorem isolateUnit_suits (s : State) (u : UnitNo) : (s.isolateUnit u).suits 8 := by
  unfold State.isolateUnit
  repeat' first | split | dsimp only
  all_goals first | exact ok_suits (by decide) | simp [Answer.suits, Result.refuses]

theorem halt_suits (s : State) (u : UnitNo) : (s.halt u).suits 10 := by
  unfold State.halt
  repeat' first | split | dsimp only
  all_goals first | exact ok_suits (by decide) | simp [Answer.suits, Result.refuses]

theorem takeIn_suits (s : State) (c : ConverterNo) : (s.takeIn c).suits 11 := by
  unfold State.takeIn
  repeat' first | split | dsimp only
  all_goals first | exact ok_suits (by decide) | simp [Answer.suits, Result.refuses]

theorem relinkUnit_suits (s : State) (u : UnitNo) : (s.relinkUnit u).suits 16 := by
  unfold State.relinkUnit
  repeat' first | split | dsimp only
  all_goals first | exact ok_suits (by decide) | simp [Answer.suits, Result.refuses]

theorem setPlantTime_suits (s : State) (v : Nat) : (s.setPlantTime v).suits 19 := by
  unfold State.setPlantTime
  repeat' first | split | dsimp only
  all_goals first | exact ok_suits (by decide) | simp [Answer.suits, Result.refuses]

theorem trim_suits (s : State) (v : Int) : (s.trim v).suits 20 := by
  unfold State.trim
  repeat' first | split | dsimp only
  all_goals first | exact ok_suits (by decide) | simp [Answer.suits, Result.refuses]

theorem configureWaterway_suits (s : State) (c : WaterwayNo × WaterwaySettings) : (s.configureWaterway c).suits 24 := by
  unfold State.configureWaterway
  repeat' first | split | dsimp only
  all_goals first | exact ok_suits (by decide) | simp [Answer.suits, Result.refuses]

theorem configureUnit_suits (s : State) (c : UnitNo × WaterwayNo × BitVec 2) : (s.configureUnit c).suits 26 := by
  unfold State.configureUnit
  repeat' first | split | dsimp only
  all_goals first | exact ok_suits (by decide) | simp [Answer.suits, Result.refuses]

theorem enterDispatch_suits (s : State) : (s.enterDispatch).suits 29 := by
  unfold State.enterDispatch
  repeat' first | split | dsimp only
  all_goals first | exact ok_suits (by decide) | simp [Answer.suits, Result.refuses]

theorem leaveDispatch_suits (s : State) : (s.leaveDispatch).suits 30 := by
  unfold State.leaveDispatch
  repeat' first | split | dsimp only
  all_goals first | exact ok_suits (by decide) | simp [Answer.suits, Result.refuses]

theorem retire_suits (s : State) (h : Handle) (r : Order) : (s.retire h r).suits 4 := by
  unfold State.retire
  repeat' first | split | dsimp only
  all_goals first | exact ok_suits (by decide) | rfl

/-- The owner of a request, as its meaning hands the request on. -/
def ownerOf : Instr → State → Answer
  | .place _ body => fun s => withField (placeOf body) s.placeOrder
  | .placePair _ body => fun s => withField (pairOf body) s.placePair
  | .amend _ body =>
    fun s => s.withOrder (field body 0 2) fun r =>
      withField (amendmentOf r.mode body) fun a => s.amendOrder (field body 0 2) r a
  | .retire _ body => fun s => s.withOrder (field body 0 2) fun r => s.retire (field body 0 2) r
  | .lookup _ body => fun s => s.withOrder (field body 0 2) fun r => s.lookup (field body 0 2) r
  | .listUnit _ body => fun s => withField (unitOf (byteAt body 0)) fun u => .ok s (handleList (s.unitHandles u))
  | .listState _ body => fun s => withField (stateSetOf body) fun x => .ok s (handleList (s.stateHandles x.1 x.2))
  | .isolate _ body => fun s => withField (unitOf (byteAt body 0)) s.isolateUnit
  | .restore _ body => fun s => withField (unitOf (byteAt body 0)) s.restoreUnit
  | .haltUnit _ body => fun s => withField (unitOf (byteAt body 0)) s.halt
  | .setConverterOut _ body => fun s => withField (setConverterOperand 0 body) fun c => .ok (s.takeOut c) []
  | .setConverterIn _ body => fun s => withField (setConverterOperand 1 body) s.takeIn
  | .converterStatus _ _ => fun s => .ok s s.convertersBody
  | .waterwayStatus _ body => fun s => withField (waterwayOf (byteAt body 0)) fun w => .ok s (s.waterwayBody w)
  | .unitStatus _ body => fun s => withField (unitOf (byteAt body 0)) fun u => .ok s (s.unitBody u)
  | .linkStatus _ body => fun s => withField (unitOf (byteAt body 0)) s.linkStatus
  | .relink _ body => fun s => withField (unitOf (byteAt body 0)) s.relinkUnit
  | .gaugeStatus _ body => fun s => withField (gaugeOf (byteAt body 0)) fun g => .ok s (s.gaugeBody g)
  | .readClock _ _ => fun s => .ok s (beBytes 4 s.plantTime ++ beBytes 1 s.pendingTrim)
  | .setTime _ body => fun s => s.setPlantTime (field body 0 4)
  | .trimClock _ body => fun s => s.trim (signedByte (byteAt body 0))
  | .readEvents _ _ => fun s => .ok s (beBytes 2 s.latches.toNat ++ beBytes 2 s.mask.toNat)
  | .setEventMask _ body => fun s => withField (eventSetOf body) fun m => .ok { s with mask := m } []
  | .clearEvents _ body => fun s => withField (eventSetOf body) fun m => .ok { s with latches := s.latches &&& ~~~m } []
  | .configureWaterway _ body => fun s => withField (waterwaySettingsOf body) s.configureWaterway
  | .configureGauge _ body => fun s => withField (gaugeSettingsOf body) s.configureGauge
  | .configureUnit _ body => fun s => withField (unitSettingsOf body) s.configureUnit
  | .configureConverter _ body => fun s => withField (converterSettingsOf body) s.configureConverter
  | .configureSupervision _ body => fun s => withField (supervisionOf body) fun x => .ok { s with supervision := x } x.echo
  | .startDispatch _ _ => State.enterDispatch
  | .stopDispatch _ _ => State.leaveDispatch
  | .identify _ _ =>
    fun s => .ok s (beBytes 2 Config.partCode ++ beBytes 1 Config.designRevision ++ Config.capacities.flatMap (beBytes 1) ++
      beBytes 1 s.presentSet)
  | .reset _ _ => fun s => .afterReset s.cleared
  | _ => fun _ => .refused .unknownRequest

/-- Every request of a known kind goes to an owner by way of `State.request`, with the modes of Table 10-1 and the length of its
kind's layout; the owner keeps what the blocks keep, and answers as its kind may. -/
theorem served {c : Instr} {kind : Nat} {tag : Byte} {body : List Byte} (h : c.asRequest = some (kind, tag, body)) :
    ∃ modes : Admits,
      (∀ s, exec c s = .next (s.request kind modes (kindLength kind) tag body (ownerOf c))) ∧
        (∀ m, modes.admits m = kindAdmitted kind m) ∧
        (∀ (P : State → Prop) (_ : KeptInside P) (s : State), P s → KeptInside.OfAnswer P (ownerOf c s)) ∧
        ∀ s, (ownerOf c s).suits kind := by
  cases c <;> cases h
  case place =>
    exact ⟨onlyDispatch, fun _ => rfl, fun m => by cases m <;> rfl, fun _ k _ q => KeptInside.ofField _ _ fun _ _ => k.placeOrder _ q, fun _ => withField_suits fun _ => placeOrder_suits _ _⟩
  case placePair =>
    exact ⟨onlyDispatch, fun _ => rfl, fun m => by cases m <;> rfl, fun _ k _ q => KeptInside.ofField _ _ fun _ _ => k.placePair _ q, fun _ => withField_suits fun _ => placePair_suits _ _⟩
  case amend =>
    exact ⟨onlyDispatch, fun _ => rfl, fun m => by cases m <;> rfl, fun _ k _ q => KeptInside.ofOrder _ _ fun _ => KeptInside.ofField _ _ fun _ _ => k.amendOrder _ _ _ q, fun _ => withOrder_suits fun _ => withField_suits fun _ => amendOrder_suits _ _ _ _⟩
  case retire =>
    exact ⟨onlyDispatch, fun _ => rfl, fun m => by cases m <;> rfl, fun _ k _ q => KeptInside.ofOrder _ _ fun _ => k.retire _ _ q, fun _ => withOrder_suits fun _ => retire_suits _ _ _⟩
  case lookup =>
    exact ⟨onlyDispatch, fun _ => rfl, fun m => by cases m <;> rfl, fun _ k _ q => KeptInside.ofOrder _ _ fun _ => k.order _ _ _ q, fun _ => withOrder_suits fun _ => ok_suits (by decide)⟩
  case listUnit =>
    exact ⟨onlyDispatch, fun _ => rfl, fun m => by cases m <;> rfl, fun _ k _ q => KeptInside.ofField _ _ fun _ _ => q, fun _ => withField_suits fun _ => ok_suits (by decide)⟩
  case listState =>
    exact ⟨onlyDispatch, fun _ => rfl, fun m => by cases m <;> rfl, fun _ k _ q => KeptInside.ofField _ _ fun _ _ => q, fun _ => withField_suits fun _ => ok_suits (by decide)⟩
  case isolate =>
    exact ⟨onlyDispatch, fun _ => rfl, fun m => by cases m <;> rfl, fun _ k _ q => KeptInside.ofField _ _ fun _ _ => k.isolateUnit _ q, fun _ => withField_suits fun _ => isolateUnit_suits _ _⟩
  case restore =>
    exact ⟨onlyDispatch, fun _ => rfl, fun m => by cases m <;> rfl, fun _ k _ q => KeptInside.ofField _ _ fun _ _ => k.restoreUnit _ q, fun _ => withField_suits fun _ => ok_suits (by decide)⟩
  case haltUnit =>
    exact ⟨anyMode, fun _ => rfl, fun m => by cases m <;> rfl, fun _ k _ q => KeptInside.ofField _ _ fun _ _ => k.halt _ q, fun _ => withField_suits fun _ => halt_suits _ _⟩
  case setConverterOut =>
    exact ⟨onlyDispatch, fun _ => rfl, fun m => by cases m <;> rfl, fun _ k _ q => KeptInside.ofField _ _ fun _ _ => k.takeOut _ q, fun _ => withField_suits fun _ => ok_suits (by decide)⟩
  case setConverterIn =>
    exact ⟨onlyDispatch, fun _ => rfl, fun m => by cases m <;> rfl, fun _ k _ q => KeptInside.ofField _ _ fun _ _ => k.takeIn _ q, fun _ => withField_suits fun _ => takeIn_suits _ _⟩
  case converterStatus =>
    exact ⟨anyMode, fun _ => rfl, fun m => by cases m <;> rfl, fun _ k _ q => q, fun _ => ok_suits (by decide)⟩
  case waterwayStatus =>
    exact ⟨anyMode, fun _ => rfl, fun m => by cases m <;> rfl, fun _ k _ q => KeptInside.ofField _ _ fun _ _ => q, fun _ => withField_suits fun _ => ok_suits (by decide)⟩
  case unitStatus =>
    exact ⟨anyMode, fun _ => rfl, fun m => by cases m <;> rfl, fun _ k _ q => KeptInside.ofField _ _ fun _ _ => q, fun _ => withField_suits fun _ => ok_suits (by decide)⟩
  case linkStatus =>
    exact ⟨anyMode, fun _ => rfl, fun m => by cases m <;> rfl, fun _ k _ q => KeptInside.ofField _ _ fun _ _ => k.linkStatus _ q, fun _ => withField_suits fun _ => ok_suits (by decide)⟩
  case relink =>
    exact ⟨anyMode, fun _ => rfl, fun m => by cases m <;> rfl, fun _ k _ q => KeptInside.ofField _ _ fun _ _ => k.relinkUnit _ q, fun _ => withField_suits fun _ => relinkUnit_suits _ _⟩
  case gaugeStatus =>
    exact ⟨anyMode, fun _ => rfl, fun m => by cases m <;> rfl, fun _ k _ q => KeptInside.ofField _ _ fun _ _ => q, fun _ => withField_suits fun _ => ok_suits (by decide)⟩
  case readClock =>
    exact ⟨anyMode, fun _ => rfl, fun m => by cases m <;> rfl, fun _ k _ q => q, fun _ => ok_suits (by decide)⟩
  case setTime =>
    exact ⟨anyMode, fun _ => rfl, fun m => by cases m <;> rfl, fun _ k _ q => k.setPlantTime _ (by have := KeptInside.field_lt body 0 4; simp only [plantTimeMax]; omega) q, fun _ => setPlantTime_suits _ _⟩
  case trimClock =>
    exact ⟨anyMode, fun _ => rfl, fun m => by cases m <;> rfl, fun _ k _ q => k.trimBy _ q, fun _ => trim_suits _ _⟩
  case readEvents =>
    exact ⟨anyMode, fun _ => rfl, fun m => by cases m <;> rfl, fun _ k _ q => q, fun _ => ok_suits (by decide)⟩
  case setEventMask =>
    exact ⟨anyMode, fun _ => rfl, fun m => by cases m <;> rfl, fun _ k _ q => KeptInside.ofField _ _ fun _ _ => k.mask _ _ q, fun _ => withField_suits fun _ => ok_suits (by decide)⟩
  case clearEvents =>
    exact ⟨anyMode, fun _ => rfl, fun m => by cases m <;> rfl, fun _ k _ q => KeptInside.ofField _ _ fun _ _ => k.latches _ _ q, fun _ => withField_suits fun _ => ok_suits (by decide)⟩
  case configureWaterway =>
    exact ⟨onlyConfig, fun _ => rfl, fun m => by cases m <;> rfl, fun _ k _ q => KeptInside.ofField _ _ fun _ h => k.configureWaterway body _ h q, fun _ => withField_suits fun _ => configureWaterway_suits _ _⟩
  case configureGauge =>
    exact ⟨onlyConfig, fun _ => rfl, fun m => by cases m <;> rfl, fun _ k _ q => KeptInside.ofField _ _ fun _ h => k.configureGauge body _ h q, fun _ => withField_suits fun _ => ok_suits (by decide)⟩
  case configureUnit =>
    exact ⟨onlyConfig, fun _ => rfl, fun m => by cases m <;> rfl, fun _ k _ q => KeptInside.ofField _ _ fun _ _ => k.configureUnit _ q, fun _ => withField_suits fun _ => configureUnit_suits _ _⟩
  case configureConverter =>
    exact ⟨onlyConfig, fun _ => rfl, fun m => by cases m <;> rfl, fun _ k _ q => KeptInside.ofField _ _ fun _ h => k.configureConverter body _ h q, fun _ => withField_suits fun _ => ok_suits (by decide)⟩
  case configureSupervision =>
    exact ⟨onlyConfig, fun _ => rfl, fun m => by cases m <;> rfl, fun _ k _ q => KeptInside.ofField _ _ fun _ h => k.supervisionSettings _ body _ h q, fun _ => withField_suits fun _ => ok_suits (by decide)⟩
  case startDispatch =>
    exact ⟨onlyConfig, fun _ => rfl, fun m => by cases m <;> rfl, fun _ k _ q => k.enterDispatch q, fun _ => enterDispatch_suits _⟩
  case stopDispatch =>
    exact ⟨onlyDispatch, fun _ => rfl, fun m => by cases m <;> rfl, fun _ k _ q => k.leaveDispatch q, fun _ => leaveDispatch_suits _⟩
  case identify =>
    exact ⟨anyMode, fun _ => rfl, fun m => by cases m <;> rfl, fun _ k _ q => q, fun _ => ok_suits (by decide)⟩
  case reset =>
    exact ⟨anyMode, fun _ => rfl, fun m => by cases m <;> rfl, fun _ k _ q => k.cleared _ q, fun _ => rfl⟩

/-- A request of a known kind in a mode that admits it and with a body of the right length is delivered as its owner answers;
any other is refused by the port (R174). -/
theorem exec_request {c : Instr} {kind : Nat} {tag : Byte} {body : List Byte} (h : c.asRequest = some (kind, tag, body))
    (s : State) :
    exec c s = .next
      (if kindAdmitted kind s.mode = false then s.answered kind tag (body.length + 5) .wrongMode [] s.taken
      else if body.length ≠ kindLength kind then s.answered kind tag (body.length + 5) .badField [] s.taken
      else s.delivered kind tag (body.length + 5) (ownerOf c (s.frameEnded (requestFrame kind tag body)))) := by
  obtain ⟨modes, he, hm, hk, hs⟩ := served h
  rw [he, request_eq _ (hs _), hm]
  have p := hk _ (kept_port (s.port.atFrame (requestFrame kind tag body)) (List.replicate (body.length + 5) 0) s.pending).inside
    (s.frameEnded (requestFrame kind tag body))
    (by rw [frameEnded_eq, length_requestFrame]; exact ⟨rfl, rfl, by unfold State.taken State.atFrame; dsimp only; split <;> rfl⟩)
  revert p
  cases ownerOf c (s.frameEnded (requestFrame kind tag body)) with
  | refused r => exact id
  | ok t out => exact fun q => ⟨q.1, q.2.1⟩
  | stopping t => exact fun q => ⟨q.1, q.2.1⟩
  | afterReset t => exact fun q => ⟨q.1, q.2.1⟩

/-- A request that the port hands on, as its owner answers it. -/
theorem exec_carried {c : Instr} {kind : Nat} {tag : Byte} {body : List Byte} (h : c.asRequest = some (kind, tag, body))
    {s : State} (hm : kindAdmitted kind s.mode = true) (hl : body.length = kindLength kind) :
    exec c s = .next
      (s.delivered kind tag (body.length + 5) (ownerOf c (s.frameEnded (requestFrame kind tag body)))) := by
  rw [exec_request h, if_neg (by simp [hm]), if_neg (by simp [hl])]

/-- What a request's owner finds: the state before it but for the latches, the port and what was sent. -/
theorem frameEnded_fields (s : State) (bytes : List Byte) : ∃ l p o,
    s.frameEnded bytes = { s with latches := l, linkOut := [], port := p, portOut := o } := by
  unfold State.frameEnded State.discardUnread State.quiet State.raise
  dsimp only
  split <;> exact ⟨_, _, _, rfl⟩

@[simp] theorem frameEnded_order? (s : State) (bytes : List Byte) (h : Handle) : (s.frameEnded bytes).order? h = s.order? h := by
  obtain ⟨l, p, o, e⟩ := frameEnded_fields s bytes; rw [e]; rfl

@[simp] theorem frameEnded_orders (s : State) (bytes : List Byte) : (s.frameEnded bytes).orders = s.orders := by
  obtain ⟨l, p, o, e⟩ := frameEnded_fields s bytes; rw [e]; rfl

@[simp] theorem frameEnded_unit (s : State) (bytes : List Byte) (u : UnitNo) : (s.frameEnded bytes).unit u = s.unit u := by
  obtain ⟨l, p, o, e⟩ := frameEnded_fields s bytes; rw [e]; rfl

@[simp] theorem frameEnded_waterway (s : State) (bytes : List Byte) (w : WaterwayNo) :
    (s.frameEnded bytes).waterway w = s.waterway w := by
  obtain ⟨l, p, o, e⟩ := frameEnded_fields s bytes; rw [e]; rfl

@[simp] theorem frameEnded_converter (s : State) (bytes : List Byte) (c : ConverterNo) :
    (s.frameEnded bytes).converter c = s.converter c := by
  obtain ⟨l, p, o, e⟩ := frameEnded_fields s bytes; rw [e]; rfl

@[simp] theorem frameEnded_gauge (s : State) (bytes : List Byte) (g : GaugeNo) : (s.frameEnded bytes).gauge g = s.gauge g := by
  obtain ⟨l, p, o, e⟩ := frameEnded_fields s bytes; rw [e]; rfl

@[simp] theorem frameEnded_slot (s : State) (bytes : List Byte) (k : SlotNo) : (s.frameEnded bytes).slot k = s.slot k := by
  obtain ⟨l, p, o, e⟩ := frameEnded_fields s bytes; rw [e]; rfl

@[simp] theorem frameEnded_mode (s : State) (bytes : List Byte) : (s.frameEnded bytes).mode = s.mode := by
  obtain ⟨l, p, o, e⟩ := frameEnded_fields s bytes; rw [e]

@[simp] theorem frameEnded_plantTime (s : State) (bytes : List Byte) : (s.frameEnded bytes).plantTime = s.plantTime := by
  obtain ⟨l, p, o, e⟩ := frameEnded_fields s bytes; rw [e]

@[simp] theorem frameEnded_named (s : State) (bytes : List Byte) : (s.frameEnded bytes).named = s.named := by
  obtain ⟨l, p, o, e⟩ := frameEnded_fields s bytes; rw [e]

end Sys2Proof.Machine
end

