-- ==== Sys2Proof/Laws/Ramp.lean ====
section
/-! SUPPORT. What the goal of a ramp step, the removal of a ceiling and the unloading of a waterway can do (R107, R114, R120, R122),
and what a mark leaves of the frames heard on a link (R142). -/

namespace Sys2Proof.Machine

/-- The goal of a step never lies above the target, and not below Pmin where the target does not (R113, R114). -/
theorem rampGoal_spec (s : State) (u : UnitNo) (target : Nat) :
    s.rampGoal u target ≤ target ∧ (s.capTime u (·.pmin) ≤ target → s.capTime u (·.pmin) ≤ s.rampGoal u target) := by
  unfold State.rampGoal effectiveTarget
  cases (s.unit u).ceiling <;> simp

/-- Removing a ceiling changes nothing but that ceiling, and on the unit of an unloading order nothing at all (R120, R122). -/
theorem removeCeiling_eq (s : State) (u : UnitNo) :
    s.removeCeiling u = s ∧ s.isUnloading u = true ∨
      s.removeCeiling u = s.setUnit u { s.unit u with ceiling := none } ∧ s.isUnloading u = false := by
  unfold State.removeCeiling
  cases h : s.isUnloading u
  · exact .inr ⟨rfl, rfl⟩
  · exact .inl ⟨rfl, rfl⟩

/-! ## Free orders -/

/-- A pick is one of the things, and changes the counter of picks alone (log entry 3). -/
theorem pick_spec (s : State) {n : Nat} (h : 0 < n) : (s.pick n).1 < n ∧ (s.pick n).2 = { s with picks := (s.pick n).2.picks } := by
  unfold State.pick
  split
  · exact ⟨h, rfl⟩
  · exact ⟨Nat.mod_lt _ h, rfl⟩

theorem drawAll_spec {α : Type} (n : Nat) (xs : List α) (s : State) (e : xs.length = n) :
    (drawAll n xs s).1.Perm xs ∧ (drawAll n xs s).2 = { s with picks := (drawAll n xs s).2.picks } := by
  induction n generalizing xs s with
  | zero => exact ⟨by rw [List.eq_nil_of_length_eq_zero e]; exact .nil, rfl⟩
  | succ n ih =>
    obtain ⟨hk, hs⟩ := pick_spec s (n := xs.length) (by omega)
    obtain ⟨hp, ht⟩ := ih (xs.eraseIdx (s.pick xs.length).1) (s.pick xs.length).2 (by rw [List.length_eraseIdx]; simp [hk]; omega)
    unfold drawAll
    simp only [List.getElem?_eq_getElem hk]
    exact ⟨(hp.cons _).trans (List.getElem_cons_eraseIdx_perm hk), by rw [ht, hs]⟩

/-- A free order has the things of the list, each once, and changes the counter of picks alone (log entry 3). -/
theorem inFreeOrder_spec {α : Type} (s : State) (xs : List α) :
    (s.inFreeOrder xs).1.Perm xs ∧ (s.inFreeOrder xs).2 = { s with picks := (s.inFreeOrder xs).2.picks } :=
  drawAll_spec _ xs s rfl

/-- Unloading is a step for each unit of the waterway whose order is unloading, once and in some order (R107, R122, log entry 50). -/
theorem unload_spec (s : State) (w : WaterwayNo) :
    ∃ (us : List UnitNo) (n : Nat), us.Perm ((s.unitsOf w).filter s.isUnloading) ∧
      s.unload w = us.foldl State.unloadUnit { s with picks := n } :=
  ⟨_, _, (inFreeOrder_spec s _).1, congrArg (List.foldl State.unloadUnit · _) (inFreeOrder_spec s _).2⟩

@[simp] theorem count_heardBefore (l : Link) : l.count.heardBefore = l.heard := rfl
@[simp] theorem count_heard (l : Link) : l.count.heard = false := rfl

end Sys2Proof.Machine
end

