-- ==== Sys2Proof/Laws/Table.lean ====
section
/-! SUPPORT. The Order Table as its operations see it: what a handle names after each of them (R2, R9, R13). -/

namespace Sys2Proof.Machine

/-! ## Handles -/

theorem slotOf_val (h : Nat) : (slotOf h : Nat) = h % 64 := rfl

/-- Two handles of the same slot and generation are one handle (R2). -/
theorem handle_ext {h k : Nat} (hs : slotOf h = slotOf k) (hg : h / 64 = k / 64) : h = k := by
  have := congrArg Fin.val hs
  simp only [slotOf_val] at this
  omega

/-- The record of an occupied slot is the one that its handle names. -/
theorem order?_handleOf (s : State) (k : SlotNo) : s.order? (handleOf k (s.slot k).generation) = (s.slot k).order := by
  have hs : slotOf (handleOf k (s.slot k).generation) = k := by
    apply Fin.ext; simp only [slotOf_val, handleOf]; omega
  unfold State.order?
  rw [hs, if_pos]
  simp only [handleOf]; omega

/-- The list of records holds each record under the handle that names it. -/
theorem mem_orders {s : State} {h : Nat} {r : Order} : (h, r) ∈ s.orders ↔ s.order? h = some r := by
  unfold State.orders State.order?
  simp only [List.mem_filterMap, Option.map_eq_some_iff, Prod.mk.injEq, Prod.exists]
  constructor
  · rintro ⟨x, i, hm, r', hr, rfl, rfl⟩
    obtain ⟨hi, e⟩ := List.mem_zipIdx' hm
    simp only [Vector.length_toList] at hi
    have hs : slotOf (x.generation * 64 + i) = ⟨i, hi⟩ := by
      apply Fin.ext; simp only [slotOf_val]; omega
    have hx : s.slot ⟨i, hi⟩ = x := by rw [e]; simp [State.slot]
    rw [hs, hx, if_pos (by omega)]
    exact hr
  · intro hr
    split at hr
    · rename_i g
      have g : (s.slot (slotOf h)).generation = (h : Nat) / (64 : Nat) := g
      refine ⟨s.slot (slotOf h), h % 64, ?_, r, hr, ?_, rfl⟩
      · rw [List.mk_mem_zipIdx_iff_getElem?]
        have : h % 64 < s.slots.toList.length := by simp; omega
        rw [List.getElem?_eq_getElem this]
        simp [State.slot, slotOf]
      · exact (by rw [g]; omega : (s.slot (slotOf h)).generation * (64 : Nat) + h % (64 : Nat) = h)
    · cases hr

/-! ## What a handle names after a change of the table -/

@[simp] theorem order?_modOrder (s : State) (h k : Handle) (f : Order → Order) :
    (s.modOrder h f).order? k = if k = h then (s.order? h).map f else s.order? k := by
  unfold State.modOrder
  cases e : s.order? h with
  | none => simp only [Option.map_none]; split <;> simp_all
  | some r =>
    have g : (s.slot (slotOf h)).generation = h / 64 := by
      unfold State.order? at e; split at e <;> simp_all
    simp only [State.order?, slot_setSlot, Option.map_some]
    by_cases hk : k = h
    · subst hk; simp [g]
    · rw [if_neg hk]
      by_cases hs : slotOf h = slotOf k
      · have hg : h / 64 ≠ k / 64 := fun q => hk (handle_ext hs q).symm
        rw [if_pos hs, ← hs]; simp [g, hg]
      · rw [if_neg hs]

@[simp] theorem order?_unlinkTo (s : State) (h k : Handle) :
    (s.unlinkTo h).order? k =
      (s.order? k).map fun r => if r.successor = some h then { r with successor := none } else r := by
  simp only [State.order?, State.unlinkTo, State.slot, Fin.getElem_fin, getElem_mapVector]
  split <;> simp_all

@[simp] theorem order?_note (s : State) (h k : Handle) (e : EventKind) :
    (s.note h e).order? k =
      if k = h ∧ h ∉ s.named then (s.order? h).map fun r => { r with unseen := true } else s.order? k := by
  unfold State.note
  by_cases hn : h ∈ s.named <;> simp [hn]

/-- The engaged order of a unit is a record of it that is engaged. -/
theorem engagedOrder_some {s : State} {u : UnitNo} {h : Handle} {r : Order} (e : s.engagedOrder u = some (h, r)) :
    s.order? h = some r ∧ r.unit = u ∧ r.life.engaged = true := by
  have hm := List.mem_of_find?_eq_some e
  have hp := List.find?_some e
  simp at hp
  exact ⟨mem_orders.1 hm, hp.1, hp.2⟩

/-- An order is exempt from the lateness test exactly while some order in STARTING or RUNNING names it (R67). -/
theorem exemptFromLateness_iff {s : State} {h : Handle} :
    s.exemptFromLateness h = true ↔
      ∃ k q, s.order? k = some q ∧ q.successor = some h ∧ (q.life.isStarting = true ∨ q.life = .running) := by
  simp [State.exemptFromLateness, State.predecessors, mem_orders]

/-- What writing the links does to any record: the earlier neighbour names the record, the record names the later neighbour, and
no other record names the later neighbour any more (R13, log entry 54). -/
theorem order?_writeLinks (s : State) (h k : Handle) (before after : Option Handle) :
    (s.writeLinks h before after).order? k = (s.order? k).map fun r =>
      { r with
        successor :=
          if after.isSome ∧ k = h then after
          else if after.isSome ∧ (if before = some k then some h else r.successor) = after then none
          else if before = some k then some h else r.successor } := by
  unfold State.writeLinks
  cases before with
  | none =>
    cases after with
    | none => simp
    | some b => by_cases hk : k = h <;> cases e : s.order? k <;> simp_all <;> split <;> simp_all
  | some a =>
    by_cases ha : a = k
    · subst ha
      cases after with
      | none => simp
      | some b => by_cases hk : a = h <;> cases e : s.order? a <;> simp_all <;> split <;> simp_all
    · cases after with
      | none => simp [ha, Ne.symm ha]
      | some b =>
        by_cases hk : k = h
        · subst hk; cases e : s.order? k <;> simp [e, Ne.symm ha]; split <;> simp_all
        · cases e : s.order? k <;> simp [e, hk, ha, Ne.symm ha]; split <;> simp_all

/-- After a link to the later neighbour is written, only the record that was linked names it: one order at most names a given one
(R13, log entry 54). -/
theorem writeLinks_names_once {s : State} {h k b : Handle} {before : Option Handle} {q : Order}
    (e : (s.writeLinks h before (some b)).order? k = some q) (n : q.successor = some b) : k = h := by
  rw [order?_writeLinks] at e
  obtain ⟨r, -, rfl⟩ := Option.map_eq_some_iff.1 e
  by_cases hk : k = h
  · exact hk
  · simp only [hk] at n
    split at n <;> simp_all

end Sys2Proof.Machine
end

