-- ==== Sys2Proof/Tests/Slice0.lean ====
section
/-! SUPPORT. Tests: ill-formed commands, the worked figures of the spec, and for each statement with hypotheses a witness that they
are met, clause by clause. -/

namespace Sys2Proof.Tests

open Sys2Proof.Machine

-- One test after another: many evaluations at once would ask for more threads than the check's memory bound allows.
set_option Elab.async false

/-! ## Small states -/

/-- The tables of the worked figures of Chapter 2. -/
def cap : Capability where
  modes := 15
  href := 40000
  pmin := 800
  pmax := 3400
  genStart := 120
  pumpStart := 180
  genStop := 240
  pumpStop := 300
  dwell := 120
  powers := #v[800, 1200, 1800, 2400, 2800, 3000, 3200, 3400]
  flows := #v[300, 420, 610, 800, 930, 1000, 1070, 1140]
  pump := some
    { head := #v[36000, 38000, 40000, 42000, 44000, 45000, 46000, 47000]
      flow := #v[900, 860, 820, 780, 730, 700, 670, 640]
      power := #v[3000, 3020, 3040, 3060, 3080, 3090, 3100, 3110] }

/-- A link that is UP with that record. -/
def up : Link :=
  { Link.reset with
    state := .up
    current := some cap
    burstTimer := some 10
    lastReport := some ⟨.standstill, 0, .remote⟩
    sinceUp := true }

/-- A unit of waterway 0 in this context, its link UP. -/
def inContext (c : Context) : UnitBlock := { UnitBlock.reset 0 with context := c, link := up }

/-- DISPATCH at plant time 100, unit 0 in this context, waterway 0 without inhibits and its gate SPACING. -/
def live (c : Context) : State :=
  ({ State.reset with mode := .dispatch, plantTime := 100 }.setUnit 0 (inContext c)).setWaterway 0
    { Waterway.reset 0 1 with pumpInhibit := false, genInhibit := false, spacing := some 30 }

/-- A single order of unit 0, from 100 to 500. -/
def order (m : Mode) (l : Life) : Order where
  unit := 0
  mode := m
  cls := .firm
  start := 100
  finish := some 500
  target := if m = .generate then 2600 else 0
  ramp := if m = .generate then 50 else 0
  tolerance := none
  life := l
  partner := none
  pairSense := none
  successor := none
  plannedFlow := 0
  actualStart := none
  attempts := 0
  retirePending := false
  derated := false
  curtailed := false
  unseen := false
  awaited := none

/-- The state with this record in slot 5 under generation 2: its handle is 133 (R2). -/
def holds (r : Order) (s : State) : State := s.setSlot 5 { generation := 2, order := some r }

/-- The state with this work due. -/
def withDue (e : DueEvent) (s : State) : State := { s with due := [e] }

/-- What holds of the records in the table holds of every record that a handle names. -/
theorem ofOrders {s : State} {P : Handle → Order → Prop} (h : ∀ p ∈ s.orders, P p.1 p.2) (k : Handle) (q : Order)
    (e : s.order? k = some q) : P k q := h (k, q) (mem_orders.2 e)

/-- A PLACE body for unit 0, with these codes of mode and class, presence bits, start, end, target and ramp. -/
def placeBody (mode cls presence start finish target ramp : Nat) : List Byte :=
  [0] ++ beBytes 1 mode ++ beBytes 1 cls ++ beBytes 1 presence ++ beBytes 4 start ++ beBytes 4 finish ++ beBytes 2 0 ++
    beBytes 2 target ++ beBytes 2 ramp

/-! ## Ill-formed commands, one for each check of `Instr.wf` -/

theorem test_wf_handle : (Instr.startArrival 63).wf = false ∧ (Instr.endArrival 65536).wf = false ∧
    (Instr.latenessArrival 64).wf = true := by decide

theorem test_wf_page_field : (Instr.pageReport 0 ⟨0, 1, .figures ⟨256, 1, 40000, 1, 1, 1, 1, 1, 1, 1⟩⟩).wf = false ∧
    (Instr.pageReport 0 ⟨0, 1, .figures ⟨0, 1, 40000, 65536, 1, 1, 1, 1, 1, 1⟩⟩).wf = false ∧
    (Instr.pageReport 0 ⟨0, 1, .genLow #v[⟨65536, 0⟩, ⟨0, 0⟩, ⟨0, 0⟩, ⟨0, 0⟩]⟩).wf = false ∧
    (Instr.pageReport 0 ⟨0, 1, .pumpHigh #v[⟨4294967296, 0, 0⟩, ⟨0, 0, 0⟩, ⟨0, 0, 0⟩, ⟨0, 0, 0⟩]⟩).wf = false := by decide

theorem test_wf_power : (Instr.stateReport 0 ⟨.generating, 32768, .remote⟩).wf = false ∧
    (Instr.stateReport 0 ⟨.generating, -32769, .remote⟩).wf = false := by decide

theorem test_wf_telegram_not_ended : (Instr.gaugeTelegram 0 []).wf = false ∧ (Instr.gaugeTelegram 0 [2, 9]).wf = false ∧
    (Instr.gaugeTelegram 0 [2, 9, 9]).wf = true ∧ (Instr.gaugeTelegram 0 [2, 9, 9, 9]).wf = false := by decide

theorem test_wf_body_too_long : (Instr.place 7 (List.replicate 241 0)).wf = false := by decide +kernel

theorem test_wf_direction : (Instr.setConverterOut 7 [0, 1]).wf = false ∧ (Instr.setConverterIn 7 [0, 0]).wf = false := by decide

theorem test_wf_bad_frame : (Instr.badFrame [0, 1, 2]).wf = false ∧ (Instr.badFrame (requestFrame 18 7 [])).wf = false := by
  decide +kernel

theorem test_wf_unknown_kind : (Instr.unknownRequest 32 7 []).wf = false ∧ (Instr.unknownRequest 33 7 []).wf = true := by decide

/-! ## Worked figures of the spec -/

/-- Chapter 2, Example 1. -/
theorem test_generating_flow : cap.refFlow 1450 = 500 ∧ cap.genFlow 1450 38250 = 523 ∧ cap.genFlow 1500 38250 = 539 ∧
    cap.clampPower (-15) = 800 ∧ cap.genFlow 800 38250 = 314 ∧ cap.genFlow 1450 38300 = 523 := by decide +kernel

/-- Chapter 2, Example 2. -/
theorem test_pump_flow_and_power : (cap.pump.map fun t => [t.pumpFlow 38250, t.pumpFlow 38300, t.pumpFlow 38310, t.pumpFlow 48000,
    t.pumpFlow 35000, t.pumpPower 38250, t.pumpPower 38300, t.pumpPower 48000, t.pumpPower 35000]) =
    some [855, 854, 854, 640, 900, 3023, 3023, 3110, 3000] := by decide +kernel

/-- Chapter 2, Example 6: head low, and a flow that saturates. -/
theorem test_saturation : cap.genFlow 3400 500 = 9999 ∧ cap.genSaturates 3400 500 = true ∧ cap.genFlow 3400 20550 = 2219 := by
  decide +kernel

/-- R24: the ceiling of −5.5 is −5. -/
theorem test_ceiling : ceilDiv (-11) 2 = -5 ∧ ceilDiv 11 2 = 6 ∧ ceilDiv (-40 * 310) 2000 = -6 := by decide

/-- Chapter 1, Example 1: the handles of slots 5 and 63. -/
theorem test_handles : handleOf 5 1 = 69 ∧ handleOf 5 2 = 133 ∧ handleOf 63 1023 = 65535 ∧ nextGeneration 1023 = 1 ∧
    handleOf 63 1 = 127 ∧ slotOf 133 = 5 := by decide

/-- Chapter 1, Example 1: a RETIRE of a DONE record frees slot 5, which then stands at the next generation. -/
theorem test_retire_frees_slot : ∀ t, exec (.retire 7 [0, 133]) (holds (order .pump (.done .windowEnd 500)) (live .idle)) =
    .next t → t.slot 5 = { generation := 3, order := none } := by
  intro t e; cases e; decide +kernel

/-- Chapter 10, Example 2: a LOOKUP after a response left unread reports the overrun, and PORT_OVERRUN is latched. -/
theorem test_overrun_reported : ∀ t, exec (.lookup 19 [0, 70])
      { live .idle with port := { State.reset.port with response := [9], unread := true }, mask := 512 } = .next t →
    t.port.response.take 5 = [6, 5, 19, 6, 7] ∧ t.latched .portOverrun = true ∧ t.port.overrun = false := by
  intro t e; cases e; decide +kernel

/-- Chapter 10, Example 3: a PLACE in CONFIG is answered WRONG_MODE, and a frame with a damaged CRC BAD_FRAME. -/
theorem test_place_in_config : ∀ t, exec (.place 21 (placeBody 0 0 13 200 500 2600 50)) State.reset = .next t →
    t.port.response.take 5 = [6, 1, 21, 5, 0] := by
  intro t e; cases e; decide +kernel

/-- PRESUMED, from outside the spec: the check value usually given for this CRC-16, of the bytes "123456789". -/
theorem test_crc : crc16 [49, 50, 51, 52, 53, 54, 55, 56, 57] = 0x29B1 := by decide +kernel

/-- Table 12-1: READ_CLOCK with tag 7 is the four counted bytes 18, 7 and the CRC. -/
theorem test_frame_layout : (requestFrame 18 7 []).take 3 = [4, 18, 7] ∧ (requestFrame 18 7 []).length = 5 ∧
    selectPeriod (requestFrame 18 7 []) = some (.readClock 7 []) ∧ selectPeriod [0, 0, 0] = some (.readPeriod 2) ∧
    selectPeriod [4, 18, 7, 0, 0] = some (.badFrame [4, 18, 7, 0, 0]) := by decide +kernel

/-- Table 12-4: a STATE frame of unit 3, GENERATING at −1.5 MW, REMOTE. -/
theorem test_state_frame : linkFrame 3 (withCrc [7, 66, 2, 255, 241, 0]) = .stateReport 3 ⟨.generating, -15, .remote⟩ ∧
    linkFrame 3 (withCrc [7, 66, 10, 255, 241, 0]) = .linkFrameBad 3 := by decide +kernel

/-- The straps of power-on: with all eight present, the state is the reset state of the model (log entry 5). -/
theorem test_power_on : ∀ t, exec (.powerOn 255) State.reset = .next t → t = State.reset := by
  intro t e; cases e; decide +kernel

/-! ## Witnesses: the hypotheses of each statement are met, clause by clause -/

theorem witness_StepTakesFrontCommand :
    (∃ (c : Instr) (rest : List Instr) (s : State), s.pending = c :: rest) ∧ ∃ s : State, s.pending = [] :=
  ⟨⟨.secondMark, [.helloInterval 7], { State.reset with pending := [.secondMark, .helloInterval 7] }, rfl⟩, State.reset, rfl⟩

theorem witness_RequestsAnswered :
    ∃ (c : Instr) (kind : Nat) (tag : Byte) (body : List Byte), c.asRequest = some (kind, tag, body) :=
  ⟨.reset 7 [], 32, 7, [], rfl⟩

theorem witness_ModeAndLengthJudged :
    (∃ (c : Instr) (s : State) (kind : Nat) (tag : Byte) (body : List Byte),
      c.asRequest = some (kind, tag, body) ∧ kindAdmitted kind s.mode = false) ∧
    (∃ (c : Instr) (s : State) (kind : Nat) (tag : Byte) (body : List Byte),
      c.asRequest = some (kind, tag, body) ∧ kindAdmitted kind s.mode = true ∧ body.length ≠ kindLength kind) ∧
    ∃ (c : Instr) (s : State) (kind : Nat) (tag : Byte) (body : List Byte),
      c.asRequest = some (kind, tag, body) ∧ kindAdmitted kind s.mode = true ∧ body.length = kindLength kind :=
  ⟨⟨.place 7 [], State.reset, 1, 7, [], rfl, rfl⟩, ⟨.reset 7 [0], State.reset, 32, 7, [0], rfl, rfl, by decide⟩,
    .reset 7 [], State.reset, 32, 7, [], rfl, rfl, rfl⟩

theorem witness_DamagedAndUnknownFrames :
    (∃ (b : Byte) (rest : List Byte), b ≠ 0 ∧
      ¬ (4 ≤ b.toNat ∧ b.toNat ≤ 244 ∧ rest.length = b.toNat ∧ crcRight (b :: rest) = true)) ∧
    ∃ (kind : Byte) (body : List Byte), body.length ≤ 240 ∧ ¬ (1 ≤ kind.toNat ∧ kind.toNat ≤ 32) :=
  ⟨⟨245, [], by decide, by decide⟩, 33, [], by decide, by decide⟩

theorem witness_RequestFramesDecode :
    (∃ (c : Instr) (kind : Nat) (tag : Byte) (body : List Byte), c.asRequest = some (kind, tag, body) ∧ c.wf = true) ∧
    (∀ f ∈ ([[2, 9, 9], [0]] : List (List Byte)), f.length = (byteAt f 0).toNat + 1) ∧
    ∀ rest ∈ ([[], [2, 9]] : List (List Byte)), rest.length ≤ (byteAt rest 0).toNat :=
  ⟨⟨.setConverterIn 7 [1, 1], 11, 7, [1, 1], rfl, by decide⟩, by decide, by decide⟩

theorem witness_ReadPeriodSendsResponse :
    (∃ (n : Nat) (s : State), s.port.response ≠ [] ∧ s.port.response.length ≤ n) ∧
    ∃ (n : Nat) (s : State), n < s.port.response.length :=
  let s := { State.reset with port := { State.reset.port with response := [6, 32], unread := true } }
  ⟨⟨2, s, by decide, by decide⟩, 1, s, by decide⟩

theorem witness_SecondMarkAdvancesPlantTime :
    (∃ s : State, 0 < s.pendingTrim) ∧ (∃ s : State, s.pendingTrim = 0 ∧ s.plantTime < plantTimeMax) ∧
    ∃ s : State, s.pendingTrim = 0 ∧ plantTimeMax ≤ s.plantTime :=
  ⟨⟨{ State.reset with pendingTrim := 1 }, by decide⟩,
    ⟨{ State.reset with plantTime := plantTimeMax - 1 }, rfl, by decide⟩,
    { State.reset with plantTime := plantTimeMax }, rfl, by decide⟩

theorem witness_TimersCountMarks : State.reset.due = [] := rfl

theorem witness_SetTimeTaken :
    (∃ (s : State) (body : List Byte) (v : Nat) (h : Handle) (r : Order), body.length = 4 ∧ v = field body 0 4 ∧
      s.order? h = some r ∧ (r.life = .due ∨ r.life.engaged = true)) ∧
    ∃ (s : State) (body : List Byte) (v : Nat), body.length = 4 ∧ v = field body 0 4 ∧
      (∀ h r, s.order? h = some r → r.life ≠ .due ∧ r.life.engaged = false) ∧ s.mode = .dispatch ∧
      ∀ h r, s.order? h = some r → r.life = .held →
        v < r.start ∧ (∀ e, r.finish = some e → v < e) ∧ ∀ d, r.tolerance = some d → v < r.start + d :=
  let held := holds (order .condenseG .held) (live .idle)
  ⟨⟨holds (order .condenseG .due) (live .idle), [0, 0, 0, 1], 1, 133, order .condenseG .due, rfl, by decide, by decide +kernel,
      .inl rfl⟩,
    held, [0, 0, 0, 99], 99, rfl, by decide, ofOrders (by decide +kernel), rfl, ofOrders (fun p m => by
      rw [show held.orders = [(133, order .condenseG .held)] by decide +kernel] at m
      simp at m
      subst m
      simp [order])⟩

theorem witness_TrimClockTaken : ∀ p ∈ ([(253, -3), (254, -2), (0, 0), (1, 1), (2, 2), (3, 3)] : List (Byte × Int)),
    State.reset.plantTime ≤ plantTimeMax ∧ [p.1].length = 1 ∧ p.2 = (byteAt [p.1] 0).toInt := by decide

theorem witness_EventRequestsTaken : [4, 0].length = 2 ∧ 1024 ≤ field [4, 0] 0 2 ∧ field [3, 255] 0 2 < 1024 := by decide

theorem witness_StatusRequestsReport :
    byteAt [1] 0 = BitVec.ofNat 8 (1 : WaterwayNo) ∧ byteAt [7] 0 = BitVec.ofNat 8 (7 : UnitNo) ∧
      byteAt [3] 0 = BitVec.ofNat 8 (3 : GaugeNo) ∧ 2 ≤ (byteAt [2] 0).toNat ∧ 8 ≤ (byteAt [8] 0).toNat ∧
      4 ≤ (byteAt [4] 0).toNat := by decide

/-- A CONFIGURE_WATERWAY body: waterway 0, H_adm 400 m, both limits as given, allowance 50, spacing 60, gauges 0 and 1. -/
def waterwayBody (limit : Nat) : List Byte :=
  [0] ++ beBytes 4 40000 ++ beBytes 2 limit ++ beBytes 2 limit ++ beBytes 2 50 ++ beBytes 2 60 ++ [0, 1]

/-- A state in CONFIG whose table holds one order of planned flow 900. -/
def planned : State := { holds { order .generate .held with plannedFlow := 900 } (live .idle) with mode := .config }

theorem witness_WaterwayConfigured :
    (∃ (s : State) (body : List Byte) (w : WaterwayNo) (x : WaterwaySettings), s.mode = .config ∧ body.length = 15 ∧
      waterwaySettingsOf body = some (w, x) ∧ x.qgLim ≠ (s.waterway w).qgLim ∧
      ∃ i : Nat, s.plan w i < -(x.qpLim : Int) ∨ (x.qgLim : Int) < s.plan w i) ∧
    (∃ (s : State) (body : List Byte) (w : WaterwayNo) (x : WaterwaySettings), s.mode = .config ∧ body.length = 15 ∧
      waterwaySettingsOf body = some (w, x) ∧ x.qgLim = (s.waterway w).qgLim ∧ x.qpLim = (s.waterway w).qpLim) ∧
    ∃ (s : State) (body : List Byte) (w : WaterwayNo) (x : WaterwaySettings), s.mode = .config ∧ body.length = 15 ∧
      waterwaySettingsOf body = some (w, x) ∧ x.qgLim ≠ (s.waterway w).qgLim ∧
      ∀ i : Nat, -(x.qpLim : Int) ≤ s.plan w i ∧ s.plan w i ≤ (x.qgLim : Int) :=
  ⟨⟨planned, waterwayBody 899, 0, ⟨40000, 899, 899, 50, 60, 0, 1⟩, rfl, by decide, by decide +kernel, by decide, 100,
      .inr (by decide +kernel)⟩,
    ⟨planned, waterwayBody 1000, 0, ⟨40000, 1000, 1000, 50, 60, 0, 1⟩, rfl, by decide, by decide +kernel, rfl, rfl⟩,
    State.reset, waterwayBody 1, 0, ⟨40000, 1, 1, 50, 60, 0, 1⟩, rfl, by decide, by decide +kernel, by decide, fun i => by
      rw [State.plan, show State.reset.planOrders 0 [] = [] by decide +kernel, show planAt [] i = 0 from rfl]; decide⟩

theorem witness_GaugeConfigured :
    ∃ (s : State) (body : List Byte) (g : GaugeNo) (x : GaugeSettings) (v : Nat), s.mode = .config ∧ body.length = 15 ∧
      gaugeSettingsOf body = some (g, x) ∧ (s.gauge g).level = some v ∧ x.highLimit ≠ (s.gauge g).highLimit ∧
      x.highLimit ≤ v ∧ x.lowLimit + x.hysteresis ≤ v ∧ x.lowLimit < v :=
  ⟨State.reset.setGauge 3 { Gauge.reset with level := some 62000 },
    [3] ++ beBytes 4 62000 ++ beBytes 4 55000 ++ beBytes 2 20 ++ beBytes 2 50 ++ beBytes 2 5, 3, ⟨62000, 55000, 20, 50, 5⟩,
    62000, rfl, by decide, by decide +kernel, rfl, by decide, by decide, by decide, by decide⟩

theorem witness_UnitConfigured :
    (∃ (s : State) (body : List Byte) (u : UnitNo) (w : WaterwayNo) (e : BitVec 2), s.mode = .config ∧ body.length = 3 ∧
      unitSettingsOf body = some (u, w, e) ∧ w = (s.unit u).waterway) ∧
    (∃ (s : State) (body : List Byte) (u : UnitNo) (w : WaterwayNo) (e : BitVec 2), s.mode = .config ∧ body.length = 3 ∧
      unitSettingsOf body = some (u, w, e) ∧ w ≠ (s.unit u).waterway ∧
      ∃ h r, s.order? h = some r ∧ r.unit = u ∧ r.life.live = true ∧ r.partner.isSome = true) ∧
    ∃ (s : State) (body : List Byte) (u : UnitNo) (w : WaterwayNo) (e : BitVec 2), s.mode = .config ∧ body.length = 3 ∧
      unitSettingsOf body = some (u, w, e) ∧ w ≠ (s.unit u).waterway ∧
      (∀ h r, s.order? h = some r → r.unit = u → r.life.live = true → r.partner = none) ∧
      ∀ (v : WaterwayNo) (i : Nat),
        -((s.waterway v).qpLim : Int) ≤ (s.setUnit u { s.unit u with waterway := w, eligible := e }).plan v i ∧
          (s.setUnit u { s.unit u with waterway := w, eligible := e }).plan v i ≤ ((s.waterway v).qgLim : Int) :=
  ⟨⟨State.reset, [7, 1, 3], 7, 1, 3, rfl, rfl, by decide, by decide⟩,
    ⟨{ holds { order .pump .held with partner := some 134 } (live .idle) with mode := .config }, [0, 1, 2], 0, 1, 2, rfl, rfl,
      by decide, by decide, 133, { order .pump .held with partner := some 134 }, by decide +kernel, rfl, rfl, rfl⟩,
    State.reset, [0, 1, 0], 0, 1, 0, rfl, rfl, by decide, by decide, ofOrders (by decide +kernel), fun v i => by
      rw [State.plan]
      match v with
      | 0 =>
        rw [show State.planOrders (State.reset.setUnit 0 { State.reset.unit 0 with waterway := 1, eligible := 0 }) 0 [] = []
          by decide +kernel, show planAt [] i = 0 from rfl]
        decide
      | 1 =>
        rw [show State.planOrders (State.reset.setUnit 0 { State.reset.unit 0 with waterway := 1, eligible := 0 }) 1 [] = []
          by decide +kernel, show planAt [] i = 0 from rfl]
        decide⟩

theorem witness_ConverterAndSupervisionConfigured :
    converterSettingsOf [1, 0, 30, 0, 0, 1] = some (1, 30, 0, true) ∧
      supervisionOf [3, 132, 0, 0, 0, 1, 0, 30, 255, 0, 60] = some ⟨900, 0, 1, 30, 255, 60⟩ := by decide +kernel

theorem witness_SettingsOutOfRangeRefused :
    State.reset.mode = .config ∧ (waterwayBody 10000).length = 15 ∧ field (waterwayBody 10000) 5 2 = 10000 ∧
      (byteAt [8, 0, 0] 0).toNat = 8 ∧ field [0, 0, 29, 0, 0, 0] 1 2 = 29 ∧
      field [3, 133, 0, 0, 0, 1, 0, 1, 1, 0, 1] 0 2 = 901 := by decide +kernel

/-- No unit has its strap, so that no waterway is used and START_DISPATCH has nothing to refuse. -/
def strapless : State := State.reset.poweredOn 0

theorem witness_DispatchStarted :
    (∃ (s : State) (u : UnitNo), s.mode = .config ∧ (s.unit u).present = true ∧
      (s.waterway (s.unit u).waterway).configured = false) ∧
    ∃ s : State, s.mode = .config ∧ (∀ u, (s.unit u).present = false) ∧ ∀ h r, s.order? h = some r → r.life ≠ .held :=
  ⟨⟨State.reset, 0, rfl, rfl, rfl⟩, strapless, rfl, by decide +kernel, ofOrders (by decide +kernel)⟩

theorem witness_DispatchStopped :
    (∃ (s : State) (h : Handle) (r : Order), s.mode = .dispatch ∧ s.order? h = some r ∧ r.life = .due) ∧
    (∃ (s : State) (c : ConverterNo) (h : Handle) (u : UnitNo) (n : Nat), s.mode = .dispatch ∧
      (s.converter c).state = .running h u n) ∧
    ∃ s : State, s.mode = .dispatch ∧ (∀ h r, s.order? h = some r → r.life ≠ .due ∧ r.life.engaged = false) ∧
      ∀ c h u n, (s.converter c).state ≠ .running h u n :=
  ⟨⟨holds (order .pump .due) (live .idle), 133, order .pump .due, rfl, by decide +kernel, rfl⟩,
    ⟨(live .idle).setConverter 1 { Converter.reset with state := .running 133 0 300 }, 1, 133, 0, 300, rfl, rfl⟩,
    live .idle, rfl, ofOrders (by decide +kernel), fun c h u n => by
      match c with
      | 0 => exact fun e => by cases e
      | 1 => exact fun e => by cases e⟩

theorem witness_PowerOnLatchesStraps : ∀ c, (State.reset.converter c).faultLine = false := by decide +kernel

theorem witness_RecordLookedUp :
    (live .idle).mode = .dispatch ∧ [0, 133].length = 2 ∧ field [0, 133] 0 2 = 133 ∧ (live .idle).order? 133 = none ∧
      (holds (order .generate .running) (live .engaged)).order? 133 = some (order .generate .running) := by decide +kernel

theorem witness_RecordsListed :
    (live .idle).mode = .dispatch ∧ 8 ≤ (byteAt [8] 0).toNat ∧ byteAt [7] 0 = BitVec.ofNat 8 (7 : UnitNo) ∧
      128 ≤ (byteAt [128, 0] 0).toNat ∧ 2 ≤ (byteAt [0, 2] 1).toNat ∧
      (byteAt [127, 1] 0).toNat < 128 ∧ (byteAt [127, 1] 1).toNat < 2 := by decide

/-- A setpoint above Pmin at unit 0. -/
def atPower (p : Nat) (s : State) : State := s.setUnit 0 { s.unit 0 with setpoint := some p }

theorem witness_RetireTaken :
    (∃ (s : State) (body : List Byte) (h : Handle) (r : Order), s.mode = .dispatch ∧ body.length = 2 ∧ h = field body 0 2 ∧
      s.order? h = some r ∧ r.partner = none ∧ r.life.engaged = false) ∧
    (∃ (s : State) (body : List Byte) (h : Handle) (r : Order), s.mode = .dispatch ∧ body.length = 2 ∧ h = field body 0 2 ∧
      s.order? h = some r ∧ r.partner = none ∧ r.life = .starting .awaitingGate ∧ r.mode ≠ .pump ∧ r.successor = none ∧
      ∀ k q, s.order? k = some q → q.unit = r.unit → q.life ≠ .due) ∧
    (∃ (s : State) (body : List Byte) (h : Handle) (r : Order) (p : StopPhase) (c : DoneCause), s.mode = .dispatch ∧
      body.length = 2 ∧ h = field body 0 2 ∧ s.order? h = some r ∧ r.partner = none ∧ r.successor = none ∧
      r.life = .stopping p c) ∧
    (∃ (s : State) (body : List Byte) (h : Handle) (r : Order) (p : Nat) (c : Capability), s.mode = .dispatch ∧
      body.length = 2 ∧ h = field body 0 2 ∧ s.order? h = some r ∧ r.partner = none ∧ r.successor = none ∧ r.life = .running ∧
      (s.waterway (s.unit r.unit).waterway).spacing.isSome = true ∧ r.mode = .generate ∧ (s.unit r.unit).setpoint = some p ∧
      (s.unit r.unit).link.current = some c ∧ c.pmin < p) ∧
    (∃ (s : State) (body : List Byte) (h : Handle) (r : Order), s.mode = .dispatch ∧ body.length = 2 ∧ h = field body 0 2 ∧
      s.order? h = some r ∧ r.partner = none ∧ r.successor = none ∧ r.life = .running ∧
      (s.waterway (s.unit r.unit).waterway).spacing.isSome = true ∧ r.mode ≠ .generate) ∧
    ∃ (s : State) (body : List Byte) (h : Handle) (r : Order), s.mode = .dispatch ∧ body.length = 2 ∧ h = field body 0 2 ∧
      s.order? h = some r ∧ r.partner = none ∧ r.successor = none ∧ r.life = .starting .runup ∧
      (s.unit r.unit).link.state = .up ∧ (s.unit r.unit).link.outstanding = none :=
  let s := live .engaged
  ⟨⟨holds (order .pump .due) s, [0, 133], 133, order .pump .due, rfl, rfl, by decide, by decide +kernel, rfl, rfl⟩,
    ⟨holds (order .condenseG (.starting .awaitingGate)) s, [0, 133], 133, order .condenseG (.starting .awaitingGate), rfl, rfl,
      by decide, by decide +kernel, rfl, rfl, by decide, rfl, ofOrders (by decide +kernel)⟩,
    ⟨holds (order .pump (.stopping .rundown .limit)) s, [0, 133], 133, order .pump (.stopping .rundown .limit), .rundown,
      .limit, rfl, rfl, by decide, by decide +kernel, rfl, rfl, rfl⟩,
    ⟨atPower 801 (holds (order .generate .running) s), [0, 133], 133, order .generate .running, 801, cap, rfl, rfl, by decide,
      by decide +kernel, rfl, rfl, rfl, rfl, rfl, rfl, by decide +kernel, by decide⟩,
    ⟨holds (order .condenseP .running) s, [0, 133], 133, order .condenseP .running, rfl, rfl, by decide, by decide +kernel,
      rfl, rfl, rfl, rfl, by decide⟩,
    holds (order .condenseG (.starting .runup)) s, [0, 133], 133, order .condenseG (.starting .runup), rfl, rfl, by decide,
    by decide +kernel, rfl, rfl, rfl, by decide +kernel, by decide +kernel⟩

/-- An offered window of unit 0 in mode CONDENSE_G. -/
def window (start : Nat) (finish : Option Nat) : Candidate := ⟨none, 0, .condenseG, start, finish, 0, false⟩

theorem witness_OverlapIsASharedInstant : ∃ (s : State) (c : Candidate), endsAfter c.start c.finish = true ∧ s.WindowLaw :=
  ⟨holds (order .pump .held) (live .idle), window 500 none, rfl, fun h r e => by
    rw [← mem_orders, show (holds (order .pump .held) (live .idle)).orders = [(133, order .pump .held)] by decide +kernel] at e
    simp at e
    rw [e.2]
    simp [order]⟩

theorem witness_ChangeoverGapsJudged :
    let s := holds (order .condenseG .held) (live .idle)
    let other := fun (c : Candidate) (h : Handle) (r : Order) =>
      s.order? h = some r ∧ r.unit = c.unit ∧ r.life.live = true ∧ c.self ≠ some h
    (∀ h r, other (window 50 none) h r → ¬ r.start < 50) ∧
    (other (window 500 none) 133 (order .condenseG .held) ∧ (order .condenseG .held).start < 500 ∧
      (order .condenseG .held).finish = some 500) ∧
    (s.capTime 0 (fun x => x.genStop) + s.capTime 0 (·.dwell) = 860 - 500) ∧
    (other (window 10 (some 100)) 133 (order .condenseG .held) ∧ 10 < (order .condenseG .held).start ∧
      s.judgeEarlier (window 10 (some 100)) = none) ∧
    s.judgeEarlier (window 859 none) = some .changeoverShort ∧ s.judgeEarlier (window 860 none) = none :=
  ⟨fun h r e => by
    have e := e.1
    rw [← mem_orders, show (holds (order .condenseG .held) (live .idle)).orders = [(133, order .condenseG .held)]
      by decide +kernel] at e
    simp at e
    rw [e.2]
    decide, by decide +kernel, by decide +kernel, by decide +kernel, by decide +kernel, by decide +kernel⟩

theorem witness_PlanKeepsLimitsThroughout : endsAfter 100 (some 101) = true ∧ endsAfter 100 none = true := by decide

/-- The offer such a body makes: class FIRM, no tolerance. -/
def offer (m : Mode) (start finish target ramp : Nat) : Offer := ⟨0, m, .firm, start, some finish, none, target, ramp⟩

theorem witness_PlaceJudgedInOrder :
    let s := live .idle
    let judged := fun (s : State) (o : Offer) => s.judgePlace o
    placeOf (placeBody 0 2 13 200 500 2600 50) = none ∧
    placeOf (placeBody 0 0 13 200 500 2600 50) = some (offer .generate 200 500 2600 50) ∧
    placeOf (placeBody 1 0 1 200 500 0 0) = some (offer .pump 200 500 0 0) ∧
    judged s (offer .generate 200 500 2600 50) = none ∧ judged s (offer .pump 200 500 0 0) = none ∧
    judged (live .dark) (offer .generate 200 500 2600 50) = some .unitUnavailable ∧
    judged s (offer .generate 200 500 799 50) = some .targetRange ∧
    judged s (offer .generate 200 200 2600 50) = some .badWindow ∧
    judged (s.setUnit 0 { s.unit 0 with link := { up with current := some { cap with modes := 13 } } })
      (offer .pump 200 500 0 0) = some .modeNotSupported ∧
    judged (s.setWaterway 0 { s.waterway 0 with hAdm := 47001 }) (offer .pump 200 500 0 0) = some .headRange ∧
    judged (holds { order .pump .held with finish := some 201 } s) (offer .pump 200 500 0 0) = some .overlap ∧
    judged (holds (order .condenseP .held) s) (offer .pump 500 900 0 0) = some .changeoverShort ∧
    judged (s.setWaterway 0 { s.waterway 0 with qpLim := 819 }) (offer .pump 200 500 0 0) = some .flowLimit ∧
    judged { s with slots := Vector.replicate 64 { generation := 1, order := some { order .condenseG .held with unit := 1 } } }
      (offer .condenseG 200 500 0 0) = some .tableFull := by
  decide +kernel

theorem witness_PlaceAdmitted :
    ∃ (s : State) (body : List Byte) (o : Offer) (k : SlotNo) (h : Handle), s.mode = .dispatch ∧ body.length = 18 ∧
      placeOf body = some o ∧ s.judgePlace o = none ∧ s.plantTime < o.start ∧ (s.slot k).order = none ∧
      (∀ j, j < k → (s.slot j).order.isSome = true) ∧ h = (s.slot k).generation * 64 + k :=
  ⟨live .idle, placeBody 0 0 13 101 500 2600 50, offer .generate 101 500 2600 50, 0, 64, rfl, by decide, by decide +kernel,
    by decide +kernel, by decide, by decide +kernel, by decide +kernel, by decide +kernel⟩

/-- A HELD order from 500 to 900, named by an order that was DONE before its end of 500, and no other live order of the unit. -/
def namedByDone : State :=
  (holds { order .generate .held with start := 500, finish := some 900 } (live .idle)).setSlot 6
    { generation := 1, order := some { order .generate (.done .limit 90) with successor := some 133 } }

/-- R13, log entry 54: the clauses of PlaceAdmitted on links, at their boundary: an order offered up to the start of the HELD one is
linked to it, and the ended order names it no more. -/
theorem witness_PlaceAdmitted_links :
    namedByDone.judgePlace (offer .generate 101 500 2600 50) = none ∧
    namedByDone.linkAfter (namedByDone.candidate (offer .generate 101 500 2600 50) false) = some 133 ∧
    namedByDone.order? 70 = some { order .generate (.done .limit 90) with successor := some 133 } ∧
    (match exec (.place 3 (placeBody 0 0 13 101 500 2600 50)) namedByDone with
      | .next t => ((t.order? 64).bind (·.successor), (t.order? 70).map (·.successor))
      | _ => (none, none)) = (some 133, some none) := by
  decide +kernel

theorem witness_PlaceTakesEffectAtOnce :
    (∀ c ∈ [Context.engaged, .recovering, .idle, .orphan], ∀ start ∈ [0, 100],
      (live c).mode = .dispatch ∧ (placeBody 2 0 1 start 500 0 0).length = 18 ∧
      placeOf (placeBody 2 0 1 start 500 0 0) = some (offer .condenseG start 500 0 0) ∧
      (live c).judgePlace (offer .condenseG start 500 0 0) = none ∧ start ≤ (live c).plantTime ∧
      ((live c).slot 0).order = none ∧ ((live c).unit 0).context = c ∧
      (live c).linkBefore ((live c).candidate (offer .condenseG start 500 0 0) false) = none ∧
      (live c).linkAfter ((live c).candidate (offer .condenseG start 500 0 0) false) = none ∧
      ((live c).waterway 0).spacing.isSome = true ∧ ((live c).waterway 0).pumpInhibit = false ∧
      ((live c).waterway 0).genInhibit = false) ∧
    (∀ h r, (live .idle).order? h = some r → r.unit = 0 → r.life ≠ .due) ∧
    MachineState.adoptableAs .generating = some .generate ∧ MachineState.adoptableAs .condensingG = some .condenseG :=
  ⟨by decide +kernel, ofOrders (by decide +kernel), rfl, rfl⟩

/-- Units 0 and 1 stand by with records of their own. -/
def two : State := (live .idle).setUnit 1 (inContext .idle)

/-- A PLACE_PAIR body: PUMP leg on unit 0, GENERATE leg on this unit, target 260 MW, from `start` to 500. -/
def pairBody (unit start : Nat) : List Byte :=
  [0] ++ beBytes 1 unit ++ [0, 13] ++ beBytes 4 start ++ beBytes 4 500 ++ beBytes 2 0 ++ beBytes 2 2600 ++ beBytes 2 50

theorem witness_PairAdmitted :
    two.mode = .dispatch ∧ (pairBody 1 101).length = 18 ∧
      pairOf (pairBody 0 101) = some (offer .pump 101 500 0 0, offer .generate 101 500 2600 50) ∧
      pairOf (pairBody 1 101) = some (offer .pump 101 500 0 0, { offer .generate 101 500 2600 50 with unit := 1 }) ∧
      two.judgePair (offer .pump 101 500 0 0) { offer .generate 101 500 2600 50 with unit := 1 } = none ∧
      two.plantTime < 101 ∧ (two.slot 0).order = none ∧ (two.slot 1).order = none ∧
      (∀ i : SlotNo, i < 1 → i ≠ 0 → (two.slot i).order.isSome = true) := by
  decide +kernel

/-- An AMEND body for the handle 133: the fields named, the presence bits, start, end and target. -/
def amendBody (named presence start finish target : Nat) : List Byte :=
  [0, 133] ++ beBytes 1 named ++ beBytes 1 presence ++ beBytes 4 start ++ beBytes 4 finish ++ beBytes 2 0 ++
    beBytes 2 target ++ beBytes 2 0 ++ [0]

/-- An amendment of start, end and target, where given. -/
def amendment (start : Option Nat) (finish : Option (Option Nat)) (target : Option Nat) : Amendment :=
  ⟨start, finish, none, target, none, none⟩

theorem witness_AmendTaken :
    (live .idle).mode = .dispatch ∧ (amendBody 3 1 200 900 0).length = 19 ∧ field (amendBody 3 1 200 900 0) 0 2 = 133 ∧
    (live .idle).order? 133 = none ∧ amendmentOf .pump (amendBody 0 0 0 0 0) = none ∧
    amendmentOf .pump (amendBody 3 1 200 900 0) = some (amendment (some 200) (some (some 900)) none) ∧
    amendmentOf .generate (amendBody 8 4 0 0 900) = some (amendment none none (some 900)) ∧
    (holds (order .pump (.stopping .rundown .limit)) (live .engaged)).order? 133 =
      some (order .pump (.stopping .rundown .limit)) ∧
    (holds { order .pump .held with successor := some 134 } (live .idle)).order? 133 =
      some { order .pump .held with successor := some 134 } ∧
    (holds (order .pump .held) (live .idle)).judgeAmended (amendment (some 200) (some (some 900)) none)
      [(133, order .pump .held)] = none ∧
    (let s := atPower 1000 (holds (order .generate .running) (live .engaged));
      s.engagedOrder 0 = some (133, order .generate .running) ∧ (s.unit 0).setpoint = some 1000 ∧
        (s.waterway 0).spacing.isSome = true ∧
        s.judgeAmended (amendment none none (some 900)) [(133, order .generate .running)] = none) ∧
    ∀ q ∈ (holds (order .pump .held) (live .idle)).orders, q.2.successor = none := by
  decide +kernel

theorem witness_StartArrivalTaken :
    let base := fun (s : State) (h : Handle) (r : Order) => DueEvent.startArrival h ∈ s.due ∧ s.mode = .dispatch ∧ s.named = [] ∧
      s.order? h = some r ∧ r.life = .held ∧ r.start = s.plantTime ∧ r.finish = some 500 ∧ s.plantTime < 500 ∧
      r.tolerance = none ∧ r.partner = none ∧ r.successor = none ∧ r.retirePending = false
    let with_ := fun (r : Order) (s : State) => withDue (.startArrival 133) (holds r s)
    base (with_ (order .pump .held) ((live .idle).setUnit 0 { inContext .idle with isolated := true })) 133 (order .pump .held) ∧
    (base (with_ (order .pump .held) (live .engaged)) 133 (order .pump .held) ∧
      ((live .engaged).unit 0).context ≠ .idle ∧ ((live .engaged).unit 0).isolated = false) ∧
    (base (with_ (order .condenseP .held) (live .idle)) 133 (order .condenseP .held) ∧
      (∀ c, ((live .idle).converter c).state ≠ .free)) ∧
    (base (with_ (order .generate .held) (live .idle)) 133 (order .generate .held) ∧
      ((live .idle).waterway 0).spacing.isSome = true) ∧
    ∀ k q, (with_ (order .generate .held) (live .idle)).order? k = some q → q.unit = 0 → q.life ≠ .due :=
  ⟨by decide +kernel, by decide +kernel, by decide +kernel, by decide +kernel, ofOrders (by decide +kernel)⟩

/-- Plant time is 500, the end of the records of these tests. -/
def atEnd (s : State) : State := withDue (.endArrival 133) { s with plantTime := 500 }

/-- A second record of the unit, of handle 70, from 500 on. -/
def followedBy (q : Order) (s : State) : State := s.setSlot 6 { generation := 1, order := some q }

theorem witness_EndArrivalTaken :
    let base := fun (s : State) (h : Handle) (r : Order) => DueEvent.endArrival h ∈ s.due ∧ s.mode = .dispatch ∧ s.named = [] ∧
      s.order? h = some r ∧ r.finish = some s.plantTime ∧ r.partner = none ∧ r.retirePending = false ∧
      (s.waterway (s.unit r.unit).waterway).spacing.isSome = true
    (∀ l ∈ [Life.due, .running, .stopping .rundown .limit, .done .limit 9],
      base (atEnd (holds (order .condenseG l) (live .engaged))) 133 (order .condenseG l)) ∧
    (base (atPower 801 (atEnd (holds (order .generate .running) (live .engaged)))) 133 (order .generate .running) ∧
      ((live .engaged).unit 0).link.current = some cap ∧ cap.pmin < 801) ∧
    ∀ l ∈ [Life.running, .starting .converterRun], ∀ b ∈ [Life.held, .due],
      base (atEnd (holds { order .pump l with successor := some 70 } (followedBy (order .pump b) (live .engaged)))) 133
          { order .pump l with successor := some 70 } ∧
        (atEnd (holds { order .pump l with successor := some 70 } (followedBy (order .pump b) (live .engaged)))).order? 70 =
          some (order .pump b) := by
  decide +kernel

/-- R82: a DUE GENERATE leg fails at its own end arrival, and its RUNNING PUMP leg waits for that leg's own end arrival. -/
theorem test_pump_left_to_its_end : ∀ t,
    exec (.endArrival 133) (atEnd (holds { order .generate .due with partner := some 70, pairSense := some .pumping }
      (followedBy { order .pump .running with partner := some 133, pairSense := some .pumping, unit := 1 } (live .idle)))) = .next t →
    (t.order? 133).map (·.life) = some (.failed .late 500) ∧ (t.order? 70).map (·.life) = some .running := by
  intro t e; cases e; decide +kernel

/-- A DUE order whose lateness time is the present plant time, perhaps with a predecessor. -/
def latecomer : State :=
  withDue (.latenessArrival 133) { holds { order .pump .due with tolerance := some 60 } (live .engaged) with plantTime := 160 }

theorem witness_LatenessArrivalTaken :
    DueEvent.latenessArrival 133 ∈ latecomer.due ∧ latecomer.mode = .dispatch ∧ latecomer.named = [] ∧
      latecomer.order? 133 = some { order .pump .due with tolerance := some 60 } ∧ 100 + 60 = latecomer.plantTime ∧
      (∀ k q, latecomer.order? k = some q → q.successor = some 133 → q.life.isStarting = false ∧ q.life ≠ .running) ∧
      (followedBy { order .pump .running with successor := some 133 } latecomer).order? 70 =
        some { order .pump .running with successor := some 133 } ∧
      (order .pump .running).life = .running :=
  ⟨by decide, rfl, rfl, by decide +kernel, rfl, ofOrders (by decide +kernel), by decide +kernel, rfl⟩

/-- R67: a RUNNING order that names the DUE one exempts it, though a DONE order in a lower slot names it too. -/
theorem test_exempt_beside_done : ∀ t,
    exec (.latenessArrival 133) ((followedBy { order .pump .running with successor := some 133 } latecomer).setSlot 0
      { generation := 1, order := some { order .pump (.done .limit 90) with successor := some 133 } }) = .next t →
    (t.order? 133).map (·.life) = some .due := by
  intro t e; cases e; decide +kernel

theorem witness_SupervisionExpiryTaken :
    ∀ l ∈ [Life.starting .runup, .starting .coasting, .stopping .rundown .partner],
      let s := withDue (.supervision 0) ((holds (order .pump l) (live .engaged)).setUnit 0
        { inContext .engaged with supervision := some 0 })
      DueEvent.supervision 0 ∈ s.due ∧ (s.unit 0).supervision = some 0 ∧ s.named = [] ∧
        s.engagedOrder 0 = some (133, order .pump l) ∧ (s.unit 0).link.state = .up ∧ (s.unit 0).link.outstanding = none := by
  decide +kernel

theorem witness_ConverterTimersExpire :
    (let s := withDue (.run 1) ((holds (order .pump (.starting .converterRun)) (live .engaged)).setConverter 1
        { Converter.reset with state := .running 133 0 0 });
      DueEvent.run 1 ∈ s.due ∧ (s.converter 1).state = .running 133 0 0 ∧ s.startQueue = [] ∧
        s.order? 133 = some (order .pump (.starting .converterRun)) ∧ (s.unit 0).link.state = .up ∧
        (s.unit 0).link.outstanding = none) ∧
    ∀ fault ∈ [true, false], ∀ q ∈ [[], [({ handle := 133, unit := 0, cls := .firm, start := 100 } : StartEntry)]],
      let s := withDue (.coolDown 0) { (holds (order .pump (.starting .queuedConverter)) (live .engaged)).setConverter 0
        { Converter.reset with state := .cooling 0, faultLine := fault } with startQueue := q }
      DueEvent.coolDown 0 ∈ s.due ∧ (s.converter 0).state = .cooling 0 ∧ (s.converter 0).faultLine = fault ∧
        (∀ c', c' ≠ 0 → (s.converter c').state ≠ .free) ∧ (s.unit 0).eligible.getLsbD 0 = true ∧
        s.order? 133 = some (order .pump (.starting .queuedConverter)) := by
  decide +kernel

theorem witness_ConvertersTakenOutAndIn :
    (∀ st ∈ [ConverterState.out, .free, .cooling 600, .running 133 0 300],
      (((live .engaged).setConverter 1 { Converter.reset with state := st, faultLine := st = .out }).converter 1).state = st) ∧
    (holds (order .pump (.starting .converterRun)) (live .engaged)).order? 133 =
      some (order .pump (.starting .converterRun)) ∧
    (live .engaged).mode = .dispatch ∧ [1, 0].length = 2 ∧ byteAt [1, 0] 0 = BitVec.ofNat 8 (1 : ConverterNo) ∧
    byteAt [1, 0] 1 = 0 ∧ byteAt [1, 1] 1 = 1 ∧ 0 < Converter.reset.coolDown := by
  decide +kernel

/-- A gate whose spacing expires over an entry of this kind for the record 133. -/
def gateWith (kind : EntryKind) (l : Life) (inhibit : Bool) : State :=
  withDue (.spacing 0) ((holds (order .generate l) (live .engaged)).setWaterway 0
    { (live .engaged).waterway 0 with
      genInhibit := inhibit
      spacing := some 0
      queue := [{ handle := 133, unit := 0, kind := kind, cls := .firm, rank := 0 }]
      nextRank := 1 })

theorem witness_SpacingExpiryGrants :
    (∀ s ∈ [gateWith .start (.starting .awaitingGate) false, gateWith .stop (.stopping .awaitingGate .windowEnd) true,
        gateWith .start (.starting .awaitingGate) true],
      DueEvent.spacing 0 ∈ s.due ∧ (s.waterway 0).spacing = some 0 ∧ 0 < (s.waterway 0).spacingTime ∧
        (s.unit 0).link.state = .up ∧ (s.unit 0).link.outstanding = none) ∧
    (∀ e ∈ ((gateWith .start (.starting .awaitingGate) true).waterway 0).queue,
      (gateWith .start (.starting .awaitingGate) true).allowed 0 e = false) ∧
    (∀ e ∈ ((gateWith .start (.starting .awaitingGate) false).waterway 0).queue,
      (gateWith .start (.starting .awaitingGate) false).allowed 0 e = true) ∧
    (∀ e ∈ ((gateWith .stop (.stopping .awaitingGate .windowEnd) true).waterway 0).queue,
      (gateWith .stop (.stopping .awaitingGate .windowEnd) true).allowed 0 e = true) ∧
    (gateWith .stop (.stopping .awaitingGate .windowEnd) true).order? 133 =
      some (order .generate (.stopping .awaitingGate .windowEnd)) := by
  decide +kernel

/-- A ramp period of waterway 0 with one engaged order at this setpoint and this live net flow. -/
def rampAt (l : Life) (p : Nat) (flow : Int) : State :=
  withDue (.ramp 0) (atPower p ((holds (order .generate l) (live .engaged)).setWaterway 0
    { (live .engaged).waterway 0 with netFlow := flow }))

theorem witness_RampPeriodSteps :
    (∀ s ∈ [rampAt .running 800 1000, rampAt .running 2700 0, rampAt .running 2600 1001],
      DueEvent.ramp 0 ∈ s.due ∧ (s.unit 0).waterway = 0 ∧ (s.waterway 0).queue = [] ∧
        s.order? 133 = some (order .generate .running) ∧ (∀ p ∈ s.orders, p.2.life.engaged = true → p.1 = 133) ∧
        (s.unit 0).setpoint.isSome = true ∧ (s.unit 0).link.silent = false ∧ s.capTime 0 (·.pmin) = 800) ∧
    ((rampAt .running 800 1000).waterway 0).netFlow ≤ ((rampAt .running 800 1000).waterway 0).qgLim ∧
    ((rampAt .running 2600 1001).waterway 0).qgLim < ((rampAt .running 2600 1001).waterway 0).netFlow := by
  decide +kernel

theorem witness_RampPeriodUnloadsAndIndicates :
    (DueEvent.ramp 0 ∈ (withDue (.ramp 0) State.reset).due ∧
      ∀ k q, (withDue (.ramp 0) State.reset).order? k = some q → q.life.engaged = false) ∧
    ∀ p ∈ [801, 900],
      DueEvent.ramp 0 ∈ (rampAt (.stopping .unloading .windowEnd) p 0).due ∧
      ((rampAt (.stopping .unloading .windowEnd) p 0).waterway 0).spacing.isSome = true ∧
      (rampAt (.stopping .unloading .windowEnd) p 0).order? 133 = some (order .generate (.stopping .unloading .windowEnd)) ∧
      (∀ x ∈ (rampAt (.stopping .unloading .windowEnd) p 0).orders, x.2.life.engaged = true → x.1 = 133) ∧
      ((rampAt (.stopping .unloading .windowEnd) p 0).unit 0).setpoint = some p ∧
      (rampAt (.stopping .unloading .windowEnd) p 0).capTime 0 (·.pmin) < p :=
  ⟨⟨by decide, ofOrders (by decide +kernel)⟩, by decide +kernel⟩

theorem witness_GeneratingFlowMonotone :
    ∀ i : Fin 7, cap.powers[i.val] < cap.powers[i.val + 1] ∧ cap.flows[i.val] ≤ cap.flows[i.val + 1] := by decide

/-- State.reset with this link at unit 0. -/
def linked (l : Link) : State := State.reset.setUnit 0 { UnitBlock.reset 0 with link := l }

theorem witness_LinkSupervised :
    (State.reset.unit 0).present = true ∧ (State.reset.unit 0).link.state = .down ∧
    (let s := linked { up with burstTimer := some 0, frameErrors := 6, silenceCount := 1 };
      (s.unit 0).link.burstTimer = some 0 ∧ (s.unit 0).link.state = .up ∧ (s.unit 0).link.heardBefore = false ∧
        (s.unit 0).link.frameErrors + 1 < s.supervision.burstCount ∧
        (s.unit 0).link.silenceCount + 1 < s.supervision.silenceHold) ∧
    ((linked { up with heardBefore := true }).unit 0).link.heardBefore = true ∧
    ((State.reset.setUnit 0 { UnitBlock.reset 0 with present := false }).unit 0).present = false ∧
    DueEvent.hello 0 ∈ (withDue (.hello 0) State.reset).due ∧ DueEvent.burst 0 ∈ (withDue (.burst 0) State.reset).due ∧
    DueEvent.linkSilence 0 ∈ (withDue (.linkSilence 0) State.reset).due := by
  decide +kernel

theorem witness_LinkLost :
    (∀ c ∈ [Context.idle, .engaged],
      let s := withDue (.ack 0) ((holds (order .pump .running) (live c)).setUnit 0
        { inContext c with
          link := { up with outstanding := some .waterUp, ackTimer := some 0, frameErrors := 7, silenceCount := 2 } })
      (s.unit 0).present = true ∧ (s.unit 0).link.state = .up ∧ DueEvent.ack 0 ∈ s.due ∧ (s.unit 0).link.ackTimer = some 0 ∧
        (s.unit 0).link.heardBefore = false ∧ s.supervision.silenceHold ≤ (s.unit 0).link.silenceCount + 1 ∧
        s.supervision.burstCount ≤ (s.unit 0).link.frameErrors + 1 ∧ (s.unit 0).context = c ∧ s.named = [] ∧
        s.engagedOrder 0 = some (133, order .pump .running)) ∧
    DueEvent.linkSilence 0 ∈ (withDue (.linkSilence 0) State.reset).due := by
  decide +kernel

/-- The five pages of the record, the toggles alternating from 0. -/
def page (n : Nat) : Page :=
  match n with
  | 0 => ⟨0, 1, .figures ⟨0, 15, 40000, 800, 3400, 120, 180, 240, 300, 120⟩⟩
  | 1 => ⟨1, 1, .genLow #v[⟨800, 300⟩, ⟨1200, 420⟩, ⟨1800, 610⟩, ⟨2400, 800⟩]⟩
  | 2 => ⟨0, 1, .genHigh #v[⟨2800, 930⟩, ⟨3000, 1000⟩, ⟨3200, 1070⟩, ⟨3400, 1140⟩]⟩
  | 3 => ⟨1, 1, .pumpLow #v[⟨36000, 900, 3000⟩, ⟨38000, 860, 3020⟩, ⟨40000, 820, 3040⟩, ⟨42000, 780, 3060⟩]⟩
  | _ => ⟨0, 0, .pumpHigh #v[⟨44000, 730, 3080⟩, ⟨45000, 700, 3090⟩, ⟨46000, 670, 3100⟩, ⟨47000, 640, 3110⟩]⟩

/-- A link in EXCHANGE with this page the last one taken. -/
def exchanging (n : Nat) : Link :=
  { Link.reset with
    state := .exchange
    burstTimer := some 10
    collecting := some ((List.range (n + 1)).map page)
    lastPage := some (n, (page n).toggle) }

theorem witness_PageJudged :
    (State.reset.unit 0).present = true ∧ (State.reset.unit 0).link.state = .down ∧
    (page 0).contents.number = 0 ∧ (page 0).more = 1 ∧ ¬ ((page 1).contents.number = 0 ∧ (page 1).more = 1) ∧
    (exchanging 2).state = .exchange ∧ (exchanging 2).lastPage = some ((page 2).contents.number, (page 2).toggle) ∧
    ((page 3).contents.number < 4 ∧ (exchanging 2).lastPage ≠ some ((page 3).contents.number, (page 3).toggle) ∧
      (page 3).contents.number ≠ 0 ∧ (page 3).more = 1 ∧ (exchanging 2).collecting = some [page 0, page 1, page 2] ∧
      (exchanging 2).lastPage = some ((page 3).contents.number - 1, 0) ∧ 0 ≠ (page 3).toggle) ∧
    ((exchanging 1).lastPage ≠ some ((page 3).contents.number, (page 3).toggle) ∧ (page 3).contents.number ≠ 1 + 1 ∧
      (exchanging 1).frameErrors + 1 < State.reset.supervision.burstCount) := by
  decide +kernel

theorem witness_RecordCompleted :
    recordOf 0 (((exchanging 3).collecting.getD []) ++ [page 4]) = .ok cap ∧
    recordOf 1 (((exchanging 3).collecting.getD []) ++ [page 4]) = .error .unitNumber ∧
    (exchanging 3).collecting = some [page 0, page 1, page 2, page 3] ∧ (exchanging 3).lastPage = some (3, 1) ∧
    1 ≠ (page 4).toggle ∧ (page 4).contents.number = 4 ∧ (page 4).more = 0 ∧ (exchanging 3).current = none := by
  refine ⟨rfl, rfl, ?_⟩
  decide +kernel

theorem witness_AckJudged :
    (∀ l ∈ [Link.reset, exchanging 0, up, { up with outstanding := some .waterUp, ackTimer := some 2 },
        { up with outstanding := some .waterUp, ackTimer := some 2, held := some .abortStart }],
      ((linked l).unit 0).present = true ∧ ((linked l).unit 0).link = l) ∧
    Link.reset.state = .down ∧ (exchanging 0).state = .exchange ∧ up.state = .up ∧ up.toggle = false ∧
    Directive.waterUp.code = (7 : Byte).toNat ∧ up.frameErrors + 1 < State.reset.supervision.burstCount := by
  decide +kernel

theorem witness_StateReportPlacesUnit :
    (∀ s ∈ [(linked { up with sinceUp := false, lastReport := none }), live .recovering],
      (s.unit 0).present = true ∧ (s.unit 0).link.state = .up ∧ (s.unit 0).link.current = some cap) ∧
    (∀ k q, (live .recovering).order? k = some q → q.unit = 0 → q.life ≠ .due ∧ q.life.engaged = false) ∧
    (∀ k q, (linked { up with sinceUp := false, lastReport := none }).order? k = some q →
      q.unit = 0 → q.life ≠ .due ∧ q.life.engaged = false) ∧
    ((live .recovering).unit 0).link.sinceUp = true :=
  ⟨by decide +kernel, ofOrders (by decide +kernel), ofOrders (by decide +kernel), rfl⟩

theorem witness_EngagedReportJudged :
    ∀ r ∈ [order .generate .running, order .pump (.starting .coasting), order .pump (.stopping .rundown .windowEnd),
        order .generate (.starting .runup)],
      (((holds r (live .engaged)).unit 0).present = true ∧ ((holds r (live .engaged)).unit 0).context = .engaged ∧
        ((holds r (live .engaged)).unit 0).link.state = .up ∧ ((holds r (live .engaged)).unit 0).link.sinceUp = true ∧
        (holds r (live .engaged)).engagedOrder 0 = some (133, r) ∧ (holds r (live .engaged)).named = [] ∧ r.partner = none ∧
        r.successor = none ∧ r.retirePending = false ∧ ((holds r (live .engaged)).waterway 0).spacing.isSome = true ∧
        0 < ((holds r (live .engaged)).waterway 0).spacingTime ∧
        (∀ p ∈ (holds r (live .engaged)).orders, p.2.unit = 0 → p.2.life ≠ .due) ∧
        (∀ c, ((holds r (live .engaged)).converter c).state ≠ .free) ∧ (holds r (live .engaged)).retry = true ∧ r.attempts < 2 ∧
        cap.pmin ≠ 2600) := by
  decide +kernel

theorem witness_UnitRequestsTaken :
    byteAt [0] 0 = BitVec.ofNat 8 (0 : UnitNo) ∧
    (∀ c ∈ [Context.engaged, .recovering, .idle, .orphan, .dark, .absent, .locally],
      (live c).mode = .dispatch ∧ ((live c).unit 0).context = c ∧ ((live c).unit 0).link.state = .up ∧
        ((live c).unit 0).link.outstanding = none ∧ 0 < ((live c).waterway 0).spacingTime ∧ (live c).named = [] ∧
        (holds (order .pump .running) (live c)).engagedOrder 0 = some (133, order .pump .running)) ∧
    (∀ p ∈ (holds (order .pump .due) (live .idle)).orders, p.1 = 133 ∧ p.2.life = .due) ∧
    ∀ k q, (live .idle).order? k = some q → q.unit = 0 → q.life ≠ .due :=
  ⟨by decide, by decide +kernel, by decide +kernel, ofOrders (by decide +kernel)⟩

theorem witness_LinkRequestsTaken :
    byteAt [0] 0 = BitVec.ofNat 8 (0 : UnitNo) ∧ (strapless.unit 0).present = false ∧
    ∀ l ∈ [Link.reset, { Link.reset with state := .lost, lostLatch := true }, { Link.reset with state := .refused },
        exchanging 4, up],
      ((linked l).unit 0).present = true ∧ ((linked l).unit 0).link = l ∧ ((linked l).unit 0).context ≠ .engaged := by
  decide +kernel

/-- The telegram of a gauge with a level and a validity flag (Table 12-5). -/
def telegram (g level : Nat) (flags : Nat) : List Byte :=
  withCrc (beBytes 1 10 ++ beBytes 1 g ++ beBytes 4 level ++ beBytes 1 flags ++ beBytes 2 0)

theorem witness_GaugesJudgedAndSupervised :
    (∀ n ∈ [0, 1, 100000], (telegram 2 n 1).length = 11 ∧ byteAt (telegram 2 n 1) 0 = 10 ∧
      telegram 2 n 1 = withCrc ((telegram 2 n 1).take 9) ∧ byteAt (telegram 2 n 1) 1 = BitVec.ofNat 8 (2 : GaugeNo) ∧
      (byteAt (telegram 2 n 1) 6).getLsbD 0 = true ∧ field (telegram 2 n 1) 2 4 = n) ∧
    (byteAt (telegram 2 0 0) 6).getLsbD 0 = false ∧ field (telegram 2 100001 1) 2 4 = 100001 ∧
    byteAt (telegram 3 0 1) 1 ≠ BitVec.ofNat 8 (2 : GaugeNo) ∧
    judgeTelegram { Gauge.reset with state := .valid, level := some 60050 } 2 (telegram 2 60000 1) = none ∧
    judgeTelegram { Gauge.reset with state := .valid, level := some 60051 } 2 (telegram 2 60000 1) = some .jump ∧
    DueEvent.gaugeSilence 2 ∈ (withDue (.gaugeSilence 2) State.reset).due ∧
    Gauge.reset.silenceLimit < min (5 + 1) 255 ∧ min (4 + 1) 255 ≤ Gauge.reset.silenceLimit := by
  decide +kernel

theorem witness_LevelsGiveFlagsInhibitsAndHead :
    let s := (State.reset.setGauge 0 { Gauge.reset with state := .valid, level := some 61500 }).setGauge 1
      { Gauge.reset with state := .fault, level := some 21500 }
    (s.gauge (s.waterway 0).upper).level = some 61500 ∧ (s.gauge (s.waterway 0).lower).level = some 21500 ∧
      (s.gauge (s.waterway 0).upper).state ≠ .unknown ∧ (s.gauge (s.waterway 0).lower).state ≠ .unknown := by
  decide +kernel

/-! ## Pairs -/

/-- A PUMP leg of unit 0, whose handle is 133, in this life. -/
def pumpLeg (l : Life) : Order := { order .pump l with partner := some 134, pairSense := some .pumping }

/-- Its GENERATE leg, of unit 1, whose handle is 134. -/
def genLeg (l : Life) : Order := { order .generate l with unit := 1, partner := some 133, pairSense := some .pumping }

/-- A state that holds the pair of these two records, the GENERATE leg's unit in this context with its setpoint above Pmin. -/
def pairOn (c : Context) (r q : Order) : State :=
  (((live .engaged).setUnit 1 { inContext c with setpoint := some 801 }).setSlot 5 { generation := 2, order := some r }).setSlot 6
    { generation := 2, order := some q }

/-- The pair with its legs in these lives. -/
def pair (l m : Life) : State := pairOn .engaged (pumpLeg l) (genLeg m)

theorem pair_isPair (l m : Life) : (pair l m).IsPair 133 134 (pumpLeg l) (genLeg m) :=
  ⟨rfl, rfl, rfl, rfl, rfl, rfl, by simp [pumpLeg, genLeg, order], rfl, rfl⟩

theorem witness_RetireTaken_pair :
    (pair .held .due).mode = .dispatch ∧ field [0, 133] 0 2 = 133 ∧ field [0, 134] 0 2 = 134 ∧
      (pair .held .due).IsPair 133 134 (pumpLeg .held) (genLeg .due) ∧ Life.engaged .held = false ∧ Life.engaged .due = false ∧
      (pair .running .running).IsPair 133 134 (pumpLeg .running) (genLeg .running) ∧
      ((pair .running .running).waterway 0).spacing.isSome = true ∧ ((pair .running .running).unit 1).setpoint = some 801 ∧
      ((pair .running .running).unit 1).link.current = some cap ∧ cap.pmin < 801 :=
  ⟨rfl, by decide, by decide, pair_isPair _ _, rfl, rfl, pair_isPair _ _, rfl, rfl, rfl, by decide⟩

theorem witness_AmendTaken_pair :
    (pair .held .held).IsPair 133 134 (pumpLeg .held) (genLeg .held) ∧ field (amendBody 3 1 200 900 0) 0 2 = 133 ∧
      (pair .held .held).mode = .dispatch ∧
      amendmentOf .pump (amendBody 3 1 200 900 0) = some (amendment (some 200) (some (some 900)) none) ∧
      (∀ i y, (pair .held .held).order? i = some y → y.successor ≠ some 133 ∧ y.successor ≠ some 134) ∧
      (pair .held .held).plantTime < 200 ∧
      (pair .held .held).judgeAmended (amendment (some 200) (some (some 900)) none)
        ((pair .held .held).amendedLegs 133 (pumpLeg .held) (amendment (some 200) (some (some 900)) none)) = none :=
  ⟨pair_isPair _ _, by decide, rfl, by decide +kernel, ofOrders (by decide +kernel), by decide, by decide +kernel⟩

theorem witness_StartArrivalTaken_pair : ∀ l ∈ [Life.starting .runup, .running],
    let s := withDue (.startArrival 134) (pairOn .idle (pumpLeg l) (genLeg .held))
    DueEvent.startArrival 134 ∈ s.due ∧ s.mode = .dispatch ∧ s.named = [] ∧ s.order? 133 = some (pumpLeg l) ∧
      s.order? 134 = some (genLeg .held) ∧ (genLeg .held).start = s.plantTime ∧ (genLeg .held).finish = some 500 ∧
      s.plantTime < 500 ∧ (genLeg .held).tolerance = none ∧ (s.unit 1).isolated = false ∧ (s.unit 1).context = .idle ∧
      (∀ p ∈ s.orders, p.2.unit = 1 → p.2.life ≠ .due) ∧ (s.waterway (s.unit 1).waterway).spacing.isSome = true := by
  decide +kernel

theorem witness_EndArrivalTaken_pair :
    (∀ m ∈ [Life.starting .runup, .running, .stopping .rundown .limit, .starting .pairHold, .starting .awaitingGate],
      let s := atEnd (pair .running m)
      DueEvent.endArrival 133 ∈ s.due ∧ s.mode = .dispatch ∧ s.named = [] ∧ s.order? 133 = some (pumpLeg .running) ∧
        s.order? 134 = some (genLeg m) ∧ (pumpLeg .running).finish = some s.plantTime ∧ (pumpLeg .running).awaited = none ∧
        (genLeg m).retirePending = false ∧ (s.waterway 0).spacing.isSome = true ∧
        (∀ p ∈ s.orders, p.2.unit = 1 → p.2.life ≠ .due)) ∧
    (let s := withDue (.endArrival 134) (atEnd (pair .running .running));
      DueEvent.endArrival 134 ∈ s.due ∧ (genLeg .running).finish = some s.plantTime ∧ (s.waterway 0).spacing.isSome = true ∧
        (s.unit 1).setpoint = some 801 ∧ (s.unit 1).link.current = some cap ∧ cap.pmin < 801) := by
  decide +kernel

theorem witness_LatenessArrivalTaken_pair : ∀ m ∈ [Life.held, .due],
    let s := withDue (.latenessArrival 133)
      { pairOn .engaged { pumpLeg .due with tolerance := some 60 } (genLeg m) with plantTime := 160 }
    DueEvent.latenessArrival 133 ∈ s.due ∧ s.mode = .dispatch ∧ s.named = [] ∧
      s.order? 133 = some { pumpLeg .due with tolerance := some 60 } ∧ s.order? 134 = some (genLeg m) ∧ 100 + 60 = s.plantTime ∧
      (∀ p ∈ s.orders, p.2.successor ≠ some 133) := by
  decide +kernel

/-! ## Passed records (R23) -/

/-- Two HELD records of unit 0, in this context, from 100 to 500: one of no tolerance, and one of 50. -/
def passing (c : Context) : State :=
  (holds (order .pump .held) (live c)).setSlot 6 { generation := 2, order := some { order .pump .held with tolerance := some 50 } }

theorem passing_orders (c : Context) : (passing c).orders =
    [(133, order .pump .held), (134, { order .pump .held with tolerance := some 50 })] := by
  cases c <;> decide +kernel

theorem passing_alone (s : State) (v : Nat) (h : s.orders = (passing .dark).orders) (i : (s.unit 0).context = .dark) :
    s.PassesAlone v := fun k q e => by
  rw [← mem_orders, h, passing_orders] at e
  simp at e
  rcases e with ⟨rfl, rfl⟩ | ⟨rfl, rfl⟩ <;> simp [order, Life.engaged, i]

/-- One HELD record of unit 0, which is IDLE, and whose start is plant time 100. -/
def passingOne : State := holds (order .generate .held) (live .idle)

theorem passing_idle (s : State) (h : s.orders = passingOne.orders) (i : (s.unit 0).context = .idle)
    (j : (s.unit 0).isolated = false) : s.PassesIdle 100 133 (order .generate .held) := by
  rw [show passingOne.orders = [(133, order .generate .held)] by decide +kernel] at h
  refine ⟨mem_orders.1 (by rw [h]; simp), rfl, by simp [Order.PassedBy, order], by decide, rfl, j, i, fun k q e => ?_⟩
  rw [← mem_orders, h] at e
  simp at e
  rw [e.2]
  exact ⟨by decide, rfl, fun n => absurd e.1 n⟩

/-- The state in CONFIG, with no strap present: no check of START_DISPATCH refuses it. -/
def rightConfig (s : State) : State := { s with mode := .config, units := s.units.map fun b => { b with present := false } }

theorem witness_SetTimeTaken_passed :
    (passing .dark).mode = .dispatch ∧ (passing .dark).named = [] ∧ (∀ v, (passing .dark).PassesAlone v) ∧
      passingOne.mode = .dispatch ∧ passingOne.named = [] ∧ passingOne.PassesIdle 100 133 (order .generate .held) :=
  ⟨rfl, rfl, fun v => passing_alone _ v rfl rfl, rfl, rfl, passing_idle _ rfl rfl rfl⟩

theorem witness_DispatchStarted_passed :
    (∀ s ∈ [passing .dark, passingOne], (rightConfig s).mode = .config ∧ (∀ u, ((rightConfig s).unit u).present = false) ∧
      (rightConfig s).named = []) ∧
    (rightConfig (passing .dark)).PassesAlone (rightConfig (passing .dark)).plantTime ∧
    (rightConfig passingOne).plantTime = 100 ∧ (rightConfig passingOne).PassesIdle 100 133 (order .generate .held) :=
  ⟨by decide +kernel, passing_alone _ _ (by decide +kernel) (by decide +kernel), rfl,
    passing_idle _ (by decide +kernel) (by decide +kernel) (by decide +kernel)⟩

theorem witness_TrimClockTaken_arrivals :
    (∀ r ∈ [{ order .pump .held with start := 101 }, { order .pump .held with start := 102 }],
      let s := holds r (live .engaged)
      s.mode = .dispatch ∧ s.named = [] ∧ (∀ e ∈ s.due, e.isArrival = false) ∧ s.order? 133 = some r ∧ s.plantTime < r.start ∧
        r.start ≤ s.plantTime + 2 ∧ r.finish = some 500 ∧ s.plantTime + 2 < 500 ∧ (s.unit 0).isolated = false ∧
        (s.unit 0).context ≠ .idle ∧ (∀ p ∈ s.orders, p.1 = 133) ∧ 102 ≤ plantTimeMax) ∧
    ∀ r ∈ [{ order .pump .due with finish := some 101 }, { order .pump .due with finish := none, tolerance := some 2 }],
      let s := holds r (live .engaged)
      s.order? 133 = some r ∧ r.life = .due ∧ r.start ≤ s.plantTime ∧ (∀ p ∈ s.orders, p.1 = 133 ∧ p.2.successor = none) ∧
        (r.finish = some 101 ∨ (r.finish = none ∧ r.tolerance = some 2 ∧ r.start + 2 = 102)) := by
  decide +kernel
/-! ## An inhibit at adoption (R161), the checks of PLACE_PAIR (R54) -/

/-- Unit 0 is an ORPHAN whose panel reports this state at 150 MW, and both inhibits of its waterway are set. -/
def inhibited (m : MachineState) : State :=
  ((live .orphan).setUnit 0 { inContext .orphan with link := { up with lastReport := some ⟨m, 1500, .remote⟩ } }).setWaterway 0
    { (live .orphan).waterway 0 with pumpInhibit := true, genInhibit := true }

theorem witness_PlaceTakesEffectAtOnce_inhibited :
    (∀ x ∈ [(MachineState.generating, placeBody 0 0 13 100 500 2600 50, offer .generate 100 500 2600 50),
        (.pumping, placeBody 1 0 1 100 500 0 0, offer .pump 100 500 0 0),
        (.condensingP, placeBody 3 0 1 100 500 0 0, offer .condenseP 100 500 0 0)],
      let s := inhibited x.1
      s.mode = .dispatch ∧ x.2.1.length = 18 ∧ placeOf x.2.1 = some x.2.2 ∧ s.judgePlace x.2.2 = none ∧
        x.2.2.start ≤ s.plantTime ∧ (s.slot 0).order = none ∧ s.linkBefore (s.candidate x.2.2 false) = none ∧
        s.linkAfter (s.candidate x.2.2 false) = none ∧ (s.unit 0).context = .orphan ∧ (s.waterway 0).spacing.isSome = true ∧
        (s.unit 0).link.lastReport = some ⟨x.1, 1500, .remote⟩ ∧ MachineState.adoptableAs x.1 = some x.2.2.mode ∧
        (s.waterway 0).genInhibit = true ∧ (s.waterway 0).pumpInhibit = true ∧ (s.unit 0).link.current = some cap) ∧
    cap.pmin < 2600 ∧ (cap.pmin : Int) < 1500 := by
  decide +kernel

theorem witness_PairAdmitted_checks :
    let p := offer .pump 101 500 0 0
    let q := { offer .generate 101 500 2600 50 with unit := 1 }
    let pump := fun n => { p with finish := some n }
    two.judgePair p q = none ∧
    (live .idle).judgePair p q = some .unitUnavailable ∧
    (two.setUnit 1 { inContext .idle with link := { up with current := some { cap with modes := 14 } } }).judgePair p q =
      some .modeNotSupported ∧
    two.judgePair p { q with target := 799 } = some .targetRange ∧ two.judgePair (pump 101) q = some .badWindow ∧
    (two.setWaterway 0 { two.waterway 0 with hAdm := 47001 }).judgePair p q = some .headRange ∧
    (holds { order .generate .held with unit := 1 } two).judgePair p q = some .overlap ∧
    (holds { order .condenseG .held with finish := some 101 } two).judgePair p q = some .changeoverShort ∧
    (holds { order .condenseG .held with start := 500, finish := none } two).judgePair p q = some .changeoverShort ∧
    (two.setWaterway 0 { two.waterway 0 with qgLim := 1 }).judgePair p q = some .flowLimit ∧
    ({ two with slots := Vector.replicate 64 { generation := 1, order := some (order .generate (.done .limit 9)) } }).judgePair p q =
      some .tableFull := by
  decide +kernel

/-! ## Grant opportunities of an OPEN gate (R109, R110) -/

/-- The gate of waterway 0 is OPEN over nothing, and this GENERATE order joins it. -/
def joins (inhibit : Bool) (limit : Nat) : State :=
  withDue (.startArrival 133) ((holds (order .generate .held) (live .idle)).setWaterway 0
    { (live .idle).waterway 0 with spacing := none, genInhibit := inhibit, qgLim := limit })

theorem witness_SpacingExpiryGrants_join :
    (∀ s ∈ [joins false 300, joins true 300, joins false 299],
      DueEvent.startArrival 133 ∈ s.due ∧ s.mode = .dispatch ∧ s.named = [] ∧ s.order? 133 = some (order .generate .held) ∧
        (order .generate .held).start = s.plantTime ∧ (s.unit 0).isolated = false ∧ (s.unit 0).context = .idle ∧
        (∀ p ∈ s.orders, p.2.unit = 0 → p.2.life ≠ .due) ∧ (s.unit 0).link.state = .up ∧ (s.unit 0).link.outstanding = none ∧
        (s.unit 0).link.current = some cap ∧ cap.genFlow cap.pmin (s.headFor 0) = 300 ∧ (s.waterway 0).spacing = none ∧
        (s.waterway 0).queue = [] ∧ 0 < (s.waterway 0).spacingTime ∧ (s.waterway 0).netFlow = 0) ∧
    ((joins false 300).waterway 0).genInhibit = false ∧ ((joins true 300).waterway 0).genInhibit = true := by
  decide +kernel

/-- The START entry of the order 133 of unit 0. -/
def waiting : GateEntry := { handle := 133, unit := 0, kind := .start, cls := .firm, rank := 0 }

/-- It waits at the OPEN gate of waterway 0, whose gauges are VALID at 615 m and 215 m, behind this inhibit and this limit; unit 1 is an
ORPHAN that still counts 50.0 m³/s. -/
def waits (inhibit : Bool) (limit : Nat) : State :=
  ((((holds (order .generate (.starting .awaitingGate)) (live .engaged)).setUnit 1
    { inContext .orphan with contribution := 500 }).setGauge 0 { Gauge.reset with state := .valid, level := some 61500 }).setGauge 1
    { Gauge.reset with state := .valid, level := some 21500 }).setWaterway 0
    { (live .engaged).waterway 0 with
      genInhibit := inhibit
      netFlow := 500
      qgLim := limit
      spacing := none
      queue := [waiting]
      nextRank := 1 }

theorem waits_open (inhibit : Bool) (limit : Nat) :
    (waits inhibit limit).WaitsOpen 0 waiting (order .generate (.starting .awaitingGate)) (cap.genFlow cap.pmin) :=
  ⟨rfl, show 0 < 60 by decide, rfl, rfl, rfl, rfl, rfl, rfl, rfl, rfl, rfl, cap, rfl, fun _ => rfl⟩

theorem witness_SpacingExpiryGrants_level : ∀ y ∈ [true, false],
    let s := waits y 1000
    let x := (s.gauge 0).receive 0 (telegram 0 61510 1)
    (s.waterway 0).upper = 0 ∧ (s.waterway 0).lower = 1 ∧ (s.waterway 1).upper = 2 ∧ (s.waterway 1).lower = 3 ∧
      x.level ≠ (s.gauge 0).level ∧ ((s.setGauge 0 x).headOf 0).1 = 40010 ∧ (s.waterway 0).netFlow = s.sumFlow 0 ∧
      (∀ v, s.headDependent v = false) ∧ pumpInhibitOf x (s.gauge 1) = false ∧ genInhibitOf x (s.gauge 1) = false ∧
      (s.waterway 0).netFlow + cap.genFlow cap.pmin 40010 ≤ (s.waterway 0).qgLim ∧ 40010 ≠ (s.waterway 0).liveHead := by
  decide +kernel

theorem witness_SpacingExpiryGrants_flow :
    let s := waits false 300
    s.WaitsOpen 0 waiting (order .generate (.starting .awaitingGate)) (cap.genFlow cap.pmin) ∧
      (s.waterway 0).genInhibit = false ∧ (s.unit 1).present = true ∧ (s.unit 1).waterway = 0 ∧ (1 : UnitNo) ≠ waiting.unit ∧
      (s.unit 1).link.state = .up ∧ (s.unit 1).link.sinceUp = true ∧ (s.unit 1).link.current.isSome = true ∧
      (s.unit 1).context = .orphan ∧ (∀ p ∈ s.orders, p.2.unit = 1 → p.2.life ≠ .due) ∧ (s.unit 1).contribution = 500 ∧
      (s.waterway 0).netFlow = s.sumFlow 0 ∧
      (s.waterway 0).netFlow - 500 + cap.genFlow cap.pmin (s.waterway 0).liveHead ≤ (s.waterway 0).qgLim :=
  ⟨waits_open _ _, by decide +kernel⟩

theorem witness_SpacingExpiryGrants_noSpacing :
    let r := order .generate (.stopping .awaitingGate .windowEnd)
    let s := withDue (.spacing 0) ((holds r (live .engaged)).setWaterway 0
      { (live .engaged).waterway 0 with
        spacing := some 0
        spacingTime := 0
        queue := [{ waiting with kind := .stop }, { waiting with kind := .stop, handle := 64, rank := 1 }] })
    DueEvent.spacing 0 ∈ s.due ∧ (s.waterway 0).spacing = some 0 ∧ (s.waterway 0).spacingTime = 0 ∧
      (∀ e ∈ (s.waterway 0).queue, e.kind = .stop) ∧ s.order? 133 = some r := by
  decide +kernel

theorem witness_RampPeriodSteps_atPmin :
    let s := (rampAt .running 800 1001).setUnit 0 { (rampAt .running 800 1001).unit 0 with ceiling := some 700 }
    DueEvent.ramp 0 ∈ s.due ∧ (s.unit 0).waterway = 0 ∧ (s.waterway 0).queue = [] ∧
      s.order? 133 = some (order .generate .running) ∧ (∀ p ∈ s.orders, p.2.life.engaged = true → p.1 = 133) ∧
      (s.unit 0).setpoint = some 800 ∧ (s.unit 0).link.silent = false ∧ s.capTime 0 (·.pmin) = 800 ∧
      (s.waterway 0).qgLim < (s.waterway 0).netFlow ∧ (s.unit 0).ceiling = some 700 := by
  decide +kernel

/-! ## Inhibits that a telegram sets (R159, R160) -/

/-- The state with its upper gauge 1 cm below its high limit and its lower gauge VALID, and no inhibit set. -/
def brink (s : State) : State :=
  (s.setGauge 0 { Gauge.reset with state := .valid, level := some 61999, highLimit := 62000, lowLimit := 61990 }).setGauge 1
    { Gauge.reset with state := .valid, level := some 21500 }

theorem witness_LevelsGiveFlagsInhibitsAndHead_stops :
    (∀ n ∈ [62000, 61990], ∀ r ∈ [order .pump .running, order .generate .running, order .pump (.starting .runup),
        order .generate (.starting .runup), order .condenseG .running, order .pump (.starting .awaitingGate)],
      let s := atPower 801 (brink (holds r (live .engaged)))
      let x := (s.gauge 0).receive 0 (telegram 0 n 1)
      x.level ≠ (s.gauge 0).level ∧ (s.waterway 0).upper = 0 ∧ (s.waterway 0).lower = 1 ∧ (s.waterway 1).upper = 2 ∧
        (s.waterway 1).lower = 3 ∧ s.named = [] ∧ (s.waterway 0).spacing.isSome = true ∧ s.order? 133 = some r ∧
        (s.unit 0).waterway = 0 ∧ (∀ p ∈ s.orders, p.1 = 133) ∧ (s.waterway 0).pumpInhibit = false ∧
        (s.waterway 0).genInhibit = false ∧ pumpInhibitOf x (s.gauge 1) = decide (n = 62000) ∧
        genInhibitOf x (s.gauge 1) = decide (n = 61990) ∧ (s.unit 0).setpoint = some 801 ∧ (s.unit 0).link.current = some cap ∧
        (s.unit 0).link.state = .up ∧ (s.unit 0).link.outstanding = none) ∧
    cap.pmin < 801 := by
  decide +kernel

theorem witness_LevelsGiveFlagsInhibitsAndHead_pair : ∀ n ∈ [62000, 61990], ∀ l ∈ [Life.running, .starting .pairHold],
    ∀ sense ∈ [PairSense.pumping, .generating],
    let s := brink (pairOn .engaged { pumpLeg .running with pairSense := some sense } { genLeg l with pairSense := some sense })
    let x := (s.gauge 0).receive 0 (telegram 0 n 1)
    x.level ≠ (s.gauge 0).level ∧ (s.waterway 0).spacing.isSome = true ∧ s.named = [] ∧ (s.unit 0).waterway = 0 ∧
      (s.unit 1).waterway = 0 ∧ (∀ p ∈ s.orders, p.1 = 133 ∨ p.1 = 134) ∧ (s.unit 1).setpoint = some 801 ∧
      (s.unit 1).link.current = some cap ∧ (s.waterway 0).pumpInhibit = false ∧ (s.waterway 0).genInhibit = false ∧
      pumpInhibitOf x (s.gauge 1) = decide (n = 62000) ∧ genInhibitOf x (s.gauge 1) = decide (n = 61990) ∧
      (∀ p ∈ s.orders, p.2.unit = 1 → p.2.life ≠ .due) := by
  decide +kernel

/-! ## A capability swap (R133, R135, R60), reports for engaged orders and pairs (R69 to R73, R81, R82), RELINK -/

/-- A link that is UP with another record, its pending exchange at this page. -/
def pendingUp (n : Nat) : Link :=
  { up with
    current := some { cap with pmin := 700 }
    collecting := some ((List.range (n + 1)).map page)
    lastPage := some (n, (page n).toggle) }

theorem witness_RecordCompleted_swap : ∀ l ∈ [Life.held, .due, .running], ∀ target ∈ [3400, 3401],
    let r := { order .generate l with target := target }
    let s := atPower 801 ((holds r (live .engaged)).setUnit 0 { inContext .engaged with link := pendingUp 3 })
    (s.unit 0).link.state = .up ∧ (s.unit 0).link.collecting = some [page 0, page 1, page 2, page 3] ∧
      (s.unit 0).link.lastPage = some (3, 1) ∧ s.named = [] ∧ s.order? 133 = some r ∧ (s.unit 0).waterway = 0 ∧
      (∀ p ∈ s.orders, p.1 = 133) ∧ (s.unit 0).setpoint = some 801 ∧ (s.waterway 0).spacing.isSome = true ∧
      (l = .running → s.engagedOrder 0 = some (133, r)) := by
  decide +kernel

/-- The swap at an OPEN gate: the one entry of its queue names the order 70 of unit 1, which waits for its start. -/
theorem witness_RecordCompleted_openGate :
    let s := (followedBy { order .condenseG (.starting .awaitingGate) with unit := 1 }
      ((holds (order .generate .held) (live .engaged)).setUnit 0 { inContext .engaged with link := pendingUp 3 })).setWaterway 0
        { (live .engaged).waterway 0 with spacing := none, queue := [⟨70, 1, .start, .firm, 0⟩] }
    (s.waterway 0).spacing.isSome = false ∧ s.order? 133 = some (order .generate .held) ∧
      (∀ e ∈ (s.waterway 0).queue, e.kind = .start ∧
        s.order? e.handle = some { order .condenseG (.starting .awaitingGate) with unit := 1 }) ∧
      ∀ p ∈ s.orders, p.2.unit = 0 → p.1 = 133 := by
  decide +kernel

/-- Unit 0 runs on converter 1 for the order 133. -/
def onConverter (m : Mode) : State :=
  ((holds (order m (.starting .converterRun)) (live .engaged)).setConverter 1
    { Converter.reset with state := .running 133 0 9 }).setUnit 0 { inContext .engaged with motion := true }

theorem witness_EngagedReportJudged_converter : ∀ m ∈ [Mode.pump, .condenseP],
    (onConverter m).engagedOrder 0 = some (133, order m (.starting .converterRun)) ∧
      ((onConverter m).converter 1).state = .running 133 0 9 ∧ 0 < ((onConverter m).converter 1).coolDown ∧
      ((onConverter m).converter 0).state = .cooling 600 ∧ ((onConverter m).unit 0).motion = true ∧
      ((onConverter m).unit 0).present = true ∧ ((onConverter m).unit 0).context = .engaged ∧
      ((onConverter m).unit 0).link.state = .up ∧ ((onConverter m).unit 0).link.sinceUp = true ∧ (onConverter m).named = [] ∧
      ((onConverter m).waterway 0).spacing.isSome = true ∧ 0 < ((onConverter m).waterway 0).spacingTime ∧
      (∀ p ∈ (onConverter m).orders, p.2.unit = 0 → p.2.life ≠ .due) := by
  decide +kernel

theorem witness_EngagedReportJudged_starts :
    ∀ r ∈ [order .pump (.starting .runup), order .condenseG (.starting .runup), order .pump (.starting .awaitingGate),
        order .generate (.stopping .unloading .limit), order .pump (.stopping .awaitingGate .limit)],
      let s := (holds r (live .engaged)).setUnit 0 { inContext .engaged with motion := true }
      s.engagedOrder 0 = some (133, r) ∧ (s.unit 0).link.current = some cap ∧ (s.unit 0).motion = true ∧
        (s.unit 0).context = .engaged ∧ (s.unit 0).link.state = .up ∧ (s.unit 0).link.sinceUp = true ∧
        (∀ c, (s.converter c).state ≠ .free) ∧ (s.waterway 0).spacing.isSome = true := by
  decide +kernel

theorem witness_EngagedReportJudged_pair :
    ∀ x ∈ [(Life.starting .runup, Life.starting .pairHold), (.running, .stopping .rundown .windowEnd), (.running, .running),
        (.running, .starting .runup)],
      let s := pair x.1 x.2
      s.engagedOrder 0 = some (133, pumpLeg x.1) ∧ s.engagedOrder 1 = some (134, genLeg x.2) ∧ s.named = [] ∧
        (∀ u : UnitNo, u = 0 ∨ u = 1 → (s.unit u).present = true ∧ (s.unit u).context = .engaged ∧ (s.unit u).link.state = .up ∧
          (s.unit u).link.sinceUp = true ∧ (s.waterway (s.unit u).waterway).spacing.isSome = true ∧
          0 < (s.waterway (s.unit u).waterway).spacingTime ∧ ∀ p ∈ s.orders, p.2.unit = u → p.2.life ≠ .due) := by
  decide +kernel

theorem witness_LinkRequestsTaken_engaged :
    let s := holds (order .pump .running) (live .engaged)
    (s.unit 0).present = true ∧ (s.unit 0).link.state = .up ∧ (s.unit 0).context = .engaged ∧
      s.engagedOrder 0 = some (133, order .pump .running) ∧ s.named = [] ∧ (pendingUp 3).state = .up ∧
      (pendingUp 3).collecting = some [page 0, page 1, page 2, page 3] ∧ up.collecting = none := by
  decide +kernel
/-! ## Rules of single steps -/

/-- R142: a frame that comes between a mark and the look that mark brings belongs to the second after the mark: at the next mark's look
the count is 0 again. -/
theorem test_frame_after_the_mark :
    let l := { up with silenceCount := 1, silent := true, heard := true }.count
    let s := (withDue (.linkSilence 0) (linked { l with silenceCount := 1 }))
    l.heardBefore = true ∧ l.heard = false ∧ ∀ t, exec (.linkSilenceCount 0) s = .next t →
      (t.unit 0).link.silenceCount = 0 ∧ (t.unit 0).link.silent = false := by
  refine ⟨rfl, rfl, ?_⟩
  intro t e; cases e; decide +kernel

/-- R122: the ceiling of an unloading order stays as it stood, where R120 removes those of the others. -/
theorem test_unloading_ceiling_stays : ∀ t,
    exec (.rampPeriodExpiry 0) ((rampAt (.stopping .unloading .limit) 2000 0).setUnit 0
      { (rampAt (.stopping .unloading .limit) 2000 0).unit 0 with ceiling := some 1900 }) = .next t →
    (t.unit 0).ceiling = some 1900 ∧ (t.unit 0).setpoint = some 1950 := by
  intro t e; cases e; decide +kernel

/-- R114: while the flow exceeds its limit, a setpoint at Pmin is not lowered to a ceiling that a swap has left below Pmin. -/
theorem test_no_step_below_pmin : ∀ t,
    exec (.rampPeriodExpiry 0) ((rampAt .running 800 1001).setUnit 0
      { (rampAt .running 800 1001).unit 0 with ceiling := some 700 }) = .next t → (t.unit 0).setpoint = some 800 := by
  intro t e; cases e; decide +kernel

/-- R32: a trial flow that saturates at a curtailment sets the indication, though the last report is one that no contribution follows
from (log entry 30). -/
theorem test_saturation_at_curtailment : ∀ t,
    exec (.rampPeriodExpiry 0) (((rampAt .running 3400 1001).setWaterway 0
        { (rampAt .running 3400 1001).waterway 0 with liveHead := 500 }).setUnit 0
      { (rampAt .running 3400 1001).unit 0 with
        link := { up with current := some { cap with pump := none }, lastReport := some ⟨.pumping, 0, .remote⟩ } }) = .next t →
    (t.unit 0).saturated = true := by
  intro t e; cases e; decide +kernel

/-- R193: two frames back to back on a link and one not yet ended; a line that stood with a frame begun ends it first. -/
theorem test_line_cut : linkCommands 3 [] (withCrc [7, 66, 2, 255, 241, 0] ++ withCrc [7, 66, 2, 255, 241, 0] ++ [7, 66]) =
      ([.stateReport 3 ⟨.generating, -15, .remote⟩, .stateReport 3 ⟨.generating, -15, .remote⟩], [7, 66]) ∧
    linkCommands 3 [2, 9] [9, 1] = ([.linkFrameBad 3], [1]) := by decide +kernel

/-- R160: a pumping pair is stopped by PUMP_INHIBIT through its GENERATE leg, the PUMP leg left RUNNING with its cause awaited. -/
theorem test_pair_stopped_by_its_sense :
    (match exec (.gaugeTelegram 0 (telegram 0 62000 1)) (brink (pair .running .running)) with
      | .next t => (t.order? 134, t.order? 133)
      | _ => (none, none)) =
    (some { genLeg (.stopping .unloading .limit) with unseen := true }, some { pumpLeg .running with awaited := some .limit }) := by
  decide +kernel

/-- R63: the awaited cause of a RUNNING PUMP leg goes with its engagement: a trip leaves the FAILED record without it. -/
theorem test_awaited_cause_released :
    (match exec (.stateReport 0 ⟨.tripped, 0, .remote⟩)
        (pairOn .engaged { pumpLeg .running with awaited := some .windowEnd } (genLeg .running)) with
      | .next t => (t.order? 133).map fun r => (r.life, r.awaited)
      | _ => none) = some (.failed .trip 100, none) := by
  decide +kernel

/-- R73: a GENERATE leg in PAIR_HOLD joins the gate in the event in which its PUMP leg becomes RUNNING. -/
theorem test_pair_hold_released : ∀ t,
    exec (.stateReport 0 ⟨.pumping, -3000, .remote⟩) (pair (.starting .runup) (.starting .pairHold)) = .next t →
    (t.order? 133).map (·.life) = some .running ∧ (t.order? 134).map (·.life) = some (.starting .awaitingGate) := by
  intro t e; cases e; decide +kernel

/-- R60: a record whose Pmax lies below the target lowers it, with the derated flag and the planned flow of the new target, which the
limit just allows; 0.1 m³/s less of limit, and the order fails. -/
theorem test_derated : ∀ limit ∈ [1140, 1139],
    (match exec (.pageReport 0 (page 4)) (((holds { order .generate .held with target := 3401 } (live .engaged)).setUnit 0
        { inContext .engaged with link := pendingUp 3 }).setWaterway 0 { (live .engaged).waterway 0 with qgLim := limit }) with
      | .next t => t.order? 133
      | _ => none) =
    some
      { order .generate (if limit = 1140 then .held else .failed .capability 100) with
        target := 3400
        derated := true
        plannedFlow := 1140
        unseen := true } := by
  decide +kernel

/-! ## Every step -/

theorem witness_StepKeepsLaws :
    step State.reset = .next State.reset ∧ State.reset.ClockLaw ∧ State.reset.named = [] ∧ State.reset.port.requestBuffer = [] :=
  ⟨rfl, ⟨by decide, by decide⟩, rfl, rfl⟩

end Sys2Proof.Tests
end

section
/-! # The windows of the records

`Kept` lets a record change in any way, so it does not carry the law of the windows. This part follows the same operations once more
for that law alone: what happens inside an event changes no start and no end (R45, R57), only PLACE, PLACE_PAIR and AMEND do. -/

namespace Sys2Proof.Machine

/-- The law of the windows, read off the slots (R45). -/
theorem windowLaw_iff {s : State} :
    s.WindowLaw ↔ ∀ k r, (s.slot k).order = some r → endsAfter r.start r.finish = true := by
  have ends : ∀ r : Order, (∀ e, r.finish = some e → r.start < e) ↔ endsAfter r.start r.finish = true := by
    intro r; unfold endsAfter; cases r.finish <;> simp
  refine ⟨fun w k r hr => (ends r).1 (w _ r (by rw [order?_handleOf]; exact hr)), fun w h r hr => (ends r).2 ?_⟩
  unfold State.order? at hr
  split at hr <;> [exact w _ r hr; cases hr]

namespace State.WindowLaw

variable {s : State}

/-! ## Elementary changes -/

/-- What leaves the table alone. -/
theorem elsewhere {t : State} (w : s.WindowLaw) (h : t.slots = s.slots := by rfl) : t.WindowLaw := by
  rw [windowLaw_iff] at w ⊢
  unfold State.slot at w ⊢
  rwa [h]

theorem unit {u : UnitNo} {f : UnitBlock → UnitBlock} (w : s.WindowLaw) : (s.modUnit u f).WindowLaw := w
theorem link {u : UnitNo} {f : Link → Link} (w : s.WindowLaw) : (s.modLink u f).WindowLaw := w
theorem water {v : WaterwayNo} {f : Waterway → Waterway} (w : s.WindowLaw) : (s.modWaterway v f).WindowLaw := w
theorem converter {c : ConverterNo} {f : Converter → Converter} (w : s.WindowLaw) : (s.modConverter c f).WindowLaw := w
theorem gauge {g : GaugeNo} {f : Gauge → Gauge} (w : s.WindowLaw) : (s.modGauge g f).WindowLaw := w
theorem raise {e : EventKind} (w : s.WindowLaw) : (s.raise e).WindowLaw := w
theorem startQueue {h : Handle} (w : s.WindowLaw) : (s.leaveStartQueue h).WindowLaw := w
theorem gateQueue {v : WaterwayNo} {h : Handle} (w : s.WindowLaw) : (s.leaveGate v h).WindowLaw := w

/-- A record may change in everything but its window. -/
theorem order {h : Handle} {f : Order → Order} (w : s.WindowLaw)
    (hf : ∀ r, (f r).start = r.start ∧ (f r).finish = r.finish := by exact fun _ => ⟨rfl, rfl⟩) :
    (s.modOrder h f).WindowLaw := by
  intro k r hr
  rw [order?_modOrder] at hr
  split at hr
  · obtain ⟨q, hq, rfl⟩ := Option.map_eq_some_iff.1 hr
    obtain ⟨hs, he⟩ := hf q
    rw [hs, he]; exact w h q hq
  · exact w k r hr

/-- A record enters a slot, or takes the place of the one there, with its end after its start. -/
theorem put {h : Handle} {r' : Order} (w : s.WindowLaw) (hr : endsAfter r'.start r'.finish = true) :
    (s.modOrder h fun _ => r').WindowLaw := by
  rw [windowLaw_iff] at w ⊢
  intro k r
  unfold State.modOrder
  split
  · rw [slot_setSlot]
    split
    · rintro ⟨⟩; exact hr
    · exact w k r
  · exact w k r

theorem record {k : SlotNo} {r' : Order} (w : s.WindowLaw) (hr : endsAfter r'.start r'.finish = true) :
    (s.enterRecord k r').WindowLaw := by
  rw [windowLaw_iff] at w ⊢
  intro j r
  unfold State.enterRecord
  rw [slot_setSlot]
  split
  · rintro ⟨⟩; exact hr
  · exact w j r

theorem unlinkTo {h : Handle} (w : s.WindowLaw) : (s.unlinkTo h).WindowLaw := by
  intro k r hr
  rw [order?_unlinkTo] at hr
  obtain ⟨q, hq, rfl⟩ := Option.map_eq_some_iff.1 hr
  split <;> exact w k q hq

theorem free {h : Handle} (w : s.WindowLaw) : (s.freeOrder h).WindowLaw := by
  unfold State.freeOrder
  split
  · have w' : (s.unlinkTo h).WindowLaw := w.unlinkTo
    rw [windowLaw_iff] at w' ⊢
    intro k r
    rw [slot_setSlot]
    split
    · rintro ⟨⟩
    · exact w' k r
  · exact w

/-! ## Machine/Ops.lean -/

theorem unlink {h : Handle} (w : s.WindowLaw) : (s.unlink h).WindowLaw := w.unlinkTo.order

theorem raiseFor {h : Handle} {e : EventKind} (w : s.WindowLaw) : (s.raiseFor h e).WindowLaw := by
  unfold State.raiseFor; split <;> exact w

theorem note {h : Handle} {e : EventKind} (w : s.WindowLaw) : (s.note h e).WindowLaw := by
  unfold State.note; split <;> [exact w; exact w.order.raise]

theorem enter {h : Handle} {l : Life} {e : EventKind} (w : s.WindowLaw) : (s.enter h l e).WindowLaw := w.order.note

theorem setContext {u : UnitNo} {c : Context} (w : s.WindowLaw) : (s.setContext u c).WindowLaw := by
  unfold State.setContext; dsimp only; split <;> exact w

theorem send {u : UnitNo} {d : Directive} (w : s.WindowLaw) : (s.send u d).WindowLaw := w

theorem ask {u : UnitNo} {d : Directive} (w : s.WindowLaw) : (s.ask u d).WindowLaw := by
  unfold State.ask
  dsimp only
  split
  · exact w
  · split
    · exact w.send
    · split <;> [(split <;> exact w); exact w]

theorem startSupervision {u : UnitNo} {n : Nat} (w : s.WindowLaw) : (s.startSupervision u n).WindowLaw := w
theorem stopSupervision {u : UnitNo} (w : s.WindowLaw) : (s.stopSupervision u).WindowLaw := w

theorem pick {n : Nat} (w : s.WindowLaw) : (s.pick n).2.WindowLaw := by
  unfold State.pick; split <;> exact w

theorem inFreeOrder {α : Type} {xs : List α} (w : s.WindowLaw) : (s.inFreeOrder xs).2.WindowLaw := by
  rw [(inFreeOrder_spec s xs).2]; exact w

/-! ## Machine/Flow.lean -/

theorem refresh {u : UnitNo} (w : s.WindowLaw) : (s.refreshContribution u).WindowLaw := by
  unfold State.refreshContribution; split <;> exact w

theorem refreshFlow {v : WaterwayNo} (w : s.WindowLaw) : (s.refreshFlow v).WindowLaw := w

theorem markSaturated {u : UnitNo} {b : Bool} (w : s.WindowLaw) : (s.markSaturated u b).WindowLaw := by
  unfold State.markSaturated; split <;> exact w

theorem refreshOutside {u : UnitNo} (w : s.WindowLaw) : (s.refreshOutside u).WindowLaw := by
  unfold State.refreshOutside; split <;> exact w

/-! ## Machine/Gate.lean -/

theorem markTest {e : GateEntry} (w : s.WindowLaw) : (s.markTest e).WindowLaw := by
  unfold State.markTest; split <;> [exact w.markSaturated; exact w]

theorem firstAllowed {v : WaterwayNo} {es : List GateEntry} (w : s.WindowLaw) : (State.firstAllowed v es s).1.WindowLaw := by
  induction es generalizing s with
  | nil => exact w
  | cons e es ih => unfold State.firstAllowed; split <;> [exact w.markTest; exact ih w.markTest]

theorem startGranted {h : Handle} (w : s.WindowLaw) : (s.startGranted h).WindowLaw := by
  unfold State.startGranted
  split
  · exact w
  · split <;> exact ask (order w)

theorem enterRundown {h : Handle} {r : Order} {c : DoneCause} (w : s.WindowLaw) : (s.enterRundown h r c).WindowLaw :=
  w.order.startSupervision

theorem stopGranted {h : Handle} (w : s.WindowLaw) : (s.stopGranted h).WindowLaw := by
  unfold State.stopGranted
  split
  · exact w
  · split <;> [exact w.enterRundown.ask; exact w]

theorem grantGate {v : WaterwayNo} {e : GateEntry} (w : s.WindowLaw) : (s.grantGate v e).WindowLaw := by
  unfold State.grantGate; split <;> [exact w.water.startGranted; exact w.water.stopGranted]

theorem gateLoop {v : WaterwayNo} {n : Nat} (w : s.WindowLaw) : (State.gateLoop v n s).WindowLaw := by
  induction n generalizing s with
  | zero => exact w
  | succ n ih =>
    have q := w.firstAllowed (v := v) (es := (s.waterway v).queue)
    unfold State.gateLoop
    split <;> rename_i h <;> rw [h] at q
    · exact q
    · split <;> [exact ih q.grantGate; exact q.grantGate]

theorem gateOpportunity {v : WaterwayNo} (w : s.WindowLaw) : (s.gateOpportunity v).WindowLaw := by
  unfold State.gateOpportunity; split <;> [exact w; exact w.gateLoop]

theorem joinGate {h : Handle} {r : Order} {kind : EntryKind} (w : s.WindowLaw) : (s.joinGate h r kind).WindowLaw :=
  w.water.gateOpportunity

theorem spacingExpired {v : WaterwayNo} (w : s.WindowLaw) : (s.spacingExpired v).WindowLaw := w.water.gateOpportunity

theorem tripGate {v : WaterwayNo} (w : s.WindowLaw) : (s.tripGate v).WindowLaw := w

theorem updateFlow {v : WaterwayNo} (w : s.WindowLaw) : (s.updateFlow v).WindowLaw := by
  unfold State.updateFlow; split <;> [exact w; exact w.refreshFlow.gateOpportunity]

theorem recompute {u : UnitNo} (w : s.WindowLaw) : (s.recompute u).WindowLaw := w.refresh.updateFlow

/-- A fold keeps the law when each of its steps does. -/
theorem foldl {α : Type} {f : State → α → State} (hf : ∀ {s a}, s.WindowLaw → (f s a).WindowLaw) {l : List α}
    (w : s.WindowLaw) : (l.foldl f s).WindowLaw :=
  Kept.foldl (P := State.WindowLaw) (fun _ _ => hf) l w

theorem takeHead {v : WaterwayNo} {h : Nat} {l : Bool} (w : s.WindowLaw) : (s.takeHead v h l).WindowLaw := by
  unfold State.takeHead
  refine foldl refreshOutside (refreshFlow (foldl (fun {t u} q => ?_) w.water))
  split <;> [exact q.refresh; exact q]

theorem updateHead {v : WaterwayNo} (w : s.WindowLaw) : (s.updateHead v).WindowLaw := by
  unfold State.updateHead
  dsimp only
  split <;> [exact w; exact w.takeHead.gateOpportunity]

theorem clearCurtailed {u : UnitNo} {n : Nat} (w : s.WindowLaw) : (s.clearCurtailed u n).WindowLaw := by
  unfold State.clearCurtailed
  split
  · split <;> [exact w.order; exact w]
  · exact w

theorem commitSetpoint {u : UnitNo} {n : Nat} (w : s.WindowLaw) : (s.commitSetpoint u n).WindowLaw :=
  w.unit.clearCurtailed.recompute.ask

/-! ## Machine/Arbiter.lean -/

theorem grantConverter {c : ConverterNo} {e : StartEntry} (w : s.WindowLaw) : (s.grantConverter c e).WindowLaw := by
  unfold State.grantConverter
  dsimp only
  split <;> [exact w; exact ask (order w)]

theorem walkEntry {e : StartEntry} (w : s.WindowLaw) : (s.walkEntry e).WindowLaw := by
  unfold State.walkEntry; split <;> [exact w.grantConverter; exact w]

theorem grantWalk (w : s.WindowLaw) : s.grantWalk.WindowLaw := foldl walkEntry w

theorem joinStartQueue {h : Handle} {r : Order} (w : s.WindowLaw) : (s.joinStartQueue h r).WindowLaw :=
  grantWalk (elsewhere w)

theorem setConverterState {c : ConverterNo} {x : ConverterState} (w : s.WindowLaw) : (s.setConverterState c x).WindowLaw := w

theorem cooled {c : ConverterNo} (w : s.WindowLaw) : (s.cooled c).WindowLaw := by
  unfold State.cooled; split <;> [exact w; exact w.setConverterState.grantWalk]

theorem startCooling {c : ConverterNo} (w : s.WindowLaw) : (s.startCooling c).WindowLaw := by
  unfold State.startCooling; dsimp only; split <;> [exact w.setConverterState.cooled; exact w]

theorem endRun {c : ConverterNo} (w : s.WindowLaw) : (s.endRun c).WindowLaw := by
  unfold State.endRun; split <;> [exact w; exact w.startCooling]

theorem releaseConverter {h : Handle} (w : s.WindowLaw) : (s.releaseConverter h).WindowLaw := by
  unfold State.releaseConverter; split <;> [exact w.endRun; exact w]

theorem runFailed {h : Handle} {u : UnitNo} (w : s.WindowLaw) : (s.runFailed h u).WindowLaw := w.order.startSupervision.ask

/-! ## Machine/Progress.lean -/

/-- A choice between two states that keep the law. -/
theorem either {c : Prop} [Decidable c] {a b : State} (wa : a.WindowLaw) (wb : b.WindowLaw) :
    (if c then a else b).WindowLaw := by split <;> assumption

theorem releaseItems {h : Handle} {r : Order} (w : s.WindowLaw) : (s.releaseItems h r).WindowLaw := by
  have w₁ := (w.startQueue (h := h)).gateQueue (h := h) (v := (s.unit r.unit).waterway)
  have w₂ := either (c := r.life = .starting .converterRun) (w₁.releaseConverter (h := h)) w₁
  exact unit (either w₂.order w₂)

theorem closeOrder {h : Handle} {e : Ending} (w : s.WindowLaw) : (s.closeOrder h e).WindowLaw := by
  unfold State.closeOrder
  split
  · exact w
  · exact either w.free.raiseFor w.enter

theorem endOrder {h : Handle} {e : Ending} (w : s.WindowLaw) : (s.endOrder h e).1.WindowLaw := by
  unfold State.endOrder
  split
  · exact w
  · rename_i r _
    split
    · have w₁ := either (c := r.life.engaged = true) (w.releaseItems (h := h) (r := r)) w
      have w₂ := either (c := e.unlinks = true) (w₁.unlink (h := h)) w₁
      have w₃ := w₂.closeOrder (h := h) (e := e)
      have w₄ := either (c := r.life.engaged = true) (w₃.setContext (u := r.unit) (c := e.context)) w₃
      exact either w₄.recompute w₄
    · exact w

theorem awaitStopGate {h : Handle} {r : Order} {c : DoneCause} (w : s.WindowLaw) : (s.awaitStopGate h r c).WindowLaw :=
  w.order.joinGate

theorem abortToRundown {h : Handle} {r : Order} {c : DoneCause} (w : s.WindowLaw) : (s.abortToRundown h r c).WindowLaw :=
  w.stopSupervision.enterRundown.note.ask

theorem stopEffect {h : Handle} {r : Order} {c : DoneCause} (w : s.WindowLaw) : (s.stopEffect h r c).1.WindowLaw := by
  unfold State.stopEffect
  split
  · have q := fun p => (w.enter (h := h) (l := .stopping p c) (e := .orderChanged)).recompute (u := r.unit)
    exact either (either (q _).awaitStopGate (q _)) (q _).joinGate
  · exact w.endOrder
  · exact w.endOrder
  · split <;> [exact w.gateQueue.abortToRundown; exact w.endOrder]
  · exact w.releaseConverter.abortToRundown
  · exact w.abortToRundown
  · exact w.stopSupervision.enterRundown.note
  · exact w

theorem stopNow {h : Handle} {c : DoneCause} (w : s.WindowLaw) : (s.stopNow h c).1.WindowLaw := by
  unfold State.stopNow
  split
  · exact w
  · split <;> [exact w.stopEffect; exact w.stopEffect; exact w]

theorem beginStop {h : Handle} {c : DoneCause} (w : s.WindowLaw) : (s.beginStop h c).1.WindowLaw := by
  unfold State.beginStop
  split
  · exact w
  · split
    · split
      · dsimp only; split <;> [exact stopNow (order w); exact w.order]
      · exact w.stopNow
    · exact w

theorem treatPartner {h : Handle} (w : s.WindowLaw) : (s.treatPartner h).1.WindowLaw := by
  unfold State.treatPartner
  split
  · exact w
  · split
    · exact w.endOrder
    · split <;> [exact w.order.stopNow; exact w.beginStop]

theorem treatGenerateLeg {h : Handle} (w : s.WindowLaw) : (s.treatGenerateLeg h).1.WindowLaw := by
  unfold State.treatGenerateLeg
  split
  · exact w
  · split <;> [exact w.endOrder; exact w]

theorem makeEntry {h : Handle} {r : Order} {p : StartPhase} (w : s.WindowLaw) : (s.makeEntry h r p).WindowLaw := by
  unfold State.makeEntry; split <;> [exact w.joinStartQueue; exact w.joinGate; exact w]

theorem engage {h : Handle} {r : Order} (w : s.WindowLaw) : (s.engage h r).WindowLaw :=
  w.setContext.enter.unit.makeEntry

theorem engageFirst {u : UnitNo} (w : s.WindowLaw) : (s.engageFirst u).WindowLaw := by
  unfold State.engageFirst
  split
  · split <;> [exact w.engage; exact w]
  · exact w

theorem engagementTest {u : UnitNo} (w : s.WindowLaw) : (s.engagementTest u).1.WindowLaw := by
  unfold State.engagementTest
  split
  · split <;> [exact w.endOrder; exact w]
  · exact w.engageFirst

theorem engagementTestOf {h : Handle} (w : s.WindowLaw) : (s.engagementTestOf h).1.WindowLaw := by
  unfold State.engagementTestOf
  split
  · exact w
  · split
    · split <;> [exact w.endOrder; exact w.engageFirst]
    · exact w

theorem latenessTest {h : Handle} (w : s.WindowLaw) : (s.latenessTest h).1.WindowLaw := by
  unfold State.latenessTest
  split
  · exact w
  · split <;> [exact w.endOrder; exact w]

theorem releasePairHold {r : Order} (w : s.WindowLaw) : (s.releasePairHold r).WindowLaw := by
  unfold State.releasePairHold
  split
  · split
    · split <;> [exact w.order.joinGate; exact w]
    · exact w
  · exact w

theorem completeStart {h : Handle} {r : Order} (w : s.WindowLaw) : (s.completeStart h r).WindowLaw := by
  have q := (w.order (h := h) (f := fun r => { r with actualStart := some s.plantTime })).enter (h := h) (l := .running)
    (e := .orderChanged) |>.stopSupervision (u := r.unit)
  exact either q.unit.commitSetpoint q.recompute.releasePairHold

theorem handOverRecords {a b : Handle} {r : Order} (w : s.WindowLaw) : (s.handOverRecords a b r).WindowLaw :=
  enter (order w.closeOrder)

theorem handOverSetpoint {u : UnitNo} {n : Nat} (w : s.WindowLaw) : (s.handOverSetpoint u n).WindowLaw := by
  unfold State.handOverSetpoint
  split
  · split <;> [exact w.commitSetpoint; exact w.unit.recompute]
  · exact w.recompute

theorem handOver {a b : Handle} {r q : Order} (w : s.WindowLaw) : (s.handOver a b r q).WindowLaw := by
  have p := w.handOverRecords (a := a) (b := b) (r := r)
  exact either (either p.handOverSetpoint p.recompute) (elsewhere p)

theorem startArrival {h : Handle} (w : s.WindowLaw) : (s.startArrival h).1.WindowLaw := by
  unfold State.startArrival
  split
  · split <;> [exact w.enter; exact w]
  · exact w

theorem endActive {h : Handle} (w : s.WindowLaw) : (s.endActive h).1.WindowLaw := by
  unfold State.endActive
  split
  · exact w
  · split
    · exact w.endOrder
    · split
      · split <;> [exact w.handOver; exact w.beginStop]
      · exact w

theorem endArrival {h : Handle} (w : s.WindowLaw) : (s.endArrival h).1.WindowLaw := by
  unfold State.endArrival
  split
  · exact w
  · split <;> [exact w.startArrival; exact w.endActive]

theorem runTask {t : Task} (w : s.WindowLaw) : (s.runTask t).1.WindowLaw := by
  cases t with
  | stop h c => exact w.beginStop
  | partnerEnded h => exact w.treatPartner
  | pumpStopped h => exact w.treatGenerateLeg
  | engagement u => exact w.engagementTest
  | engagementOf h => exact w.engagementTestOf
  | lateness h => exact w.latenessTest
  | endArrival h => exact w.endActive

theorem settle {ts : List Task} (w : s.WindowLaw) : (s.settle ts).WindowLaw := by
  unfold State.settle
  generalize Config.cascadeBound = n
  induction n generalizing s ts with
  | zero => exact w
  | succ n ih =>
    cases ts with
    | nil => exact w
    | cons t ts => exact ih w.runTask

theorem finish {x : Work} (w : x.1.WindowLaw) : x.finish.WindowLaw := w.settle

/-! ## Machine/Converters.lean -/

theorem runTimedOut {c : ConverterNo} (w : s.WindowLaw) : (s.runTimedOut c).WindowLaw := by
  unfold State.runTimedOut; split <;> [exact w.endRun.runFailed; exact w]

theorem cooledDown {c : ConverterNo} (w : s.WindowLaw) : (s.cooledDown c).WindowLaw := by
  unfold State.cooledDown; split <;> [exact w.cooled; exact w]

theorem faultAsserted {c : ConverterNo} (w : s.WindowLaw) : (s.faultAsserted c).WindowLaw := by
  unfold State.faultAsserted
  dsimp only
  split <;> [exact w; exact w.converter.converter.setConverterState.runFailed; exact w]

theorem takeOut {c : ConverterNo} (w : s.WindowLaw) : (s.takeOut c).WindowLaw := by
  unfold State.takeOut; split <;> exact w

/-! ## Machine/Gauges.lean -/

theorem raiseIf {e : EventKind} {b : Bool} (w : s.WindowLaw) : (s.raiseIf e b).WindowLaw := either w.raise w

theorem inhibitPair {i : InhibitsSet} {h : Handle} {r : Order} (w : s.WindowLaw) : (s.inhibitPair i h r).WindowLaw := by
  have alone : (if i.pump && r.life.movesWater then (s.beginStop h .limit).finish else s).WindowLaw :=
    either w.beginStop.finish w
  unfold State.inhibitPair
  dsimp only
  split
  · exact either w (either (either w.beginStop.finish.beginStop.finish w) alone)
  · exact alone

theorem inhibitUnit {i : InhibitsSet} {u : UnitNo} (w : s.WindowLaw) : (State.inhibitUnit i s u).WindowLaw := by
  unfold State.inhibitUnit
  split
  · exact either (either w.inhibitPair w) (either w.beginStop.finish w)
  · exact w

theorem evaluateInhibits {v : WaterwayNo} (w : s.WindowLaw) : (s.evaluateInhibits v).WindowLaw := by
  unfold State.evaluateInhibits
  dsimp only
  refine either (gateOpportunity ?_) ?_ <;> exact either (foldl inhibitUnit w.water.raiseIf) w.water.raiseIf

theorem inhibitsOf {g : GaugeNo} (w : s.WindowLaw) : (s.inhibitsOf g).WindowLaw := foldl evaluateInhibits w

theorem headsOf {g : GaugeNo} (w : s.WindowLaw) : (s.headsOf g).WindowLaw := foldl updateHead w

theorem gaugeChanged {g : GaugeNo} {old : Gauge} (w : s.WindowLaw) : (s.gaugeChanged g old).WindowLaw :=
  either w.raiseIf.headsOf.inhibitsOf w.raiseIf

theorem gaugeSilence {g : GaugeNo} (w : s.WindowLaw) : (s.gaugeSilence g).WindowLaw := w.gauge.raiseIf

/-! ## Machine/Admission.lean -/

theorem writeLinks {h : Handle} {before after : Option Handle} (w : s.WindowLaw) : (s.writeLinks h before after).WindowLaw := by
  unfold State.writeLinks
  dsimp only
  split <;> split
  · exact w.order.unlinkTo.order
  · exact w.unlinkTo.order
  · exact w.order
  · exact w

theorem adopt {h : Handle} {o : Offer} (w : s.WindowLaw) : (s.adopt h o).WindowLaw := by
  unfold State.adopt
  refine either (finish (beginStop ?_)) ?_ <;> exact either w.setContext.unit.commitSetpoint w.setContext.recompute

theorem arriveIfNow {h : Handle} {n : Nat} (w : s.WindowLaw) : (s.arriveIfNow h n).WindowLaw := either w.startArrival.finish w

theorem arriveBoth {a b : Handle} {n : Nat} (w : s.WindowLaw) : (s.arriveBoth a b n).WindowLaw := by
  unfold State.arriveBoth
  split
  · dsimp only; exact foldl (fun q => q.startArrival.finish) w.inFreeOrder
  · exact w

theorem lowerToTarget {h : Handle} (w : s.WindowLaw) : (s.lowerToTarget h).WindowLaw := by
  unfold State.lowerToTarget
  split
  · split
    · split <;> [exact either w.commitSetpoint w; exact w]
    · exact w
  · exact w

theorem amendedArrival {a : Amendment} {h : Handle} (w : s.WindowLaw) : (s.amendedArrival a h).WindowLaw := by
  unfold State.amendedArrival
  split
  · exact either (either w.startArrival.finish w) (either w.endArrival.finish w)
  · exact w

theorem derate {h : Handle} {r : Order} {c : Capability} (w : s.WindowLaw) : (s.derate h r c).WindowLaw :=
  either w.order.note w

theorem replan {h : Handle} (w : s.WindowLaw) : (s.replan h).WindowLaw := by
  unfold State.replan
  split
  · exact w
  · split <;> [exact w; exact either w.markSaturated w.markSaturated.order.note]

theorem endInfeasible {h : Handle} {r : Order} (w : s.WindowLaw) : (s.endInfeasible h r).WindowLaw := by
  unfold State.endInfeasible; apply finish; split <;> [exact w.endOrder; exact w.beginStop]

theorem boundSetpoint {r : Order} (w : s.WindowLaw) : (s.boundSetpoint r).WindowLaw := by
  unfold State.boundSetpoint
  split
  · split <;> [exact either w.commitSetpoint (either w.commitSetpoint w); exact w]
  · exact w

theorem recheckOrder {c : Capability} {x : State × List Handle} {h : Handle} (w : x.1.WindowLaw) :
    (State.recheckOrder c x h).1.WindowLaw := by
  unfold State.recheckOrder
  split
  · exact w
  · split
    · dsimp only
      split
      · exact w.derate.replan
      · split <;> [exact w.derate.replan.boundSetpoint; exact w.derate.replan.endInfeasible]
    · exact w

/-- A fold over states with something beside them keeps the law when each of its steps does. -/
theorem foldlFst {α β : Type} {f : State × β → α → State × β} (hf : ∀ {x a}, x.1.WindowLaw → (f x a).1.WindowLaw)
    {l : List α} {x : State × β} (w : x.1.WindowLaw) : (l.foldl f x).1.WindowLaw :=
  Kept.foldlFst (P := State.WindowLaw) (fun _ _ => hf) l w

theorem recheck {u : UnitNo} {c : Capability} (w : s.WindowLaw) : (s.recheck u c).WindowLaw :=
  foldlFst (x := (s, [])) recheckOrder w

/-! ## Machine/Links.lean -/

theorem darken {u : UnitNo} (w : s.WindowLaw) : (s.darken u).WindowLaw := by
  unfold State.darken; split <;> [exact w.endOrder.finish; exact w.setContext]

theorem loseLink {u : UnitNo} {x : LinkState} (w : s.WindowLaw) : (s.loseLink u x).WindowLaw := w.unit.raise.darken

theorem frameError {u : UnitNo} (w : s.WindowLaw) : (s.frameError u).WindowLaw := either w.link.loseLink w.link

theorem validFrame {u : UnitNo} (w : s.WindowLaw) : (s.validFrame u).WindowLaw := w.link

theorem swapped {u : UnitNo} {c : Capability} (w : s.WindowLaw) : (s.swapped u c).WindowLaw :=
  w.recompute.refreshOutside.recheck.raise

theorem linkUp {u : UnitNo} {c : Capability} (w : s.WindowLaw) : (s.linkUp u c).WindowLaw :=
  either w.link.raise.swapped w.link.raise.refreshOutside

theorem completeRecord {u : UnitNo} {ps : List Page} (w : s.WindowLaw) : (s.completeRecord u ps).WindowLaw := by
  unfold State.completeRecord; split <;> [exact w.link.swapped; exact w; exact w.linkUp; exact w]

theorem takePage {u : UnitNo} {p : Page} {ps : List Page} (w : s.WindowLaw) : (s.takePage u p ps).WindowLaw :=
  elsewhere w

theorem outOfSequence {u : UnitNo} (w : s.WindowLaw) : (s.outOfSequence u).WindowLaw := w.link.frameError

theorem judgePage {u : UnitNo} {p : Page} (w : s.WindowLaw) : (s.judgePage u p).WindowLaw := by
  unfold State.judgePage
  dsimp only
  split
  · exact w
  · split
    · exact w.takePage
    · split <;> [exact either w.takePage.completeRecord w.takePage; exact w.outOfSequence]

theorem pageReceived {u : UnitNo} {p : Page} (w : s.WindowLaw) : (s.pageReceived u p).WindowLaw :=
  either w.validFrame.judgePage (either w.link.judgePage w)

theorem sendNext {u : UnitNo} (w : s.WindowLaw) : (s.sendNext u).WindowLaw := by
  unfold State.sendNext; split <;> [exact w.link.send; exact w.unit.send; exact w]

theorem judgeAck {u : UnitNo} {kind toggle : Byte} (w : s.WindowLaw) : (s.judgeAck u kind toggle).WindowLaw := by
  unfold State.judgeAck
  dsimp only
  split
  · exact w
  · split <;> [exact either w.link.sendNext w.frameError; exact w.frameError]

theorem ackReceived {u : UnitNo} {kind toggle : Byte} (w : s.WindowLaw) : (s.ackReceived u kind toggle).WindowLaw := by
  unfold State.ackReceived; split <;> [exact w.validFrame.judgeAck; exact w.validFrame; exact w]

theorem synced {h : Handle} {r : Order} (w : s.WindowLaw) : (s.synced h r).WindowLaw := by
  have q := releaseConverter (h := h) (unit (u := r.unit) (f := fun b => { b with motion := true }) w)
  exact either q.order.joinGate q.completeStart

theorem coasted {h : Handle} {r : Order} (w : s.WindowLaw) : (s.coasted h r).1.WindowLaw := by
  unfold State.coasted; split <;> [exact w.stopSupervision.order.joinStartQueue; exact w.endOrder]

theorem advancePhase {h : Handle} {r : Order} (w : s.WindowLaw) : (s.advancePhase h r).1.WindowLaw := by
  unfold State.advancePhase
  split <;> [exact w.synced; exact w.coasted; exact w.completeStart; exact w.endOrder; exact w]

theorem judgeReport {h : Handle} {r : Order} {x : Report} (w : s.WindowLaw) : (s.judgeReport h r x).1.1.WindowLaw := by
  unfold State.judgeReport
  split
  · exact w.endOrder
  · split
    · exact w.endOrder
    · split
      · exact w.endOrder
      · split <;> [exact w.advancePhase; exact w; exact w.unit; exact w]

theorem takeReport {u : UnitNo} {x : Report} {b : Bool} (w : s.WindowLaw) : (s.takeReport u x b).1.1.WindowLaw := by
  unfold State.takeReport
  split
  · exact w.setContext
  · split
    · split <;> [exact w.judgeReport; exact w]
    · exact w.setContext

theorem storeReport {u : UnitNo} {x : Report} (w : s.WindowLaw) : (s.storeReport u x).WindowLaw := w.link

theorem reportReceived {u : UnitNo} {x : Report} (w : s.WindowLaw) : (s.reportReceived u x).WindowLaw := by
  unfold State.reportReceived
  refine either (frameError ?_) ?_ <;>
    exact settle (recompute (takeReport (storeReport (either w.validFrame.tripGate w.validFrame))))

theorem stateReceived {u : UnitNo} {x : Report} (w : s.WindowLaw) : (s.stateReceived u x).WindowLaw := by
  unfold State.stateReceived; split <;> [exact w.reportReceived; exact w.validFrame; exact w]

theorem silenceLook {u : UnitNo} (w : s.WindowLaw) : (s.silenceLook u).WindowLaw :=
  either (either w.link (either w.link.loseLink w.link)) w

theorem fromPresent {u : UnitNo} {f : State → State} (w : s.WindowLaw) (hf : (f s).WindowLaw) : (s.fromPresent u f).WindowLaw :=
  either hf w

/-! ## Machine/Ramp.lean -/

theorem curtailUnit {c : DispatchClass} {x : State × Int} {u : UnitNo} (w : x.1.WindowLaw) :
    (State.curtailUnit c x u).1.WindowLaw := by
  obtain ⟨t, e⟩ := x
  replace w : t.WindowLaw := w
  unfold State.curtailUnit
  dsimp only
  split
  · split
    · dsimp only; exact order (unit (commitSetpoint (markSaturated w)))
    · exact w
  · exact w

theorem setUnresolved {v : WaterwayNo} (w : s.WindowLaw) : (s.setUnresolved v).WindowLaw := either w w

theorem curtail {v : WaterwayNo} (w : s.WindowLaw) : (s.curtail v).WindowLaw := by
  have q := fun (us : List UnitNo) (e : Int) => foldlFst (f := State.curtailUnit .firm) (l := us) curtailUnit
    (foldlFst (f := State.curtailUnit .flexible) (l := us) (x := (s, e)) curtailUnit w)
  exact either (q _ _).setUnresolved (q _ _)

theorem removeCeilings {v : WaterwayNo} (w : s.WindowLaw) : (s.removeCeilings v).WindowLaw :=
  water (foldl (fun q => either q q.unit) w)

theorem stepUp {u : UnitNo} {n d a : Nat} (w : s.WindowLaw) : (s.stepUp u n d a).1.WindowLaw :=
  either w.markSaturated w.markSaturated.commitSetpoint

theorem stepDown {u : UnitNo} {n d a : Nat} (w : s.WindowLaw) : (s.stepDown u n d a).1.WindowLaw :=
  either w.markSaturated w.markSaturated.commitSetpoint

theorem visit {x : State × Nat} {u : UnitNo} (w : x.1.WindowLaw) : (State.visit x u).1.WindowLaw := by
  obtain ⟨t, a⟩ := x
  replace w : t.WindowLaw := w
  unfold State.visit
  dsimp only
  split
  · split
    · exact w
    · split <;> [exact w.stepUp; exact w.stepDown]
  · exact w

theorem walk {v : WaterwayNo} (w : s.WindowLaw) : (s.walk v).WindowLaw :=
  water (foldlFst (x := (s, (s.waterway v).allowance)) visit w)

theorem unloadUnit {u : UnitNo} (w : s.WindowLaw) : (s.unloadUnit u).WindowLaw := by
  unfold State.unloadUnit
  split
  · split
    · refine either (awaitStopGate ?_) ?_ <;> exact either w w.commitSetpoint
    · exact w
  · exact w

theorem unload {v : WaterwayNo} (w : s.WindowLaw) : (s.unload v).WindowLaw := foldl unloadUnit w.inFreeOrder

theorem judgePumpExcess {v : WaterwayNo} (w : s.WindowLaw) : (s.judgePumpExcess v).WindowLaw := either w w

theorem rampPeriod {v : WaterwayNo} (w : s.WindowLaw) : (s.rampPeriod v).WindowLaw := by
  unfold State.rampPeriod
  exact judgePumpExcess (unload (walk (either w.curtail w.removeCeilings)))

/-! ## Machine/Units.lean -/

theorem supervisionExpired {u : UnitNo} (w : s.WindowLaw) : (s.supervisionExpired u).WindowLaw := by
  unfold State.supervisionExpired
  split
  · split
    · split <;> [exact w.ask.endOrder.finish; exact w.endOrder.finish; exact w.endOrder.finish; exact w]
    · exact w
  · exact w

theorem haltEngaged {u : UnitNo} (w : s.WindowLaw) : (s.haltEngaged u).WindowLaw := by
  unfold State.haltEngaged; split <;> [exact w.tripGate.endOrder.ask.settle; exact w]

/-! ## Machine/Clock.lean -/

theorem effect {e : DueEvent} (w : s.WindowLaw) : (e.effect s).WindowLaw := by
  cases e with
  | startArrival h => exact either w.startArrival.finish w
  | endArrival h => exact either w.endArrival.finish w
  | latenessArrival h => exact either w.latenessTest.finish w
  | supervision u => exact w.supervisionExpired
  | run c => exact w.runTimedOut
  | coolDown c => exact w.cooledDown
  | spacing v => exact either w.spacingExpired w
  | ramp v => show (s.rampPeriod v).WindowLaw; exact w.rampPeriod
  | hello u => exact either w w
  | ack u => exact either w.loseLink w
  | burst u => exact either w.link w
  | linkSilence u => exact w.silenceLook
  | gaugeSilence g => exact w.gaugeSilence

theorem takeDue {e : DueEvent} (w : s.WindowLaw) : (s.takeDue e).WindowLaw := either (effect (elsewhere w)) w

theorem takeAll {n : Nat} {es : List DueEvent} (w : s.WindowLaw) : (Machine.takeAll n es s).WindowLaw := by
  induction n generalizing es s with
  | zero => exact w
  | succ n ih =>
    unfold Machine.takeAll
    dsimp only
    split <;> [exact ih w.pick.effect; exact w.pick]

theorem takeThose {f : DueEvent → Bool} (w : s.WindowLaw) : (s.takeThose f).WindowLaw := takeAll (elsewhere w)

theorem advance (w : s.WindowLaw) : s.advance.1.WindowLaw := by
  unfold State.advance; split <;> [exact w; (split <;> exact w)]

theorem secondMark (w : s.WindowLaw) : s.secondMark.WindowLaw :=
  elsewhere (advance (elsewhere (t := (s.takeThose fun _ => true).countMark) w.takeThose))

theorem examine {k : SlotNo} (w : s.WindowLaw) : (s.examine k).WindowLaw := by
  unfold State.examine
  split
  · exact w
  · exact either (either w.endOrder.finish (either w.startArrival.finish w)) w

theorem examineHeld (w : s.WindowLaw) : s.examineHeld.WindowLaw := foldl examine w

theorem trimForward {n : Nat} (w : s.WindowLaw) : (Machine.trimForward n s).WindowLaw := by
  induction n generalizing s with
  | zero => exact w
  | succ n ih => exact either (ih (takeAll (elsewhere w))) w

/-! ## Admission: the windows that PLACE, PLACE_PAIR and AMEND write -/

end State.WindowLaw

/-- Checks that none fails pass every one of them. -/
theorem passes_of_firstFailure {l : List (Option Result)} (h : firstFailure l = none) {x : Option Result} (hx : x ∈ l) :
    x = none := List.findSome?_eq_none_iff.1 h x hx

theorem holds_of_unlessHolds {p : Bool} {r : Result} (h : unlessHolds p r = none) : p = true := by
  unfold unlessHolds at h; split at h <;> [assumption; cases h]

/-- An admitted order ends after the start it is given (R45). -/
theorem placed_endsAfter {s : State} {o : Offer} (h : s.judgePlace o = none) : endsAfter (s.fixStart o.start) o.finish = true :=
  holds_of_unlessHolds (r := .badWindow) (passes_of_firstFailure h (by simp [State.candidate]))

/-- Both legs of an admitted pair end after their start (R45, R54). -/
theorem paired_endsAfter {s : State} {body : List Byte} {o : Offer × Offer} (ho : pairOf body = some o)
    (h : s.judgePair o.1 o.2 = none) :
    endsAfter (s.fixStart o.1.start) o.1.finish = true ∧ endsAfter (s.fixStart o.2.start) o.2.finish = true := by
  have first : endsAfter (s.fixStart o.1.start) o.1.finish = true :=
    holds_of_unlessHolds (r := .badWindow) (passes_of_firstFailure h (by simp [State.candidate]))
  have same : o.1.start = o.2.start ∧ o.1.finish = o.2.finish := by
    unfold pairOf at ho
    split at ho
    · obtain ⟨q, -, rfl⟩ := Option.map_eq_some_iff.1 ho; exact ⟨rfl, rfl⟩
    · cases ho
  exact ⟨first, by rw [← same.1, ← same.2]; exact first⟩

/-- What AMEND makes of a window depends on the state by plant time alone (R57). -/
theorem amendRecord_window (s : State) (r : Order) (a : Amendment) :
    (s.amendRecord r a).start = (a.start.map fun t => max t s.plantTime).getD r.start ∧
      (s.amendRecord r a).finish = a.finish.getD r.finish := by
  unfold State.amendRecord State.amendedStart State.fixStart
  dsimp only
  split <;> cases a.start <;> exact ⟨rfl, rfl⟩

/-- A record whose amendment its state permits and check 5 passes ends after its start (R45, R57). -/
theorem amended_endsAfter {s : State} {r : Order} {a : Amendment} (w : endsAfter r.start r.finish = true)
    (permits : r.life.permits a = true) (right : s.amendedWindowRight r a = true) :
    endsAfter ((a.start.map fun t => max t s.plantTime).getD r.start) (a.finish.getD r.finish) = true := by
  obtain ⟨hs, -⟩ := amendRecord_window s r a
  unfold State.amendedWindowRight at right
  split at right
  · rw [← hs]; unfold State.amendRecord; split <;> exact right
  · rename_i held
    have hs : a.start = none := by
      revert permits held; unfold Life.permits; cases r.life <;> simp <;> intro h _ _ <;> exact h
    rw [hs]
    revert right
    rcases a.finish with _ | _ | e
    · exact fun _ => w
    · exact fun _ => rfl
    · simp [endsAfter]

/-- The records an AMEND changes are records of the table, whose states permit it once those of the pair do (R59). -/
theorem mem_amendedLegs {s : State} {h : Handle} {r : Order} {a : Amendment} (hr : s.order? h = some r)
    (permits : s.permitsAll r a = true) {p : Handle × Order} (hp : p ∈ s.amendedLegs h r a) :
    s.order? p.1 = some p.2 ∧ p.2.life.permits a = true := by
  unfold State.permitsAll at permits
  unfold State.amendedLegs at hp
  obtain ⟨own, other⟩ := (Bool.and_eq_true _ _).mp permits
  have self : ∀ {p : Handle × Order}, p = (h, r) → s.order? p.1 = some p.2 ∧ p.2.life.permits a = true := by
    rintro _ rfl; exact ⟨hr, own⟩
  split at hp
  · rename_i k hk
    rw [hk] at other
    split at hp
    · rename_i q hq
      have partner : ∀ {p : Handle × Order}, p = (k, q) → s.order? p.1 = some p.2 ∧ p.2.life.permits a = true := by
        rintro _ rfl; exact ⟨hq, by simpa [hq] using other⟩
      split at hp
      · split at hp <;> simp only [List.mem_cons, List.not_mem_nil, or_false] at hp <;> rcases hp with hp | hp
        exacts [self hp, partner hp, partner hp, self hp]
      · exact self (by simpa using hp)
    · exact self (by simpa using hp)
  · exact self (by simpa using hp)

/-- Within an event plant time, trim, port and the named handles stand. -/
theorem kept_clock (Q : Nat → Nat → Port → List Handle → Prop) :
    KeptFreely fun s => Q s.plantTime s.pendingTrim s.port s.named where
  raise _ _ p := p
  order s h f p := by unfold State.modOrder; split <;> exact p
  unlinkTo _ _ p := p
  free s h p := by unfold State.freeOrder; split <;> exact p
  record _ _ _ p := p
  picks _ _ p := p
  leaveStart _ _ p := p
  joinStart _ _ p := p
  handOver _ _ _ _ p := p
  unit _ _ _ _ p := p
  send _ _ _ _ _ p := p
  contribution s u p := by unfold State.refreshContribution; split <;> exact p
  water _ _ _ _ p := p
  joinGate _ _ _ _ _ _ p := p
  converter _ _ _ _ p := p
  refresh s u p := by unfold State.refreshContribution; split <;> exact p
  waterItems _ _ _ _ _ p := p
  anyGauge _ _ _ p := p

namespace State.WindowLaw

variable {s : State}

/-- One amended record is written with its window right. -/
theorem writeAmended {a : Amendment} {p : Handle × Order} (w : s.WindowLaw)
    (right : endsAfter ((a.start.map fun t => max t s.plantTime).getD p.2.start) (a.finish.getD p.2.finish) = true) :
    (s.writeAmended a p).WindowLaw := by
  obtain ⟨hs, he⟩ := amendRecord_window s p.2 a
  exact writeLinks (put (either w.markSaturated w) (by rw [hs, he]; exact right))

/-- Amended records are written one after another, the present plant time being one for all of them. -/
theorem writeAll {a : Amendment} {n : Nat} {legs : List (Handle × Order)} (w : s.WindowLaw) (now : s.plantTime = n)
    (right : ∀ p ∈ legs, endsAfter ((a.start.map fun t => max t n).getD p.2.start) (a.finish.getD p.2.finish) = true) :
    (legs.foldl (fun s p => s.writeAmended a p) s).WindowLaw := by
  induction legs generalizing s with
  | nil => exact w
  | cons p legs ih =>
    refine ih (w.writeAmended (by rw [now]; exact right p List.mem_cons_self)) ?_
      fun q hq => right q (List.mem_cons_of_mem _ hq)
    exact (kept_clock fun m _ _ _ => m = n).writeAmended a p now

/-! ## The owners of the requests -/

open KeptInside (OfAnswer ofField ofOrder)

theorem placeOrder {o : Offer} (w : s.WindowLaw) : OfAnswer State.WindowLaw (s.placeOrder o) := by
  unfold State.placeOrder
  split
  · trivial
  · rename_i passed _
    unfold State.admitOrder
    dsimp only [OfAnswer]
    refine either (adopt ?_) (arriveIfNow ?_) <;>
      exact writeLinks (record (elsewhere w.markSaturated) (placed_endsAfter passed))
  · trivial

theorem placePair {body : List Byte} {o : Offer × Offer} (ho : pairOf body = some o) (w : s.WindowLaw) :
    OfAnswer State.WindowLaw (s.placePair o) := by
  unfold State.placePair
  split
  · trivial
  · rename_i passed _
    obtain ⟨pumpLeg, genLeg⟩ := paired_endsAfter ho passed
    unfold State.admitPair
    dsimp only [OfAnswer]
    exact arriveBoth (record (record (elsewhere w.markSaturated.markSaturated) pumpLeg) genLeg)
  · trivial

theorem amendOrder {h : Handle} {r : Order} {a : Amendment} (w : s.WindowLaw) (hr : s.order? h = some r) :
    OfAnswer State.WindowLaw (s.amendOrder h r a) := by
  unfold State.amendOrder
  split
  · trivial
  · rename_i passed
    have permits := holds_of_unlessHolds (passes_of_firstFailure passed (x := unlessHolds (s.permitsAll r a) .wrongState) (by simp))
    have judged := passes_of_firstFailure passed (x := s.judgeAmended a (s.amendedLegs h r a)) (by simp)
    have windows := holds_of_unlessHolds (r := .badWindow) (passes_of_firstFailure judged
      (x := unlessHolds ((s.amendedLegs h r a).all fun p => s.amendedWindowRight p.2 a) .badWindow) (by simp))
    unfold State.carryAmend
    dsimp only [OfAnswer]
    have written := writeAll (a := a) (n := s.plantTime) (legs := s.amendedLegs h r a)
      (elsewhere (t := { s with named := h :: r.partner.toList }) w) rfl fun p hp => by
        obtain ⟨hq, hl⟩ := mem_amendedLegs hr permits hp
        rw [windowLaw_iff] at w
        refine amended_endsAfter ?_ hl (List.all_eq_true.1 windows p hp)
        unfold State.order? at hq
        split at hq <;> [exact w _ _ hq; cases hq]
    exact foldl amendedArrival (inFreeOrder (either written.lowerToTarget written))

theorem retireOne {h : Handle} (w : s.WindowLaw) : (s.retireOne h).WindowLaw := by
  unfold State.retireOne State.retireFree State.retireStop
  split
  · exact w
  · apply finish
    split
    · split <;> [exact w.releaseItems.free.setContext; exact w.free]
    · exact beginStop (order w)

theorem retire {h : Handle} {r : Order} (w : s.WindowLaw) : OfAnswer State.WindowLaw (s.retire h r) := by
  have q := foldl (f := State.retireOne) (l := s.retiredLegs h r) retireOne
    (elsewhere (t := { s with named := h :: r.partner.toList }) w)
  unfold State.retire
  dsimp only
  split <;> exact q

theorem isolateUnit {u : UnitNo} (w : s.WindowLaw) : OfAnswer State.WindowLaw (s.isolateUnit u) := by
  unfold State.isolateUnit; split <;> [trivial; exact w.unit.engagementTest.finish]

theorem halt {u : UnitNo} (w : s.WindowLaw) : OfAnswer State.WindowLaw (s.halt u) := by
  unfold State.halt
  split
  · exact w.haltEngaged
  · exact w.tripGate.ask.setContext
  · exact w.tripGate.ask
  · exact w
  all_goals trivial

theorem takeIn {c : ConverterNo} (w : s.WindowLaw) : OfAnswer State.WindowLaw (s.takeIn c) := by
  unfold State.takeIn
  split
  · split <;> [trivial; exact w.startCooling]
  · exact w
  · exact w

theorem relinkUnit {u : UnitNo} (w : s.WindowLaw) : OfAnswer State.WindowLaw (s.relinkUnit u) := by
  unfold State.relinkUnit
  split
  · trivial
  · split <;> [exact w.loseLink; exact w.loseLink; exact w; exact w; exact w]

theorem setPlantTime {n : Nat} (w : s.WindowLaw) : OfAnswer State.WindowLaw (s.setPlantTime n) := by
  unfold State.setPlantTime
  split
  · trivial
  · exact either (examineHeld (elsewhere w)) (elsewhere w)

theorem trim {n : Int} (w : s.WindowLaw) : OfAnswer State.WindowLaw (s.trim n) := by
  unfold State.trim
  split
  · trivial
  · split <;> [exact trimForward (takeThose (elsewhere w)); exact elsewhere w]

theorem configureWaterway {c : WaterwayNo × WaterwaySettings} (w : s.WindowLaw) :
    OfAnswer State.WindowLaw (s.configureWaterway c) := by
  unfold State.configureWaterway
  dsimp only
  split
  · trivial
  · unfold State.waterwayWritten
    refine either (evaluateInhibits ?_) ?_ <;> exact either w.water.updateHead w.water

theorem configureGauge {c : GaugeNo × GaugeSettings} (w : s.WindowLaw) : OfAnswer State.WindowLaw (s.configureGauge c) :=
  either w.gauge.gauge.inhibitsOf w.gauge

theorem configureUnit {c : UnitNo × WaterwayNo × BitVec 2} (w : s.WindowLaw) : OfAnswer State.WindowLaw (s.configureUnit c) := by
  unfold State.configureUnit
  dsimp only
  split
  · exact w
  · split <;> [trivial; exact w.unit.refresh.updateFlow.updateFlow.refreshOutside]

theorem enterDispatch (w : s.WindowLaw) : OfAnswer State.WindowLaw s.enterDispatch := by
  unfold State.enterDispatch; split <;> [exact examineHeld (elsewhere w); trivial]

theorem leaveDispatch (w : s.WindowLaw) : OfAnswer State.WindowLaw s.leaveDispatch := by
  unfold State.leaveDispatch; split <;> [trivial; exact elsewhere w]

/-- RESET leaves no record (R181). -/
theorem cleared (s : State) : s.cleared.WindowLaw := by
  rw [windowLaw_iff]
  intro k r hr
  have e : s.cleared.slot k = (s.slot k).cleared := by simp [State.slot, State.cleared]
  rw [e] at hr
  unfold Slot.cleared at hr
  split at hr <;> simp_all

end State.WindowLaw

end Sys2Proof.Machine
end

section
/-! # The commands that are no requests

What a mark, a link, a gauge or a fault line brings is an event: the lines fall silent, and then one function of the blocks acts. -/

namespace Sys2Proof.Machine

/-- What the blocks do at a command that reaches them without the Order Port. -/
def eventOf : Instr → Option (State → State)
  | .secondMark => some State.secondMark
  | .startArrival h => some (·.takeDue (.startArrival h))
  | .endArrival h => some (·.takeDue (.endArrival h))
  | .latenessArrival h => some (·.takeDue (.latenessArrival h))
  | .supervisionTimerExpiry u => some (·.takeDue (.supervision u))
  | .runTimerExpiry c => some (·.takeDue (.run c))
  | .coolDownExpiry c => some (·.takeDue (.coolDown c))
  | .spacingTimerExpiry w => some (·.takeDue (.spacing w))
  | .rampPeriodExpiry w => some (·.takeDue (.ramp w))
  | .helloInterval u => some (·.takeDue (.hello u))
  | .ackTimerExpiry u => some (·.takeDue (.ack u))
  | .burstWindowExpiry u => some (·.takeDue (.burst u))
  | .linkSilenceCount u => some (·.takeDue (.linkSilence u))
  | .gaugeSilenceCount g => some (·.takeDue (.gaugeSilence g))
  | .pageReport u p => some (·.fromPresent u (·.pageReceived u p))
  | .ackReport u kind toggle => some (·.fromPresent u (·.ackReceived u kind toggle))
  | .stateReport u r => some (·.fromPresent u (·.stateReceived u r))
  | .linkFrameBad u =>
    some (·.fromPresent u fun s => if (s.unit u).link.state.supervised then s.frameError u else s)
  | .gaugeTelegram g bytes => some fun s => (s.modGauge g fun x => x.receive g bytes).gaugeChanged g (s.gauge g)
  | .converterFaultAssert c => some (·.faultAsserted c)
  | .converterFaultClear c => some (·.modConverter c fun x => { x with faultLine := false })
  | _ => none

/-- Such a command is its event, taken while nothing has been sent yet. -/
theorem exec_event {c : Instr} {f : State → State} (h : eventOf c = some f) (s : State) : exec c s = .next (f s.quiet) := by
  cases c <;> cases h <;> rfl

/-- Every command is a request of a known kind, an event, or one that the straps or the port alone take up. -/
theorem instr_cases (c : Instr) :
    (∃ kind tag body, c.asRequest = some (kind, tag, body)) ∨ (∃ f, eventOf c = some f) ∨ (∃ straps, c = .powerOn straps) ∨
      (∃ bytes, c = .badFrame bytes) ∨ (∃ kind tag body, c = .unknownRequest kind tag body) ∨ ∃ n, c = .readPeriod n := by
  cases c <;> simp [Instr.asRequest, eventOf]

/-- A property that events keep: those of a mark, of the links, the gauges and the converters. -/
structure KeptByEvents (P : State → Prop) : Prop extends KeptInEvents P where
  due : ∀ s l, P s → P { s with due := l }
  count : ∀ s, P s → P s.countMark
  advance : ∀ s, P s → P s.advance.1
  telegram : ∀ s g bytes, P s → P ((s.modGauge g fun x => x.receive g bytes).gaugeChanged g (s.gauge g))

namespace KeptByEvents

variable {P : State → Prop} (k : KeptByEvents P)
include k

theorem takeDue {s : State} (e : DueEvent) (p : P s) : P (s.takeDue e) := by
  unfold State.takeDue; split <;> [exact k.effect _ (k.due _ _ p); exact p]

theorem secondMark {s : State} (p : P s) : P s.secondMark :=
  k.due _ _ (k.advance _ (k.count _ (k.takeAll _ _ (k.due _ _ p))))

omit k in
theorem fromPresent {s : State} {u : UnitNo} {f : State → State} (p : P s) (hf : (s.unit u).present = true → P (f s)) :
    P (s.fromPresent u f) := by
  unfold State.fromPresent; split <;> [exact hf ‹_›; exact p]

/-- Every event keeps the property. -/
theorem event {c : Instr} {f : State → State} (h : eventOf c = some f) {s : State} (p : P s) : P (f s) := by
  have due := fun e => k.takeDue e p
  cases c <;> cases h
  case secondMark => exact k.secondMark p
  case pageReport u x => exact fromPresent p fun hp => k.pageReceived _ _ hp p
  case ackReport => exact fromPresent p fun _ => k.ackReceived _ _ _ p
  case stateReport => exact fromPresent p fun _ => k.stateReceived _ _ p
  case linkFrameBad =>
    refine fromPresent p fun _ => ?_
    split <;> [exact k.frameError _ ‹_› p; exact p]
  case gaugeTelegram g bytes => exact k.telegram _ _ _ p
  case converterFaultAssert => exact k.faultAsserted _ p
  case converterFaultClear => exact k.converter _ _ _ ⟨rfl, rfl⟩ p
  all_goals exact due _

end KeptByEvents

/-- Events leave the port and the named handles as they are. -/
theorem keptByEvents_portNamed (q : Port) (l : List Handle) : KeptByEvents fun s => s.port = q ∧ s.named = l where
  toKept := (kept_clock fun _ _ p n => p = q ∧ n = l).toKept
  apart _ _ _ _ p := p
  acknowledged s u _ p := by unfold State.acknowledged State.sendNext; split <;> exact p
  linkOut _ _ p := p
  silence s g p := (kept_clock fun _ _ p n => p = q ∧ n = l).silence g p
  due _ _ p := p
  count _ p := p
  advance s p := by unfold State.advance; split <;> [exact p; (split <;> exact p)]
  telegram s g bytes p := (kept_clock fun _ _ p n => p = q ∧ n = l).telegram g bytes p

theorem event_portNamed {c : Instr} {f : State → State} (h : eventOf c = some f) (s : State) :
    (f s).port = s.port ∧ (f s).named = s.named := (keptByEvents_portNamed s.port s.named).event h ⟨rfl, rfl⟩

end Sys2Proof.Machine
end

section
/-! # The plain laws (R3, R45, R153 to R155, R164, R176, R184) -/

namespace Sys2Proof.Machine

/-! ## Windows -/

namespace State.WindowLaw

variable {s : State}

theorem event {c : Instr} {f : State → State} (h : eventOf c = some f) (w : s.WindowLaw) : (f s).WindowLaw := by
  cases c <;> cases h
  case secondMark => exact w.secondMark
  case pageReport => exact w.fromPresent w.pageReceived
  case ackReport => exact w.fromPresent w.ackReceived
  case stateReport => exact w.fromPresent w.stateReceived
  case linkFrameBad => exact w.fromPresent (either w.frameError w)
  case gaugeTelegram => exact w.gauge.gaugeChanged
  case converterFaultAssert => exact w.faultAsserted
  case converterFaultClear => exact w.converter
  all_goals exact w.takeDue

open KeptInside (OfAnswer ofField ofOrder)

/-- Every owner keeps the law. -/
theorem owner {c : Instr} {x : Nat × Byte × List Byte} (h : c.asRequest = some x) (w : s.WindowLaw) :
    OfAnswer State.WindowLaw (ownerOf c s) := by
  cases c <;> cases h
  case place => exact ofField _ _ fun _ _ => w.placeOrder
  case placePair => exact ofField _ _ fun _ h => w.placePair h
  case amend tag body =>
    show OfAnswer _ (s.withOrder _ _)
    unfold State.withOrder
    split <;> [exact ofField _ _ fun _ _ => w.amendOrder ‹_›; trivial]
  case retire => exact ofOrder _ _ fun _ => w.retire
  case lookup => exact ofOrder _ _ fun _ => order w
  case listUnit => exact ofField _ _ fun _ _ => w
  case listState => exact ofField _ _ fun _ _ => w
  case isolate => exact ofField _ _ fun _ _ => w.isolateUnit
  case restore => exact ofField _ _ fun _ _ => w.unit
  case haltUnit => exact ofField _ _ fun _ _ => w.halt
  case setConverterOut => exact ofField _ _ fun _ _ => w.takeOut
  case setConverterIn => exact ofField _ _ fun _ _ => w.takeIn
  case waterwayStatus => exact ofField _ _ fun _ _ => w
  case unitStatus => exact ofField _ _ fun _ _ => w
  case linkStatus => exact ofField _ _ fun _ _ => w.link
  case relink => exact ofField _ _ fun _ _ => w.relinkUnit
  case gaugeStatus => exact ofField _ _ fun _ _ => w
  case setTime => exact w.setPlantTime
  case trimClock => exact w.trim
  case setEventMask => exact ofField _ _ fun _ _ => elsewhere w
  case clearEvents => exact ofField _ _ fun _ _ => elsewhere w
  case configureWaterway => exact ofField _ _ fun _ _ => w.configureWaterway
  case configureGauge => exact ofField _ _ fun _ _ => w.configureGauge
  case configureUnit => exact ofField _ _ fun _ _ => w.configureUnit
  case configureConverter => exact ofField _ _ fun _ _ => elsewhere w
  case configureSupervision => exact ofField _ _ fun _ _ => elsewhere w
  case startDispatch => exact w.enterDispatch
  case stopDispatch => exact w.leaveDispatch
  case reset => exact cleared s
  all_goals exact w

/-- There is no record at power-on (R188). -/
theorem reset : State.reset.WindowLaw := by
  rw [windowLaw_iff]
  intro k r hr
  simp [State.slot, State.reset] at hr

theorem taken (w : s.WindowLaw) : s.taken.WindowLaw := by
  unfold State.taken State.atFrame; exact elsewhere (either w.raise w)

theorem frameEnded {bytes : List Byte} (w : s.WindowLaw) : (s.frameEnded bytes).WindowLaw := by
  rw [frameEnded_eq]; exact elsewhere w.taken

theorem delivered {kind n : Nat} {tag : Byte} {a : Answer} (w : s.WindowLaw) (h : OfAnswer State.WindowLaw a) :
    (s.delivered kind tag n a).WindowLaw := by
  cases a <;> [exact elsewhere h; exact elsewhere h; exact elsewhere h; exact elsewhere w.taken]

/-- Every command keeps the law of the windows. -/
theorem exec {c : Instr} {t : State} (h : Machine.exec c s = .next t) (w : s.WindowLaw) : t.WindowLaw := by
  obtain ⟨kind, tag, body, hc⟩ | ⟨f, hf⟩ | ⟨straps, rfl⟩ | ⟨bytes, rfl⟩ | ⟨kind, tag, body, rfl⟩ | ⟨n, rfl⟩ := instr_cases c
  · rw [exec_request hc] at h
    cases h
    exact either (elsewhere w.taken) (either (elsewhere w.taken) (w.delivered (owner hc w.frameEnded)))
  · rw [exec_event hf] at h
    cases h
    exact event hf (elsewhere w)
  · cases h
    exact elsewhere reset
  · cases h
    exact either (elsewhere w) (elsewhere (w.frameEnded (bytes := bytes)))
  · cases h
    exact elsewhere (w.frameEnded (bytes := requestFrame kind.toNat tag body))
  · cases h
    exact either (elsewhere w) (elsewhere w)

end State.WindowLaw

/-! ## Generations -/

theorem nextGeneration_range {g : Nat} (h : 1 ≤ g ∧ g ≤ 1023) : 1 ≤ nextGeneration g ∧ nextGeneration g ≤ 1023 := by
  unfold nextGeneration; split <;> omega

/-- A slot is written with a generation in its range. -/
theorem generationLaw_setSlot {s : State} {k : SlotNo} {x : Slot} (l : s.GenerationLaw)
    (h : 1 ≤ x.generation ∧ x.generation ≤ 1023) : (s.setSlot k x).GenerationLaw := by
  intro j
  rw [slot_setSlot]
  split <;> [exact h; exact l j]

theorem generationLaw_unlinkTo {s : State} {h : Handle} (l : s.GenerationLaw) : (s.unlinkTo h).GenerationLaw := by
  intro j
  have e : ((s.unlinkTo h).slot j).generation = (s.slot j).generation := by simp [State.unlinkTo, State.slot]
  rw [e]; exact l j

/-- No change within a command takes a generation out of its range (R3). -/
theorem kept_generationLaw : KeptPlainly State.GenerationLaw where
  raise _ _ p := p
  order s h f p := by unfold State.modOrder; split <;> [exact generationLaw_setSlot p (p _); exact p]
  unlinkTo _ _ p := generationLaw_unlinkTo p
  free s h p := by
    unfold State.freeOrder
    split <;> [exact generationLaw_setSlot (generationLaw_unlinkTo p) (nextGeneration_range (p _)); exact p]
  record _ _ _ p := generationLaw_setSlot p (p _)
  picks _ _ p := p
  leaveStart _ _ p := p
  joinStart _ _ p := p
  handOver _ _ _ _ p := p
  unit _ _ _ _ p := p
  send _ _ _ _ _ p := p
  contribution s u p := by unfold State.refreshContribution; split <;> exact p
  water _ _ _ _ p := p
  joinGate _ _ _ _ _ _ p := p
  converter _ _ _ _ p := p
  refresh s u p := by unfold State.refreshContribution; split <;> exact p
  waterItems _ _ _ _ _ p := p
  anyGauge _ _ _ p := p
  anyUnit _ _ _ p := p
  linkOut _ _ p := p
  named _ _ p := p
  latches _ _ p := p
  mask _ _ p := p
  due _ _ p := p
  time _ _ p := p
  trim _ _ p := p
  count _ p := p
  anyConverter _ _ _ p := p
  retry _ _ p := p
  supervision _ _ p := p
  mode _ _ p := p
  cleared s p j := by
    have e : s.cleared.slot j = (s.slot j).cleared := by simp [State.slot, State.cleared]
    rw [e]
    unfold Slot.cleared
    split <;> [exact nextGeneration_range (p j); exact p j]

theorem generationLaw_poweredOn (s : State) (straps : BitVec 8) : (s.poweredOn straps).GenerationLaw := by
  intro j; simp [State.slot, State.poweredOn, State.reset]

/-! ## Plant time -/

/-- Every command keeps plant time and trim in their ranges (R164). -/
theorem kept_clockLaw : KeptByCommands State.ClockLaw where
  toKept := (kept_clock fun n m _ _ => n ≤ plantTimeMax ∧ m ≤ 2).toKept
  apart _ _ _ _ p := p
  acknowledged s u _ p := by unfold State.acknowledged State.sendNext; split <;> exact p
  linkOut _ _ p := p
  silence s g p := (kept_clock fun n m _ _ => n ≤ plantTimeMax ∧ m ≤ 2).silence g p
  named _ _ p := p
  latches _ _ p := p
  mask _ _ p := p
  due _ _ p := p
  time _ _ h p := ⟨h, p.2⟩
  trim _ _ h p := ⟨p.1, h.elim id fun h => h.trans p.2⟩
  count _ p := p
  telegram s g bytes p := (kept_clock fun n m _ _ => n ≤ plantTimeMax ∧ m ≤ 2).telegram g bytes p
  waterwaySettings s _ c _ p := (kept_clock fun n m _ _ => n ≤ plantTimeMax ∧ m ≤ 2).waterwaySettings c p
  gaugeSettings s _ c _ p := (kept_clock fun n m _ _ => n ≤ plantTimeMax ∧ m ≤ 2).gaugeSettings c p
  eligible _ _ _ p := p
  moved s u w e p := (kept_clock fun n m _ _ => n ≤ plantTimeMax ∧ m ≤ 2).movedTo (s := s.modUnit u _) u _ p
  converterSettings _ _ _ _ p := p
  supervisionSettings _ _ _ _ p := p
  mode _ _ p := p
  cleared _ p := p
  port _ _ p := p
  portOut _ _ p := p
  powerOn _ _ _ := ⟨Nat.zero_le _, Nat.zero_le _⟩

/-! ## The port and the named handles -/

/-- A response is never empty (Table 12-1). -/
theorem responseBytes_ne_nil (kind : Nat) (tag : Byte) (r : Result) (flags : Nat) (body : List Byte) :
    responseBytes kind tag r flags body ≠ [] := by simp [responseBytes, withCrc, beBytes]

/-- After a response is formed the port keeps its law (R176, R178). -/
theorem respond_portLaw (s : State) (r : Result) (body : List Byte) : (s.respond r body).port.Law :=
  ⟨rfl, rfl, fun _ => by simp [State.respond, State.responseFrame, withCrc, beBytes], fun h => by cases h⟩

/-- A request leaves a response unread in the port, whatever its owner answers (R176, R178, R181). -/
theorem delivered_port (s : State) (kind : Nat) (tag : Byte) (n : Nat) (a : Answer) :
    (s.delivered kind tag n a).port.Law ∧ (s.delivered kind tag n a).named = [] := by
  cases a <;> exact ⟨⟨rfl, rfl, fun _ => responseBytes_ne_nil _ _ _ _ _, fun _ => rfl⟩, rfl⟩

/-- What a request leaves is a delivered answer, a refusal by the port being one too (R174). -/
theorem exec_request_delivered {c : Instr} {kind : Nat} {tag : Byte} {body : List Byte} (h : c.asRequest = some (kind, tag, body))
    (s : State) : ∃ a, exec c s = .next (s.delivered kind tag (body.length + 5) a) := by
  rw [exec_request h]
  split
  · exact ⟨.refused .wrongMode, rfl⟩
  · split <;> [exact ⟨.refused .badField, rfl⟩; exact ⟨_, rfl⟩]

/-- Reading the response in full leaves nothing unread (R177, R181). -/
theorem readInFull_portLaw {s : State} (l : s.port.Law) : s.readInFull.port.Law :=
  ⟨l.noRequest, l.noOverrun, fun h => (by cases h), fun h => (by cases h)⟩

/-- Every command keeps the law of the port, and names no handle once it is done (R176, R177, R178, R181, R9). -/
theorem exec_portNamed {c : Instr} {s t : State} (h : exec c s = .next t) :
    (s.port.Law → t.port.Law) ∧ (s.named = [] → t.named = []) := by
  obtain ⟨kind, tag, body, hc⟩ | ⟨f, hf⟩ | ⟨straps, rfl⟩ | ⟨bytes, rfl⟩ | ⟨kind, tag, body, rfl⟩ | ⟨n, rfl⟩ := instr_cases c
  · obtain ⟨a, ha⟩ := exec_request_delivered hc s
    rw [ha] at h
    cases h
    obtain ⟨port, named⟩ := delivered_port s kind tag (body.length + 5) a
    exact ⟨fun _ => port, fun _ => named⟩
  · rw [exec_event hf] at h
    cases h
    obtain ⟨port, named⟩ := event_portNamed hf s.quiet
    rw [port, named]
    exact ⟨id, id⟩
  · cases h
    exact ⟨fun _ => ⟨rfl, rfl, fun h => (by cases h), fun h => (by cases h)⟩, fun _ => rfl⟩
  · cases h
    split <;> [exact ⟨id, id⟩; exact ⟨fun _ => respond_portLaw _ _ _, fun _ => rfl⟩]
  · cases h
    exact ⟨fun _ => respond_portLaw _ _ _, fun _ => rfl⟩
  · cases h
    dsimp only
    split <;> [exact ⟨fun l => readInFull_portLaw l, id⟩; exact ⟨id, id⟩]

/-! ## Gauges and settings -/

/-- A property of each gauge, waterway and converter and of the supervision settings. -/
def State.Each (G : Gauge → Prop) (W : Waterway → Prop) (C : Converter → Prop) (S : Supervision → Prop) (s : State) : Prop :=
  (∀ g, G (s.gauge g)) ∧ (∀ w, W (s.waterway w)) ∧ (∀ c, C (s.converter c)) ∧ S s.supervision

/-- What the properties of the parts must stand: for a gauge its telegrams, marks and settings; for the others their settings. -/
structure PartLaws (G : Gauge → Prop) (W : Waterway → Prop) (C : Converter → Prop) (S : Supervision → Prop) : Prop where
  receive : ∀ x g bytes, G x → G (x.receive g bytes)
  silence : ∀ x, G x → G x.silenceMark
  flags : ∀ x, G x → G x.evaluateFlags
  writeGauge : ∀ x body c, gaugeSettingsOf body = some c → G x → G (x.write c.2)
  clearGauge : ∀ x, G x → G x.cleared
  resetGauge : G Gauge.reset
  water : ∀ x y : Waterway, y.hAdm = x.hAdm → y.qgLim = x.qgLim → y.qpLim = x.qpLim → y.allowance = x.allowance →
    y.spacingTime = x.spacingTime → W x → W y
  writeWaterway : ∀ x body c, waterwaySettingsOf body = some c → W x → W (x.write c.2)
  resetWaterway : ∀ upper lower, W (Waterway.reset upper lower)
  converter : ∀ x y : Converter, y.runLimit = x.runLimit → y.coolDown = x.coolDown → C x → C y
  writeConverter : ∀ x body c, converterSettingsOf body = some c → C x → C { x with runLimit := c.2.1, coolDown := c.2.2.1 }
  resetConverter : C Converter.reset
  writeSupervision : ∀ body x, supervisionOf body = some x → S x
  resetSupervision : S State.reset.supervision

namespace PartLaws

variable {G : Gauge → Prop} {W : Waterway → Prop} {C : Converter → Prop} {S : Supervision → Prop} (k : PartLaws G W C S)
include k

/-! ### One part written -/

omit k in
theorem modGauge {s : State} {g : GaugeNo} {f : Gauge → Gauge} (h : G (s.gauge g) → G (f (s.gauge g))) (p : s.Each G W C S) :
    (s.modGauge g f).Each G W C S := by
  obtain ⟨gs, ws, cs, ss⟩ := p
  refine ⟨fun j => ?_, ws, cs, ss⟩
  rw [gauge_modGauge]
  split <;> [exact h (gs g); exact gs j]

omit k in
theorem modWaterway {s : State} {w : WaterwayNo} {f : Waterway → Waterway} (h : W (s.waterway w) → W (f (s.waterway w)))
    (p : s.Each G W C S) : (s.modWaterway w f).Each G W C S := by
  obtain ⟨gs, ws, cs, ss⟩ := p
  refine ⟨gs, fun j => ?_, cs, ss⟩
  rw [waterway_modWaterway]
  split <;> [exact h (ws w); exact ws j]

omit k in
theorem modConverter {s : State} {c : ConverterNo} {f : Converter → Converter}
    (h : C (s.converter c) → C (f (s.converter c))) (p : s.Each G W C S) : (s.modConverter c f).Each G W C S := by
  obtain ⟨gs, ws, cs, ss⟩ := p
  refine ⟨gs, ws, fun j => ?_, ss⟩
  rw [converter_modConverter]
  split <;> [exact h (cs c); exact cs j]

omit k in
theorem refresh {s : State} (u : UnitNo) (p : s.Each G W C S) : (s.refreshContribution u).Each G W C S := by
  unfold State.refreshContribution; split <;> exact p

theorem refreshFlow {s : State} (w : WaterwayNo) (p : s.Each G W C S) : (s.refreshFlow w).Each G W C S :=
  modWaterway (k.water _ _ rfl rfl rfl rfl rfl) p

/-- The parts keep their properties within an event. -/
theorem kept : Kept (State.Each G W C S) where
  raise _ _ p := p
  order s h f p := by unfold State.modOrder; split <;> exact p
  unlinkTo _ _ p := p
  free s h p := by unfold State.freeOrder; split <;> exact p
  record _ _ _ p := p
  picks _ _ p := p
  leaveStart _ _ p := p
  joinStart _ _ p := p
  handOver s a b q p := by
    obtain ⟨gs, ws, cs, ss⟩ := p
    refine ⟨gs, fun w => ?_, fun c => ?_, ss⟩
    · have e : (s.handOverQueues a b q).waterway w =
          { s.waterway w with queue := handOverGate a b q (s.waterway w).queue } := by
        simp [State.handOverQueues, State.waterway]
      rw [e]; exact k.water (s.waterway w) _ rfl rfl rfl rfl rfl (ws w)
    · have e : (s.handOverQueues a b q).converter c = (s.converter c).handOver a b := by
        simp [State.handOverQueues, State.converter]
      rw [e]
      refine k.converter (s.converter c) _ ?_ ?_ (cs c) <;> unfold Converter.handOver <;> split <;> rfl
  unit _ _ _ _ p := p
  send _ _ _ _ _ p := p
  contribution s u p := k.refreshFlow _ (refresh u p)
  water _ _ _ b p := modWaterway (k.water _ _ b.hAdm b.qgLim b.qpLim b.allowance b.spacingTime) p
  joinGate _ _ _ _ _ _ p := modWaterway (k.water _ _ rfl rfl rfl rfl rfl) p
  converter _ _ _ h p := modConverter (k.converter _ _ h.1 h.2) p

/-! ### Heads, flows and inhibits -/

theorem updateHead {s : State} (w : WaterwayNo) (p : s.Each G W C S) : (s.updateHead w).Each G W C S := by
  unfold State.updateHead
  dsimp only
  split
  · exact modWaterway (k.water _ _ rfl rfl rfl rfl rfl) p
  · refine k.kept.gateOpportunity _ (Kept.foldl (fun _ _ q => k.kept.refreshOutside _ q) _ (k.refreshFlow _
      (Kept.foldl (fun _ u q => ?_) _ (modWaterway (k.water _ _ rfl rfl rfl rfl rfl) p))))
    split <;> [exact refresh _ q; exact q]

theorem evaluateInhibits {s : State} (w : WaterwayNo) (p : s.Each G W C S) : (s.evaluateInhibits w).Each G W C S := by
  unfold State.evaluateInhibits
  dsimp only
  generalize hq : State.raiseIf (s.modWaterway w _) _ _ = t
  have q : t.Each G W C S := hq ▸ k.kept.raiseIf _ _ (modWaterway (k.water _ _ rfl rfl rfl rfl rfl) p)
  have stopped : ∀ i (b : Bool), (if b = true then (t.unitsOf w).foldl (State.inhibitUnit i) t else t).Each G W C S := by
    intro i b; split <;> [exact Kept.foldl (fun _ u q => k.kept.inhibitUnit i u q) _ q; exact q]
  split <;> [exact k.kept.gateOpportunity _ (stopped _ _); exact stopped _ _]

theorem inhibitsOf {s : State} (g : GaugeNo) (p : s.Each G W C S) : (s.inhibitsOf g).Each G W C S :=
  Kept.foldl (fun _ w q => k.evaluateInhibits w q) _ p

theorem gaugeChanged {s : State} (g : GaugeNo) (old : Gauge) (p : s.Each G W C S) : (s.gaugeChanged g old).Each G W C S := by
  have q := k.kept.raiseIf .gaugeChange (old.state != (s.gauge g).state) p
  unfold State.gaugeChanged
  dsimp only
  split <;> [exact k.inhibitsOf _ (Kept.foldl (fun _ w q => k.updateHead w q) _ q); exact q]

theorem updateFlow {s : State} (w : WaterwayNo) (p : s.Each G W C S) : (s.updateFlow w).Each G W C S := by
  unfold State.updateFlow; split <;> [exact p; exact k.kept.gateOpportunity _ (k.refreshFlow _ p)]

theorem waterwayWritten {s : State} (w : WaterwayNo) (old : Waterway) (p : s.Each G W C S) :
    (s.waterwayWritten w old).Each G W C S := by
  have head : ∀ b : Bool, (if b = true then s.updateHead w else s).Each G W C S := by
    intro b; split <;> [exact k.updateHead _ p; exact p]
  unfold State.waterwayWritten
  dsimp only
  split <;> [exact k.evaluateInhibits _ (head _); exact head _]

/-! ### Every command -/

theorem count {s : State} (p : s.Each G W C S) : s.countMark.Each G W C S := by
  obtain ⟨gs, ws, cs, ss⟩ := p
  refine ⟨gs, fun w => ?_, fun c => ?_, ss⟩
  · have e : s.countMark.waterway w = { s.waterway w with spacing := countDown (s.waterway w).spacing } := by
      simp [State.countMark, State.waterway]
    rw [e]; exact k.water (s.waterway w) _ rfl rfl rfl rfl rfl (ws w)
  · have e : s.countMark.converter c = { s.converter c with state := (s.converter c).state.countDown } := by
      simp [State.countMark, State.converter]
    rw [e]; exact k.converter (s.converter c) _ rfl rfl (cs c)

theorem clear {s : State} (p : s.Each G W C S) : s.cleared.Each G W C S := by
  obtain ⟨gs, ws, cs, ss⟩ := p
  refine ⟨fun g => ?_, fun w => ?_, fun c => ?_, ss⟩
  · have e : s.cleared.gauge g = (s.gauge g).cleared := by simp [State.cleared, State.gauge]
    rw [e]; exact k.clearGauge _ (gs g)
  · have e : s.cleared.waterway w = (s.waterway w).cleared := by simp [State.cleared, State.waterway]
    rw [e]; exact k.water (s.waterway w) _ rfl rfl rfl rfl rfl (ws w)
  · have e : s.cleared.converter c = (s.converter c).restart := by simp [State.cleared, State.converter]
    rw [e]; exact k.converter (s.converter c) _ rfl rfl (cs c)

theorem powerOn (s : State) (straps : BitVec 8) : (s.poweredOn straps).Each G W C S := by
  refine ⟨fun g => ?_, fun w => ?_, fun c => ?_, k.resetSupervision⟩
  · have e : ∀ g, State.reset.gauge g = Gauge.reset := by decide
    exact (e g).symm ▸ k.resetGauge
  · have e : ∀ w, ∃ upper lower, State.reset.waterway w = Waterway.reset upper lower := by decide
    obtain ⟨upper, lower, e⟩ := e w
    exact e.symm ▸ k.resetWaterway upper lower
  · have e : (s.poweredOn straps).converter c = ({ Converter.reset with faultLine := (s.converter c).faultLine }).restart := by
      simp [State.poweredOn, State.converter]
    rw [e]; exact k.converter Converter.reset _ rfl rfl k.resetConverter

/-- Properties of the parts that stand what `PartLaws` lists are kept by every command. -/
theorem byCommands : KeptByCommands (State.Each G W C S) where
  toKept := k.kept
  apart _ _ _ _ p := p
  acknowledged s u _ p := by unfold State.acknowledged State.sendNext; split <;> exact p
  linkOut _ _ p := p
  silence s g p := k.kept.raiseIf _ _ (modGauge (k.silence _) p)
  named _ _ p := p
  latches _ _ p := p
  mask _ _ p := p
  due _ _ p := p
  time _ _ _ p := p
  trim _ _ _ p := p
  count _ p := k.count p
  telegram _ _ _ p := k.gaugeChanged _ _ (modGauge (k.receive _ _ _) p)
  waterwaySettings _ _ _ h p := k.waterwayWritten _ _ (modWaterway (k.writeWaterway _ _ _ h) p)
  gaugeSettings _ _ c h p := by
    have q := modGauge (g := c.1) (f := fun x => x.write c.2) (k.writeGauge _ _ _ h) p
    split <;> [exact k.inhibitsOf _ (modGauge (k.flags _) q); exact q]
  eligible _ _ _ p := p
  moved s u w e p :=
    k.kept.refreshOutside _ (k.updateFlow _ (k.updateFlow _ (refresh (s := s.modUnit u _) u p)))
  converterSettings s _ c h p :=
    modConverter (s := s) (c := c.1) (f := fun x => { x with runLimit := c.2.1, coolDown := c.2.2.1 })
      (k.writeConverter _ _ _ h) p
  supervisionSettings _ _ _ h p := ⟨p.1, p.2.1, p.2.2.1, k.writeSupervision _ _ h⟩
  mode _ _ p := p
  cleared _ p := k.clear p
  port _ _ p := p
  portOut _ _ p := p
  powerOn s straps _ := k.powerOn s straps

end PartLaws

/-! ### The runs of the gauges (R153 to R157) -/

namespace Gauge

theorem hear_law {x : Gauge} (l : x.Law) (bytes : List Byte) : (x.hear bytes).Law :=
  { l with silence := Nat.zero_le _ }

/-- A change of state sets both runs to 0; a gauge that is to leave UNKNOWN holds a level (R154). -/
theorem become_law {x : Gauge} {st : GaugeState} (silence : x.silence ≤ 255) (known : x.level.isSome = true)
    (range : ∀ v, x.level = some v → v ≤ 100000) : (x.become st).Law where
  goodRun := Nat.zero_le _
  badRun := Nat.zero_le _
  silence := silence
  notValid _ := Nat.zero_le _
  valid _ := Nat.zero_le _
  oneRun := .inl rfl
  known _ := known
  range := range
  flags h := by
    replace h : x.level = none := h
    rw [h] at known; cases known

theorem takeBad_law {x : Gauge} (l : x.Law) (reason : BadReason) : (x.takeBad reason).Law := by
  unfold takeBad
  dsimp only
  split
  · rename_i h
    exact become_law l.silence (l.known (by rw [h.1]; decide)) l.range
  · rename_i h
    refine { l with goodRun := Nat.zero_le _, badRun := Nat.min_le_right _ _, notValid := fun _ => Nat.zero_le _, valid := fun v => ?_, oneRun := .inl rfl }
    have three : raiseRun x.badRun ≠ 3 := fun e => h ⟨v, e⟩
    have most : raiseRun x.badRun ≤ 3 := Nat.min_le_right _ _
    show raiseRun x.badRun ≤ 2
    omega

theorem takeGood_law {x : Gauge} (l : x.Law) {level : Nat} (hv : level ≤ 100000) : (x.takeGood level).Law := by
  have range : ∀ v, some level = some v → v ≤ 100000 := by rintro _ ⟨⟩; exact hv
  unfold takeGood
  dsimp only
  split
  · exact become_law l.silence rfl range
  · rename_i h
    refine { l with goodRun := Nat.min_le_right _ _, badRun := Nat.zero_le _, notValid := fun v => ?_, valid := fun _ => Nat.zero_le _, oneRun := .inr rfl, known := fun _ => rfl, range := range, flags := fun e => by cases e }
    have three : raiseRun x.goodRun ≠ 3 := fun e => h ⟨v, e⟩
    have most : raiseRun x.goodRun ≤ 3 := Nat.min_le_right _ _
    show raiseRun x.goodRun ≤ 2
    omega

theorem evaluateFlags_law {x : Gauge} (l : x.Law) : x.evaluateFlags.Law := by
  unfold evaluateFlags
  split
  · rename_i h
    exact { l with flags := fun e => by rw [show x.level = none from e] at h; cases h }
  · exact l

/-- A good telegram carries a level in its range (R153). -/
theorem level_of_good {x : Gauge} {g : GaugeNo} {bytes : List Byte} (h : judgeTelegram x g bytes = none) :
    telegramLevel bytes ≤ 100000 := by
  unfold judgeTelegram at h
  split at h
  · cases h
  · split at h
    · cases h
    · split at h <;> [cases h; omega]

theorem receive_law {x : Gauge} (l : x.Law) (g : GaugeNo) (bytes : List Byte) : (x.receive g bytes).Law := by
  have heard : (if telegramHeard g bytes then x.hear bytes else x).Law := by split <;> [exact hear_law l _; exact l]
  unfold receive
  dsimp only
  split
  · exact takeBad_law heard _
  · rename_i h
    have good := takeGood_law heard (level_of_good h)
    split <;> [exact good; exact evaluateFlags_law good]

theorem silenceMark_law {x : Gauge} (l : x.Law) : x.silenceMark.Law := by
  have count : min (x.silence + 1) 255 ≤ 255 := Nat.min_le_right _ _
  unfold silenceMark
  dsimp only
  split
  · rename_i h
    exact become_law count (l.known (by rw [h.1]; decide)) l.range
  · exact { l with silence := count }

theorem reset_law : Gauge.reset.Law :=
  ⟨by decide, by decide, by decide, by decide, by decide, by decide, by decide, fun _ h => (by cases h), by decide⟩

end Gauge

/-- The runs of the gauges keep their law (R153 to R157); it asks nothing of the other parts. -/
theorem partLaws_gauge : PartLaws Gauge.Law (fun _ => True) (fun _ => True) (fun _ => True) where
  receive _ g bytes l := Gauge.receive_law l g bytes
  silence _ l := Gauge.silenceMark_law l
  flags _ l := Gauge.evaluateFlags_law l
  writeGauge _ _ _ _ l := { l with }
  clearGauge _ _ := { Gauge.reset_law with }
  resetGauge := Gauge.reset_law
  water := by intros; trivial
  writeWaterway := by intros; trivial
  resetWaterway := by intros; trivial
  converter := by intros; trivial
  writeConverter := by intros; trivial
  resetConverter := trivial
  writeSupervision := by intros; trivial
  resetSupervision := trivial

/-! ### Settings (Table 11-1) -/

/-- Two gauges with the same settings. -/
def Gauge.SameSettings (x y : Gauge) : Prop :=
  y.highLimit = x.highLimit ∧ y.lowLimit = x.lowLimit ∧ y.hysteresis = x.hysteresis ∧ y.jumpLimit = x.jumpLimit ∧
    y.silenceLimit = x.silenceLimit

theorem Gauge.SameSettings.law {x y : Gauge} (h : x.SameSettings y) (l : x.SettingsLaw) : y.SettingsLaw := by
  obtain ⟨high, low, hysteresis, jump, silence⟩ := h
  exact ⟨high ▸ l.highLimit, low ▸ l.lowLimit, hysteresis ▸ l.hysteresis, jump ▸ l.jumpLimit, silence ▸ l.silenceLimit⟩

theorem Gauge.evaluateFlags_settings (x : Gauge) : x.SameSettings x.evaluateFlags := by
  unfold Gauge.evaluateFlags; split <;> exact ⟨rfl, rfl, rfl, rfl, rfl⟩

theorem Gauge.silenceMark_settings (x : Gauge) : x.SameSettings x.silenceMark := by
  unfold Gauge.silenceMark; dsimp only; split <;> exact ⟨rfl, rfl, rfl, rfl, rfl⟩

theorem Gauge.takeBad_settings (x : Gauge) (reason : BadReason) : x.SameSettings (x.takeBad reason) := by
  unfold Gauge.takeBad; dsimp only; split <;> exact ⟨rfl, rfl, rfl, rfl, rfl⟩

theorem Gauge.takeGood_settings (x : Gauge) (level : Nat) : x.SameSettings (x.takeGood level) := by
  unfold Gauge.takeGood; dsimp only; split <;> exact ⟨rfl, rfl, rfl, rfl, rfl⟩

/-- A telegram keeps the settings in their ranges: it writes none of them. -/
theorem Gauge.receive_settingsLaw {x : Gauge} (l : x.SettingsLaw) (g : GaugeNo) (bytes : List Byte) :
    (x.receive g bytes).SettingsLaw := by
  have heard : (if telegramHeard g bytes then x.hear bytes else x).SettingsLaw := by
    split <;> [exact ⟨l.highLimit, l.lowLimit, l.hysteresis, l.jumpLimit, l.silenceLimit⟩; exact l]
  unfold Gauge.receive
  dsimp only
  split
  · exact (Gauge.takeBad_settings _ _).law heard
  · have good := (Gauge.takeGood_settings _ (telegramLevel bytes)).law heard
    split <;> [exact good; exact (Gauge.evaluateFlags_settings _).law good]

theorem inRange_iff {lo hi v : Nat} : inRange lo hi v = true ↔ lo ≤ v ∧ v ≤ hi := by simp [inRange]

/-- The settings that CONFIGURE_WATERWAY takes lie in their ranges (R184). -/
theorem write_waterwayLaw {x : Waterway} {body : List Byte} {c : WaterwayNo × WaterwaySettings}
    (h : waterwaySettingsOf body = some c) : (x.write c.2).SettingsLaw := by
  unfold waterwaySettingsOf at h
  split at h
  · split at h
    · rename_i r
      simp only [Bool.and_eq_true, inRange_iff] at r
      obtain ⟨⟨⟨⟨hAdm, qg⟩, qp⟩, allowance⟩, spacing⟩ := r
      cases h
      exact ⟨hAdm, qg, qp, allowance, spacing.2⟩
    · cases h
  · cases h

/-- The settings that CONFIGURE_GAUGE takes lie in their ranges (R184). -/
theorem write_gaugeLaw {x : Gauge} {body : List Byte} {c : GaugeNo × GaugeSettings} (h : gaugeSettingsOf body = some c) :
    (x.write c.2).SettingsLaw := by
  unfold gaugeSettingsOf at h
  split at h
  · split at h
    · rename_i r
      simp only [Bool.and_eq_true, inRange_iff] at r
      obtain ⟨⟨⟨⟨high, low⟩, hysteresis⟩, jump⟩, silence⟩ := r
      cases h
      exact ⟨high.2, low.2, hysteresis, jump, silence⟩
    · cases h
  · cases h

/-- The settings that CONFIGURE_CONVERTER takes lie in their ranges (R184). -/
theorem write_converterLaw {x : Converter} {body : List Byte} {c : ConverterNo × Nat × Nat × Bool}
    (h : converterSettingsOf body = some c) : ({ x with runLimit := c.2.1, coolDown := c.2.2.1 } : Converter).SettingsLaw := by
  unfold converterSettingsOf at h
  split at h
  · split at h
    · rename_i r
      simp only [Bool.and_eq_true, inRange_iff] at r
      cases h
      exact ⟨r.1, r.2.2⟩
    · cases h
  · cases h

/-- The settings that CONFIGURE_SUPERVISION takes lie in their ranges (R184). -/
theorem supervisionOf_law {body : List Byte} {x : Supervision} (h : supervisionOf body = some x) : x.Law := by
  unfold supervisionOf at h
  split at h
  · rename_i r
    simp only [Bool.and_eq_true, inRange_iff] at r
    obtain ⟨⟨⟨⟨⟨start, stop⟩, ack⟩, hold⟩, count⟩, window⟩ := r
    cases h
    exact ⟨start.2, stop.2, ack, hold, count, window⟩
  · cases h

/-- Every setting stays in its range: only the configuration requests write one, and they refuse a value outside (R184). -/
theorem partLaws_settings : PartLaws Gauge.SettingsLaw Waterway.SettingsLaw Converter.SettingsLaw Supervision.Law where
  receive _ g bytes l := Gauge.receive_settingsLaw l g bytes
  silence x l := x.silenceMark_settings.law l
  flags x l := x.evaluateFlags_settings.law l
  writeGauge _ _ _ h _ := write_gaugeLaw h
  clearGauge x l := Gauge.SameSettings.law (x := x) ⟨rfl, rfl, rfl, rfl, rfl⟩ l
  resetGauge := ⟨by decide, by decide, by decide, by decide, by decide⟩
  water _ _ h₁ h₂ h₃ h₄ h₅ l := ⟨h₁ ▸ l.hAdm, h₂ ▸ l.qgLim, h₃ ▸ l.qpLim, h₄ ▸ l.allowance, h₅ ▸ l.spacingTime⟩
  writeWaterway _ _ _ h _ := write_waterwayLaw h
  resetWaterway _ _ := ⟨by simp [Waterway.reset], by simp [Waterway.reset], by simp [Waterway.reset], by simp [Waterway.reset],
    by simp [Waterway.reset]⟩
  converter _ _ h₁ h₂ l := ⟨h₁ ▸ l.runLimit, h₂ ▸ l.coolDown⟩
  writeConverter _ _ _ h _ := write_converterLaw h
  resetConverter := ⟨by decide, by decide⟩
  writeSupervision _ _ h := supervisionOf_law h
  resetSupervision := ⟨by decide, by decide, by decide, by decide, by decide, by decide⟩

theorem gaugeLaw_iff {s : State} : s.GaugeLaw ↔ s.Each Gauge.Law (fun _ => True) (fun _ => True) (fun _ => True) :=
  ⟨fun l => ⟨l, fun _ => trivial, fun _ => trivial, trivial⟩, fun p => p.1⟩

theorem settingsLaw_iff {s : State} :
    s.SettingsLaw ↔ s.Each Gauge.SettingsLaw Waterway.SettingsLaw Converter.SettingsLaw Supervision.Law :=
  ⟨fun l => ⟨l.gauges, l.waterways, l.converters, l.supervision⟩, fun ⟨g, w, c, x⟩ => ⟨w, g, c, x⟩⟩

/-! ## Every step -/

/-- Every command keeps the plain laws. -/
theorem exec_keeps_plainLaws {c : Instr} {s t : State} (h : exec c s = .next t) :
    (s.GenerationLaw → t.GenerationLaw) ∧ (s.WindowLaw → t.WindowLaw) ∧ (s.ClockLaw → t.ClockLaw) ∧
      (s.port.Law → t.port.Law) ∧ (s.SettingsLaw → t.SettingsLaw) ∧ (s.GaugeLaw → t.GaugeLaw) ∧
      (s.named = [] → t.named = []) := by
  obtain ⟨port, named⟩ := exec_portNamed h
  refine ⟨?_, fun w => w.exec h, kept_clockLaw.exec h, port, ?_, ?_, named⟩
  · exact (kept_generationLaw.byCommands (fun _ _ p => p) (fun _ _ p => p) fun s straps _ => generationLaw_poweredOn s straps).exec h
  · exact fun l => settingsLaw_iff.2 (partLaws_settings.byCommands.exec h (settingsLaw_iff.1 l))
  · exact fun l => gaugeLaw_iff.2 (partLaws_gauge.byCommands.exec h (gaugeLaw_iff.1 l))

/-- Settles O58: each law by the property that every elementary change keeps, the windows by the operations followed once more. -/
theorem stepKeepsPlainLaws : Obligations.StepKeepsPlainLaws := by
  intro s t h
  unfold step at h
  split at h
  · cases h; exact ⟨id, id, id, id, id, id, id⟩
  · rename_i i rest _
    obtain ⟨generation, window, clock, port, settings, gauge, named⟩ := exec_keeps_plainLaws h
    exact ⟨generation, fun w => window w, clock, port, fun l => settings ⟨l.waterways, l.gauges, l.converters, l.supervision⟩,
      gauge, named⟩

end Sys2Proof.Machine
end

section
/-! # The reset state (R3, R30, R36, R106, R158, R164, R176, Table 11-1) -/

namespace Sys2Proof.Machine

/-- Every slot is free and has its first generation at power-on (R3). -/
theorem slot_reset (k : SlotNo) : State.reset.slot k = { generation := 1, order := none } := by
  simp [State.slot, State.reset]

/-- A link at power-on keeps its law: it is DOWN with nothing on its way (R151). -/
theorem linkLaw_reset : State.reset.LinkLaw := by
  have e : ∀ u, ∃ w, State.reset.unit u = UnitBlock.reset w := by decide
  intro u
  obtain ⟨w, e⟩ := e u
  rw [e]
  exact ⟨rfl, nofun, nofun, nofun, nofun, rfl, nofun, fun _ => rfl⟩

/-- No queue holds an entry at power-on. -/
theorem queueLaw_reset : State.reset.QueueLaw := by
  have e : ∀ w, (State.reset.waterway w).queue = [] := by decide
  refine ⟨List.Pairwise.nil, fun w => ?_⟩
  unfold Waterway.QueueLaw
  rw [e w]
  exact ⟨List.Pairwise.nil, List.nodup_nil, nofun⟩

/-- Settles O57: the parts of the reset state one by one. -/
theorem resetMeetsLaws : Obligations.ResetMeetsLaws := by
  refine ⟨fun k => ?_, State.WindowLaw.reset, ⟨by decide, by decide⟩, ⟨rfl, rfl, nofun, nofun⟩, linkLaw_reset, ?_, ?_, ?_, ?_, ?_,
    queueLaw_reset, rfl⟩
  · rw [slot_reset]; decide
  · exact gaugeLaw_iff.2 (partLaws_gauge.powerOn State.reset 0xFF)
  · exact settingsLaw_iff.2 (partLaws_settings.powerOn State.reset 0xFF)
  · unfold State.FlowLaw; decide
  · unfold State.HeadLaw; decide
  · unfold State.InhibitLaw; decide

end Sys2Proof.Machine
end

section
/-! # LOOKUP (R14, Table 12-3): the bytes of a body, and a record as they report it -/

namespace Sys2Proof.Machine

/-! ## Numbers in bytes (R193) -/

@[simp] theorem length_beBytes (n v : Nat) : (beBytes n v).length = n := by
  induction n generalizing v with
  | zero => rfl
  | succ n ih => simp [beBytes, ih]

@[simp] theorem length_optBytes (n : Nat) (v : Option Nat) : (optBytes n v).length = n := length_beBytes _ _

@[simp] theorem length_beSigned (n : Nat) (v : Int) : (beSigned n v).length = n := length_beBytes _ _

/-- Bytes written for a number are read as that number, but for the bits above (R193). -/
theorem readBytes_beBytes (n v : Nat) : readBytes (beBytes n v) = v % 256 ^ n := by
  induction n generalizing v with
  | zero => simp [beBytes, readBytes, Nat.mod_one]
  | succ n ih =>
    have step : readBytes (beBytes (n + 1) v) = readBytes (beBytes n (v / 256)) * 256 + v % 256 := by
      simp [beBytes, readBytes]
    rw [step, ih, pow_succ, Nat.mul_comm (256 ^ n), Nat.mod_mul]
    omega

/-- The bits of yes-or-no items are the items (R194). -/
theorem testBit_bitsOf (bs : List Bool) (i : Nat) : (bitsOf bs).testBit i = bs.getD i false := by
  induction bs generalizing i with
  | nil => simp [bitsOf]
  | cons b bs ih =>
    have half : bitsOf (b :: bs) / 2 = bitsOf bs := by cases b <;> simp only [bitsOf, Bool.toNat_true, Bool.toNat_false] <;> omega
    have low : bitsOf (b :: bs) % 2 = b.toNat := by cases b <;> simp [bitsOf]
    cases i with
    | zero => cases b <;> simp_all [Nat.testBit_zero]
    | succ i => rw [Nat.testBit_succ, half, ih]; simp

theorem bitsOf_lt (bs : List Bool) : bitsOf bs < 2 ^ bs.length := by
  induction bs with
  | nil => simp [bitsOf]
  | cons b bs ih => cases b <;> simp [bitsOf, pow_succ] <;> omega

/-! ## The body of LOOKUP -/

/-- The presence bits of a record (Table 12-3). -/
def State.lookupPresence (s : State) (r : Order) : List Bool :=
  [r.life.phaseCode.isSome, r.finish.isSome, r.generates, r.generates, r.tolerance.isSome, r.partner.isSome,
    r.pairSense.isSome, r.successor.isSome, r.actualStart.isSome, r.life.actualEnd.isSome, r.life.causeCode.isSome,
    r.mode.pumpDirection, r.generates, r.generates, (s.reportedSetpoint r).isSome]

/-- What stands before the presence bits: 7 bytes. -/
def Order.lookupHead (r : Order) (h : Handle) : List Byte :=
  beBytes 2 h ++ beBytes 1 r.unit ++ beBytes 1 r.mode.code ++ beBytes 1 r.cls.code ++
    beBytes 1 r.life.stateCode ++ optBytes 1 r.life.phaseCode

/-- The fields from start to cause: 30 bytes. -/
def Order.lookupFields (r : Order) : List Byte :=
  beBytes 4 r.start ++ optBytes 4 r.finish ++
    (if r.mode = .generate then beBytes 2 r.target ++ beBytes 2 r.ramp else [0, 0, 0, 0]) ++ optBytes 2 r.tolerance ++
    optBytes 2 r.partner ++ optBytes 1 (r.pairSense.map PairSense.code) ++ optBytes 2 r.successor ++
    beSigned 2 r.plannedFlow ++ optBytes 4 r.actualStart ++ optBytes 4 r.life.actualEnd ++ optBytes 1 r.life.causeCode

/-- The attempts, the flags and the setpoint: 4 bytes. -/
def State.lookupTail (s : State) (r : Order) : List Byte :=
  (if r.mode = .pump ∨ r.mode = .condenseP then beBytes 1 r.attempts else [0]) ++
    beBytes 1 (bitsOf [r.retirePending, r.mode == .generate && r.derated, r.mode == .generate && r.curtailed, r.unseen]) ++
    optBytes 2 (if r.mode = .generate ∧ r.life.engaged = true then (s.unit r.unit).setpoint else none)

theorem length_lookupHead (r : Order) (h : Handle) : (r.lookupHead h).length = 7 := by simp [Order.lookupHead]

theorem length_lookupFields (r : Order) : r.lookupFields.length = 30 := by
  unfold Order.lookupFields; split <;> simp

theorem length_lookupTail (s : State) (r : Order) : (s.lookupTail r).length = 4 := by
  unfold State.lookupTail; split <;> simp

/-- The body of LOOKUP is those parts, one behind the other (Table 12-3). -/
theorem lookupBody_eq (s : State) (h : Handle) (r : Order) :
    s.lookupBody h r =
      r.lookupHead h ++ (beBytes 2 (bitsOf (s.lookupPresence r)) ++ (r.lookupFields ++ s.lookupTail r)) := by
  have zeros : optBytes 2 none ++ optBytes 2 none = [0, 0, 0, 0] := rfl
  have zero : optBytes 1 none = [0] := rfl
  have power : (if r.mode = .generate then beBytes 2 r.target ++ beBytes 2 r.ramp else [0, 0, 0, 0]) =
      optBytes 2 (if r.generates then some r.target else none) ++ optBytes 2 (if r.generates then some r.ramp else none) := by
    unfold Order.generates
    by_cases hm : r.mode = .generate
    · simp only [hm, if_true, beq_self_eq_true]; rfl
    · simp [hm, zeros]
  have attempts : (if r.mode = .pump ∨ r.mode = .condenseP then beBytes 1 r.attempts else [0]) =
      optBytes 1 (if r.mode.pumpDirection then some r.attempts else none) := by
    cases r.mode <;> simp [Mode.pumpDirection, zero] <;> rfl
  have setpoint : (if r.mode = .generate ∧ r.life.engaged = true then (s.unit r.unit).setpoint else none) =
      s.reportedSetpoint r := by
    unfold State.reportedSetpoint Order.generates; simp
  unfold State.lookupBody Order.lookupHead Order.lookupFields State.lookupTail State.lookupPresence
  rw [power, attempts, setpoint]
  simp only [List.append_assoc, Order.generates]

/-- A request's answer does not depend on what the port holds and which handles were named while it was carried out. -/
theorem answered_congr {s t t' : State} {kind : Nat} {tag : Byte} {n : Nat} {r : Result} {out : List Byte}
    (h : t = { t' with port := t.port, portOut := t.portOut, named := t.named }) :
    s.answered kind tag n r out t = s.answered kind tag n r out t' := by rw [h]; rfl

/-- A record that a handle names stands in the handle's slot. -/
theorem slot_of_order? {s : State} {h : Handle} {r : Order} (hr : s.order? h = some r) :
    s.slot (slotOf h) = { generation := h / 64, order := some r } := by
  unfold State.order? at hr
  split at hr
  · rename_i g; rw [← g, ← hr]
  · cases hr

theorem modOrder_eq {s : State} {h : Handle} {r : Order} (hr : s.order? h = some r) (f : Order → Order) :
    s.modOrder h f = s.setSlot (slotOf h) { s.slot (slotOf h) with order := some (f r) } := by
  unfold State.modOrder; rw [hr]

theorem withOrder_some {s : State} {h : Handle} {r : Order} (hr : s.order? h = some r) (k : Order → Answer) :
    s.withOrder h k = k r := by unfold State.withOrder; rw [hr]

theorem withOrder_none {s : State} {h : Handle} (hr : s.order? h = none) (k : Order → Answer) :
    s.withOrder h k = .refused .noSuchOrder := by unfold State.withOrder; rw [hr]

/-- A LOOKUP that the port hands on: the record in the table is asked for (R14). -/
theorem exec_lookup {s : State} {tag : Byte} {body : List Byte} (mode : s.mode = .dispatch) (length : body.length = 2) :
    exec (.lookup tag body) s = .next (s.delivered 5 tag 7 ((s.frameEnded (requestFrame 5 tag body)).withOrder (field body 0 2)
      fun r => (s.frameEnded (requestFrame 5 tag body)).lookup (field body 0 2) r)) := by
  have carried := exec_carried (c := .lookup tag body) rfl (s := s) (by rw [mode]; rfl) length
  rwa [length] at carried

/-- The presence bits as a LOOKUP carries them (Table 12-3). -/
theorem lookupPresence_field (s : State) (h : Handle) (r : Order) :
    field (s.lookupBody h r) 7 2 = bitsOf (s.lookupPresence r) := by
  have most : bitsOf (s.lookupPresence r) < 256 ^ 2 :=
    lt_of_lt_of_le (bitsOf_lt _) (by simp [State.lookupPresence])
  unfold field
  rw [lookupBody_eq, List.drop_left' (length_lookupHead r h), List.take_left' (length_beBytes _ _), readBytes_beBytes,
    Nat.mod_eq_of_lt most]

/-- Settles O25: the body is cut at its parts, and the unseen flag is the one change. -/
theorem recordLookedUp : Obligations.RecordLookedUp := by
  intro s tag body h mode length named
  subst named
  rw [exec_lookup mode length]
  refine ⟨fun stale => ?_, fun r hr => ⟨s.lookupBody (field body 0 2) r, ?_, ?_, ?_, ?_, ?_, ?_⟩⟩
  · rw [withOrder_none (by rw [frameEnded_order?, stale])]; rfl
  · have same : (s.frameEnded (requestFrame 5 tag body)).lookupBody (field body 0 2) r = s.lookupBody (field body 0 2) r := by
      unfold State.lookupBody State.reportedSetpoint; rw [frameEnded_unit]
    have found : (s.frameEnded (requestFrame 5 tag body)).order? (field body 0 2) = some r := by rw [frameEnded_order?, hr]
    rw [withOrder_some found]
    unfold State.delivered State.lookup
    dsimp only
    rw [same, modOrder_eq found, frameEnded_slot]
    exact congrArg _ (answered_congr (by rw [frameEnded_eq]; rfl))
  · simp [lookupBody_eq, length_lookupHead, length_lookupFields, length_lookupTail]
  · rw [lookupBody_eq]; exact List.take_left' (length_lookupHead _ _)
  · have bits : ∀ i, (field (s.lookupBody (field body 0 2) r) 7 2).testBit i = (s.lookupPresence r).getD i false := by
      intro i; rw [lookupPresence_field, testBit_bitsOf]
    have pump : r.mode.pumpDirection = (r.mode == .pump || r.mode == .condenseP) := by cases r.mode <;> rfl
    have setpoint : (s.reportedSetpoint r).isSome =
        (r.mode == .generate && r.life.engaged && (s.unit r.unit).setpoint.isSome) := by
      unfold State.reportedSetpoint Order.generates
      cases (r.mode == .generate && r.life.engaged) <;> simp
    rw [List.map_congr_left fun i _ => bits i]
    simp [List.range_succ, State.lookupPresence, pump, setpoint, Order.generates]
  · have front : ((r.lookupHead (field body 0 2)) ++ beBytes 2 (bitsOf (s.lookupPresence r))).length = 9 := by
      simp [length_lookupHead]
    rw [lookupBody_eq, ← List.append_assoc, List.drop_left' front, List.take_left' (length_lookupFields r)]
    rfl
  · have front : ((r.lookupHead (field body 0 2)) ++ (beBytes 2 (bitsOf (s.lookupPresence r)) ++ r.lookupFields)).length = 39 := by
      simp [length_lookupHead, length_lookupFields]
    rw [lookupBody_eq, ← List.append_assoc (beBytes 2 _), ← List.append_assoc, List.drop_left' front]
    rfl

end Sys2Proof.Machine
end

section
/-! # LIST_UNIT and LIST_STATE (R15, R16) -/

namespace Sys2Proof.Machine

/-! ## The records in slot order -/

/-- The list of records goes up in slot number (R10). -/
theorem orders_slots (s : State) : s.orders.Pairwise fun a b => slotOf a.1 < slotOf b.1 := by
  have index : s.slots.toList.zipIdx.Pairwise fun a b => a.2 < b.2 := by
    rw [← List.pairwise_map (f := Prod.snd) (R := (· < ·)), List.zipIdx_map_snd]
    exact List.pairwise_lt_range'
  unfold State.orders
  rw [List.pairwise_filterMap]
  refine index.imp_of_mem fun {a b} ha hb lt x hx y hy => ?_
  obtain ⟨r, -, rfl⟩ := Option.map_eq_some_iff.1 hx
  obtain ⟨q, -, rfl⟩ := Option.map_eq_some_iff.1 hy
  have below : ∀ c : Slot × Nat, c ∈ s.slots.toList.zipIdx → c.2 < 64 := fun c hc => by
    have := (List.mem_zipIdx' hc).1; simpa using this
  have := below a ha
  have := below b hb
  rw [Fin.lt_def, slotOf_val, slotOf_val]
  omega

/-- There are no more records than slots. -/
theorem length_orders_le (s : State) : s.orders.length ≤ 64 :=
  (List.length_filterMap_le _ _).trans (by simp)

/-- No two records have one handle. -/
theorem orders_nodup (s : State) : (s.orders.map (·.1)).Nodup :=
  List.pairwise_map.2 ((orders_slots s).imp fun lt e => by rw [e] at lt; exact lt_irrefl _ lt)

/-! ## The unit chain (R11) -/

theorem insertByStart_perm (x : Handle × Order) (ys : List (Handle × Order)) : (insertByStart x ys).Perm (x :: ys) := by
  induction ys with
  | nil => exact .refl _
  | cons y ys ih =>
    unfold insertByStart
    split <;> [exact .refl _; exact (ih.cons y).trans (.swap x y ys)]

theorem insertByStart_sorted (x : Handle × Order) {ys : List (Handle × Order)}
    (h : ys.Pairwise fun a b => a.2.start ≤ b.2.start) : (insertByStart x ys).Pairwise fun a b => a.2.start ≤ b.2.start := by
  induction ys with
  | nil => exact List.pairwise_singleton _ _
  | cons y ys ih =>
    obtain ⟨first, rest⟩ := List.pairwise_cons.1 h
    unfold insertByStart
    split
    · rename_i le
      refine List.pairwise_cons.2 ⟨fun z hz => ?_, h⟩
      rcases List.mem_cons.1 hz with rfl | hz <;> [exact le; exact le.trans (first z hz)]
    · rename_i lt
      refine List.pairwise_cons.2 ⟨fun z hz => ?_, ih rest⟩
      rcases List.mem_cons.1 ((insertByStart_perm x ys).mem_iff.1 hz) with rfl | hz <;> [omega; exact first z hz]

/-- The chain has the live orders of the unit, each once. -/
theorem chain_perm (s : State) (u : UnitNo) : (s.chain u).Perm (s.liveOrders u) := by
  unfold State.chain
  induction s.liveOrders u with
  | nil => exact .refl _
  | cons x xs ih => exact (insertByStart_perm x _).trans (ih.cons x)

/-- The chain goes up in start (R11). -/
theorem chain_sorted (s : State) (u : UnitNo) : (s.chain u).Pairwise fun a b => a.2.start ≤ b.2.start := by
  unfold State.chain
  induction s.liveOrders u with
  | nil => exact .nil
  | cons x xs ih => exact insertByStart_sorted x ih

theorem mem_chain {s : State} {u : UnitNo} {h : Handle} {r : Order} :
    (h, r) ∈ s.chain u ↔ s.order? h = some r ∧ r.unit = u ∧ r.life.live = true := by
  rw [(chain_perm s u).mem_iff]
  simp [State.liveOrders, mem_orders]

/-- The records of a unit that have ended, in slot order (R15). -/
def State.endedOrders (s : State) (u : UnitNo) : List (Handle × Order) :=
  s.orders.filter fun p => p.2.unit == u && !p.2.life.live

/-- The chain and the ended records together are records of the table, each once. -/
theorem chain_append_ended_perm (s : State) (u : UnitNo) :
    (s.chain u ++ s.endedOrders u).Perm (s.orders.filter fun p => p.2.unit == u) := by
  have split := List.filter_append_perm (fun p : Handle × Order => p.2.life.live) (s.orders.filter fun p => p.2.unit == u)
  simp only [List.filter_filter] at split
  have live : s.liveOrders u = s.orders.filter fun p => p.2.life.live && p.2.unit == u :=
    List.filter_congr fun _ _ => Bool.and_comm _ _
  have ended : s.endedOrders u = s.orders.filter fun p => !p.2.life.live && p.2.unit == u :=
    List.filter_congr fun _ _ => Bool.and_comm _ _
  rw [ended]
  exact ((chain_perm s u).append_right _).trans (live ▸ split)

theorem map_fst_mem {l : List (Handle × Order)} {h : Handle} : h ∈ l.map (·.1) ↔ ∃ r, (h, r) ∈ l := by simp

/-! ## The operands -/

theorem unitOf_none {b : Byte} (h : 8 ≤ b.toNat) : unitOf b = none := by
  unfold unitOf; rw [dif_neg (by omega)]

theorem unitOf_some (u : UnitNo) : unitOf (BitVec.ofNat 8 u) = some u := by revert u; decide

/-- The state set and the option of a LIST_STATE are taken when both lie in their ranges (R16). -/
theorem stateSetOf_some {body : List Byte} (set : (byteAt body 0).toNat < 128) (option : (byteAt body 1).toNat < 2) :
    stateSetOf body = some (byteAt body 0, byteAt body 1 == 1) := by
  have set' : bitsBelow 7 (byteAt body 0) = true := by simpa [bitsBelow] using set
  have option' : ∀ b : Byte, b.toNat < 2 → boolOf b = some (b == 1) := by decide
  unfold stateSetOf
  rw [if_pos set', option' _ option]
  rfl

theorem stateSetOf_none {body : List Byte} (h : 128 ≤ (byteAt body 0).toNat ∨ 2 ≤ (byteAt body 1).toNat) :
    stateSetOf body = none := by
  have option : ∀ b : Byte, 2 ≤ b.toNat → boolOf b = none := by decide
  unfold stateSetOf
  split
  · rename_i set
    have set : (byteAt body 0).toNat < 128 := by simpa [bitsBelow] using set
    rw [option _ (by omega)]; rfl
  · rfl

/-! ## The requests -/

theorem exec_listUnit {s : State} {tag : Byte} {body : List Byte} (mode : s.mode = .dispatch) (length : body.length = 1) :
    exec (.listUnit tag body) s = .next (s.delivered 6 tag 6 (withField (unitOf (byteAt body 0)) fun u =>
      .ok (s.frameEnded (requestFrame 6 tag body)) (handleList (s.unitHandles u)))) := by
  have carried := exec_carried (c := .listUnit tag body) rfl (s := s) (by rw [mode]; rfl) length
  have same : ∀ u, (s.frameEnded (requestFrame 6 tag body)).unitHandles u = s.unitHandles u := fun u => by
    unfold State.unitHandles State.chain State.liveOrders; rw [frameEnded_orders]
  simpa only [ownerOf, same, length] using carried

theorem exec_listState {s : State} {tag : Byte} {body : List Byte} (mode : s.mode = .dispatch) (length : body.length = 2) :
    exec (.listState tag body) s = .next (s.delivered 7 tag 7 (withField (stateSetOf body) fun x =>
      .ok (s.frameEnded (requestFrame 7 tag body)) (handleList (s.stateHandles x.1 x.2)))) := by
  have carried := exec_carried (c := .listState tag body) rfl (s := s) (by rw [mode]; rfl) length
  have same : ∀ set unseen, (s.frameEnded (requestFrame 7 tag body)).stateHandles set unseen = s.stateHandles set unseen :=
    fun _ _ => by unfold State.stateHandles; rw [frameEnded_orders]
  simpa only [ownerOf, same, length] using carried

/-- What an owner that changes nothing leaves (R176). -/
theorem answered_frameEnded (s : State) (kind : Nat) (tag : Byte) (n : Nat) (r : Result) (out bytes : List Byte) :
    s.answered kind tag n r out (s.frameEnded bytes) = s.answered kind tag n r out s.taken :=
  answered_congr (by rw [frameEnded_eq])

/-- Settles O26: the lists are filters of the records in slot order, the chain sorted by start. -/
theorem recordsListed : Obligations.RecordsListed := by
  refine ⟨fun s tag body mode length => ?_, fun s tag body mode length => ?_⟩
  · rw [exec_listUnit mode length]
    refine ⟨fun high => by rw [unitOf_none high]; rfl, fun u hu => ?_⟩
    have perm := (chain_append_ended_perm s u).map (·.1)
    rw [List.map_append] at perm
    refine ⟨(s.chain u).map (·.1), (s.endedOrders u).map (·.1), ?_, ?_, ?_, fun h => ?_, fun h => ?_, ?_, ?_⟩
    · rw [hu, unitOf_some]
      have list : handleList (s.unitHandles u) = beBytes 1 (((s.chain u).map (·.1)).length + ((s.endedOrders u).map (·.1)).length) ++
          ((s.chain u).map (·.1) ++ (s.endedOrders u).map (·.1)).flatMap (beBytes 2) := by
        rw [← List.length_append]; rfl
      rw [← list]
      exact congrArg _ (answered_frameEnded _ _ _ _ _ _ _)
    · rw [← List.length_append, perm.length_eq, List.length_map]
      exact (List.length_filter_le _ _).trans (length_orders_le s)
    · exact perm.nodup_iff.2 ((orders_nodup s).sublist (List.filter_sublist.map _))
    · rw [map_fst_mem]; exact exists_congr fun r => mem_chain
    · rw [map_fst_mem]
      refine exists_congr fun r => ?_
      simp [State.endedOrders, mem_orders]
    · rw [List.pairwise_map]
      refine (chain_sorted s u).imp_of_mem fun {a b} ha hb le p q hp hq => ?_
      rw [(mem_chain.1 ha).1] at hp
      rw [(mem_chain.1 hb).1] at hq
      cases hp; cases hq
      exact le
    · rw [List.pairwise_map]; exact (orders_slots s).filter _
  · rw [exec_listState mode length]
    refine ⟨fun high => by rw [stateSetOf_none high]; rfl, fun set option => ?_⟩
    rw [stateSetOf_some set option]
    refine ⟨s.stateHandles (byteAt body 0) (byteAt body 1 == 1), congrArg _ (answered_frameEnded _ _ _ _ _ _ _), ?_, ?_, fun h => ?_⟩
    · unfold State.stateHandles
      rw [List.length_map]
      exact (List.length_filter_le _ _).trans (length_orders_le s)
    · unfold State.stateHandles
      rw [List.pairwise_map]; exact (orders_slots s).filter _
    · unfold State.stateHandles
      rw [map_fst_mem]
      refine exists_congr fun r => ?_
      rw [List.mem_filter, mem_orders]
      by_cases one : byteAt body 1 = 1#8 <;> simp [one]

end Sys2Proof.Machine
end

section
/-! # RETIRE (R17 to R20, Table 1-6) -/

namespace Sys2Proof.Machine

/-! ## The state that RETIRE works on -/

/-- The state as a request finds it, with the handles it names (R9, log entry 29). -/
def State.asked (s : State) (bytes : List Byte) (names : List Handle) : State := { s.frameEnded bytes with named := names }

section
variable (s : State) (bytes : List Byte) (names : List Handle)

/-- Only the latches, the port, what was sent and the named handles differ from the state before. -/
theorem asked_eq : s.asked bytes names =
    { s.taken with port := s.port.atFrame bytes, portOut := List.replicate bytes.length 0, named := names } := by
  unfold State.asked; rw [frameEnded_eq]

@[simp] theorem asked_order? (h : Handle) : (s.asked bytes names).order? h = s.order? h := frameEnded_order? s bytes h
@[simp] theorem asked_slot (k : SlotNo) : (s.asked bytes names).slot k = s.slot k := frameEnded_slot s bytes k
@[simp] theorem asked_unit (u : UnitNo) : (s.asked bytes names).unit u = s.unit u := frameEnded_unit s bytes u
@[simp] theorem asked_waterway (w : WaterwayNo) : (s.asked bytes names).waterway w = s.waterway w :=
  frameEnded_waterway s bytes w
@[simp] theorem asked_named : (s.asked bytes names).named = names := rfl
@[simp] theorem asked_latches : (s.asked bytes names).latches = s.taken.latches := by rw [asked_eq]
@[simp] theorem asked_linkOut : (s.asked bytes names).linkOut = [] := by rw [asked_eq]; rfl
@[simp] theorem asked_supervision : (s.asked bytes names).supervision = s.supervision := by
  rw [asked_eq]; unfold State.taken State.atFrame; dsimp only; split <;> rfl

end

/-! ## The table after a record is freed -/

/-- A record without its link to the one that is freed (R13). -/
def Order.unlinkedFrom (h : Handle) (q : Order) : Order := if q.successor = some h then { q with successor := none } else q

theorem slot_unlinkTo (s : State) (h : Handle) (k : SlotNo) :
    (s.unlinkTo h).slot k = { s.slot k with order := (s.slot k).order.map (Order.unlinkedFrom h) } := by
  unfold Order.unlinkedFrom
  simp only [State.unlinkTo, State.slot, Fin.getElem_fin, getElem_mapVector]

/-- Freeing a record leaves its slot free with the next generation, and no record that names it as successor (R3, R10, R13). -/
theorem slot_freeOrder {s : State} {h : Handle} {r : Order} (hr : s.order? h = some r) (k : SlotNo) :
    (s.freeOrder h).slot k =
      if slotOf h = k then { generation := nextGeneration (s.slot (slotOf h)).generation, order := none }
      else { s.slot k with order := (s.slot k).order.map (Order.unlinkedFrom h) } := by
  unfold State.freeOrder
  rw [hr]
  dsimp only
  rw [slot_setSlot, slot_unlinkTo]

/-- After a record is freed its handle names none, and every other handle what it named, without a link to it (R2, R10, R13). -/
theorem order?_freeOrder {s : State} {h : Handle} {r : Order} (hr : s.order? h = some r) (k : Handle) :
    (s.freeOrder h).order? k = if k = h then none else (s.order? k).map (Order.unlinkedFrom h) := by
  have own := slot_of_order? hr
  unfold State.order?
  rw [slot_freeOrder hr]
  by_cases same : slotOf h = slotOf k
  · rw [if_pos same, ← same, own]
    by_cases hk : k = h
    · simp [hk]
    · have other : h / 64 ≠ k / 64 := fun e => hk (handle_ext same e).symm
      simp [hk, other]
  · have hk : k ≠ h := fun e => same (by rw [e])
    rw [if_neg same, if_neg hk]
    dsimp only
    split <;> rfl

/-! ## What work without tasks leaves -/

theorem finish_nil (s : State) : Work.finish (s, []) = s := rfl

/-- A task that finds nothing to do ends the event. -/
theorem finish_of_idle {s : State} {t : Task} (h : s.runTask t = (s, [])) : Work.finish (s, [t]) = s := by
  show State.settleWithin (511 + 1) [t] s = s
  unfold State.settleWithin
  rw [h]
  rfl

/-- Where no order of the unit is DUE the engagement test finds nothing to do (R65). -/
theorem engagement_idle {s : State} {u : UnitNo} (h : ∀ k q, s.order? k = some q → q.unit = u → q.life ≠ .due) :
    s.runTask (.engagement u) = (s, []) := by
  have none : s.dueOrders u = [] := by
    refine List.filter_eq_nil_iff.2 fun p hp => ?_
    obtain ⟨hq, hu, -⟩ := mem_chain.1 hp
    simpa using h p.1 p.2 hq hu
  show s.engagementTest u = (s, [])
  unfold State.engagementTest State.engageFirst
  rw [none]
  split
  · rfl
  · split <;> rfl

/-! ## One record retired -/

/-- A record that is not engaged is freed, and that is all (Table 1-6). -/
theorem retireOne_waiting {s : State} {h : Handle} {r : Order} (hr : s.order? h = some r) (he : r.life.engaged = false) :
    s.retireOne h = s.freeOrder h := by
  have hf : r.life.freedAtOnce r.mode = true := by
    revert he; cases r.life <;> simp [Life.engaged, Life.freedAtOnce]
  unfold State.retireOne State.retireFree
  rw [hr]
  dsimp only
  rw [if_pos hf, if_neg (by simp [he])]
  rfl

/-- A record whose machine turns is marked, and its stop is begun (Table 1-6). -/
theorem retireOne_turning {s : State} {h : Handle} {r : Order} (hr : s.order? h = some r)
    (hf : r.life.freedAtOnce r.mode = false) :
    s.retireOne h = ((s.modOrder h fun r => { r with retirePending := true }).beginStop h .windowEnd).finish := by
  unfold State.retireOne State.retireStop
  rw [hr]
  dsimp only
  rw [if_neg (by simp [hf])]

/-! ## The request -/

theorem exec_retire {s : State} {tag : Byte} {body : List Byte} {h : Handle} {r : Order} (mode : s.mode = .dispatch)
    (length : body.length = 2) (named : h = field body 0 2) (hr : s.order? h = some r) :
    exec (.retire tag body) s = .next (s.delivered 4 tag 7 ((s.frameEnded (requestFrame 4 tag body)).retire h r)) := by
  have carried := exec_carried (c := .retire tag body) rfl (s := s) (by rw [mode]; rfl) length
  subst named
  have found : (s.frameEnded (requestFrame 4 tag body)).order? (field body 0 2) = some r := by
    rw [frameEnded_order?, hr]
  simpa only [ownerOf, withOrder_some found, length] using carried

/-- RETIRE of a single record: ACCEPTED_STOPPING when the record is left in the table, OK when it is not (R17). -/
theorem exec_retire_single {s : State} {tag : Byte} {body : List Byte} {h : Handle} {r : Order} (mode : s.mode = .dispatch)
    (length : body.length = 2) (named : h = field body 0 2) (hr : s.order? h = some r) (single : r.partner = none) {t : State}
    (ht : (s.asked (requestFrame 4 tag body) [h]).retireOne h = t) :
    exec (.retire tag body) s =
      .next (s.answered 4 tag 7 (if (t.order? h).isSome then .acceptedStopping else .ok) [] t) := by
  rw [exec_retire mode length named hr]
  have legs : (s.frameEnded (requestFrame 4 tag body)).retiredLegs h r = [h] := by unfold State.retiredLegs; rw [single]
  unfold State.retire
  rw [legs, single]
  show Host.Outcome.next (s.delivered 4 tag 7 (if ([h].any fun k =>
      (((s.asked (requestFrame 4 tag body) [h]).retireOne h).order? k).isSome) = true
    then .stopping ((s.asked (requestFrame 4 tag body) [h]).retireOne h)
    else .ok ((s.asked (requestFrame 4 tag body) [h]).retireOne h) [])) = _
  rw [ht]
  cases hs : (t.order? h).isSome <;> simp [hs, State.delivered]

/-- RETIRE of either leg of a pair treats both, the GENERATE leg first (R20). -/
theorem exec_retire_pair {s : State} {tag : Byte} {body : List Byte} {h g : Handle} {r q : Order} (mode : s.mode = .dispatch)
    (length : body.length = 2) (named : field body 0 2 = h ∨ field body 0 2 = g) (pair : s.IsPair h g r q) :
    ∃ names, h ∈ names ∧ g ∈ names ∧ ∀ t, ((s.asked (requestFrame 4 tag body) names).retireOne g).retireOne h = t →
      exec (.retire tag body) s =
        .next (s.answered 4 tag 7 (if (t.order? g).isSome ∨ (t.order? h).isSome then .acceptedStopping else .ok) [] t) := by
  have carried : ∀ k y, k = field body 0 2 → s.order? k = some y →
      (s.frameEnded (requestFrame 4 tag body)).retiredLegs k y = [g, h] → ∀ t,
      ((s.asked (requestFrame 4 tag body) (k :: y.partner.toList)).retireOne g).retireOne h = t →
      exec (.retire tag body) s =
        .next (s.answered 4 tag 7 (if (t.order? g).isSome ∨ (t.order? h).isSome then .acceptedStopping else .ok) [] t) := by
    intro k y hk hy legs t ht
    rw [exec_retire mode length hk hy]
    unfold State.retire
    rw [legs]
    show Host.Outcome.next (s.delivered 4 tag 7 (if ([g, h].any fun j =>
        ((((s.asked (requestFrame 4 tag body) (k :: y.partner.toList)).retireOne g).retireOne h).order? j).isSome) = true
      then .stopping (((s.asked (requestFrame 4 tag body) (k :: y.partner.toList)).retireOne g).retireOne h)
      else .ok (((s.asked (requestFrame 4 tag body) (k :: y.partner.toList)).retireOne g).retireOne h) [])) = _
    rw [ht]
    cases hg : (t.order? g).isSome <;> cases hh : (t.order? h).isSome <;> simp [hg, hh, State.delivered]
  rcases named with hk | hk
  · refine ⟨h :: r.partner.toList, by simp, by simp [pair.pumpPartner], carried h r hk.symm pair.pumpLeg ?_⟩
    unfold State.retiredLegs
    rw [pair.pumpPartner]
    simp [pair.genLeg, pair.pumpMode]
  · refine ⟨g :: q.partner.toList, by simp [pair.genPartner], by simp, carried g q hk.symm pair.genLeg ?_⟩
    unfold State.retiredLegs
    rw [pair.genPartner]
    simp [pair.pumpLeg, pair.genMode]

/-! ## Freed at once -/

/-- RETIRE of a single record that is not engaged (R17, Table 1-6). -/
theorem retire_frees_waiting {s : State} {tag : Byte} {body : List Byte} {h : Handle} {r : Order} (mode : s.mode = .dispatch)
    (length : body.length = 2) (named : h = field body 0 2) (hr : s.order? h = some r) (single : r.partner = none)
    (he : r.life.engaged = false) : ∃ t : State,
      exec (.retire tag body) s = .next (s.answered 4 tag 7 .ok [] t) ∧ t = { s.taken with slots := t.slots } ∧
      t.slot (slotOf h) =
        { generation := if (s.slot (slotOf h)).generation = 1023 then 1 else (s.slot (slotOf h)).generation + 1, order := none } ∧
      ∀ k, k ≠ slotOf h → t.slot k =
        { s.slot k with
          order := (s.slot k).order.map fun q => if q.successor = some h then { q with successor := none } else q } := by
  have found : (s.asked (requestFrame 4 tag body) [h]).order? h = some r := by rw [asked_order?, hr]
  have freed := slot_freeOrder found
  have done := exec_retire_single (tag := tag) mode length named hr single (retireOne_waiting found he)
  rw [order?_freeOrder found h, if_pos rfl] at done
  refine ⟨{ s.taken with slots := ((s.asked (requestFrame 4 tag body) [h]).freeOrder h).slots }, ?_, rfl, ?_, fun k hk => ?_⟩
  · rw [done]
    refine congrArg _ (answered_congr ?_)
    unfold State.freeOrder
    rw [found, asked_eq]
    rfl
  · show ((s.asked (requestFrame 4 tag body) [h]).freeOrder h).slot (slotOf h) = _
    rw [freed, if_pos rfl, asked_slot]
    rfl
  · show ((s.asked (requestFrame 4 tag body) [h]).freeOrder h).slot k = _
    rw [freed, if_neg hk.symm, asked_slot]
    rfl

/-! ## What a change of the table leaves unchanged -/

section
variable (s : State) (h : Handle) (f : Order → Order)

/-- A changed record changes the table alone. -/
theorem modOrder_frame : s.modOrder h f = { s with slots := (s.modOrder h f).slots } := by
  unfold State.modOrder; split <;> rfl

@[simp] theorem modOrder_unit (u : UnitNo) : (s.modOrder h f).unit u = s.unit u := by rw [modOrder_frame]; rfl
@[simp] theorem modOrder_waterway (w : WaterwayNo) : (s.modOrder h f).waterway w = s.waterway w := by rw [modOrder_frame]; rfl
@[simp] theorem modOrder_named : (s.modOrder h f).named = s.named := by rw [modOrder_frame]
@[simp] theorem modOrder_latches : (s.modOrder h f).latches = s.latches := by rw [modOrder_frame]
@[simp] theorem modOrder_linkOut : (s.modOrder h f).linkOut = s.linkOut := by rw [modOrder_frame]
@[simp] theorem modOrder_supervision : (s.modOrder h f).supervision = s.supervision := by rw [modOrder_frame]

/-- A freed record changes the table alone. -/
theorem freeOrder_frame : s.freeOrder h = { s with slots := (s.freeOrder h).slots } := by
  unfold State.freeOrder; split <;> rfl

@[simp] theorem freeOrder_unit (u : UnitNo) : (s.freeOrder h).unit u = s.unit u := by rw [freeOrder_frame]; rfl
@[simp] theorem freeOrder_waterway (w : WaterwayNo) : (s.freeOrder h).waterway w = s.waterway w := by rw [freeOrder_frame]; rfl
@[simp] theorem freeOrder_startQueue : (s.freeOrder h).startQueue = s.startQueue := by rw [freeOrder_frame]

end

/-- The event of a record that the request names is not raised (R9). -/
theorem enter_named {s : State} {h : Handle} (named : h ∈ s.named) (l : Life) (e : EventKind) :
    s.enter h l e = s.modOrder h fun r => { r with life := l } := by
  unfold State.enter State.note
  rw [modOrder_named, if_pos (by simpa using named)]

section
variable (s : State) (u : UnitNo) (c : Context)

/-- A changed context changes its unit and the latches alone. -/
theorem setContext_frame :
    s.setContext u c = { s with units := (s.setContext u c).units, latches := (s.setContext u c).latches } := by
  unfold State.setContext; dsimp only; split <;> rfl

@[simp] theorem setContext_order? (k : Handle) : (s.setContext u c).order? k = s.order? k := by rw [setContext_frame]; rfl
@[simp] theorem setContext_startQueue : (s.setContext u c).startQueue = s.startQueue := by rw [setContext_frame]
@[simp] theorem setContext_waterway (w : WaterwayNo) : (s.setContext u c).waterway w = s.waterway w := by rw [setContext_frame]; rfl
@[simp] theorem setContext_context : ((s.setContext u c).unit u).context = c := by
  unfold State.setContext; dsimp only; split <;> simp

end

/-! ## An early phase of STARTING -/

/-- What an order without a partner and without a converter releases: its queue entries and its unit's working values (R83). -/
theorem releaseItems_single {s : State} {h : Handle} {r : Order} (single : r.partner = none)
    (waits : r.life ≠ .starting .converterRun) :
    s.releaseItems h r = ((s.leaveStartQueue h).leaveGate (s.unit r.unit).waterway h).modUnit r.unit fun b =>
      { b with supervision := none, setpoint := none, ceiling := none, pendingSetpoint := none } := by
  unfold State.releaseItems
  simp [waits, Order.isPairLeg, single]

/-- RETIRE of an order whose engaged machine stands still: it is freed, with its queue entries, and its unit is IDLE (Table 1-6). -/
theorem retireOne_early {s : State} {h : Handle} {r : Order} (hr : s.order? h = some r) (single : r.partner = none)
    (last : r.successor = none) (engaged : r.life.engaged = true) (early : r.life.freedAtOnce r.mode = true)
    (noDue : ∀ k q, s.order? k = some q → q.unit = r.unit → q.life ≠ .due) :
    s.retireOne h = ((s.releaseItems h r).freeOrder h).setContext r.unit .idle := by
  have waits : r.life ≠ .starting .converterRun := by
    rintro e; simp [e, Life.freedAtOnce, earlyStart] at early
  have found : ∀ k, (s.releaseItems h r).order? k = s.order? k := by
    intro k; rw [releaseItems_single single waits]; rfl
  have idle : ∀ k q, (((s.releaseItems h r).freeOrder h).setContext r.unit .idle).order? k = some q →
      q.unit = r.unit → q.life ≠ .due := by
    intro k q hq hu
    rw [setContext_order?, order?_freeOrder ((found h).trans hr)] at hq
    split at hq
    · cases hq
    · obtain ⟨y, hy, rfl⟩ := Option.map_eq_some_iff.1 hq
      rw [found] at hy
      unfold Order.unlinkedFrom at hu ⊢
      split at hu <;> simpa [*] using noDue k y hy hu
  have noTask : successorTask r = [] := by unfold successorTask; rw [last]
  unfold State.retireOne State.retireFree
  rw [hr]
  dsimp only
  rw [if_pos early, if_pos engaged, noTask]
  exact finish_of_idle (engagement_idle idle)

/-- RETIRE of a single order in an early phase of STARTING (R17, Table 1-6). -/
theorem retire_frees_early {s : State} {tag : Byte} {body : List Byte} {h : Handle} {r : Order} (mode : s.mode = .dispatch)
    (length : body.length = 2) (named : h = field body 0 2) (hr : s.order? h = some r) (single : r.partner = none)
    (early : r.life = .starting .queuedConverter ∨ r.life = .starting .pairHold ∨
      (r.life = .starting .awaitingGate ∧ r.mode ≠ .pump))
    (last : r.successor = none) (noDue : ∀ k q, s.order? k = some q → q.unit = r.unit → q.life ≠ .due) : ∃ t : State,
      exec (.retire tag body) s = .next (s.answered 4 tag 7 .ok [] t) ∧ t.order? h = none ∧
      (t.unit r.unit).context = .idle ∧ (∀ e ∈ t.startQueue, e.handle ≠ h) ∧
      ∀ e ∈ (t.waterway (s.unit r.unit).waterway).queue, e.handle ≠ h := by
  obtain ⟨p, starting, standing⟩ : ∃ p, r.life = .starting p ∧ earlyStart r.mode p = true := by
    rcases early with e | e | ⟨e, m⟩
    · exact ⟨_, e, rfl⟩
    · exact ⟨_, e, rfl⟩
    · exact ⟨_, e, by simpa [earlyStart] using m⟩
  have waits : r.life ≠ .starting .converterRun := by
    rintro e; rw [starting] at e; cases e; simp [earlyStart] at standing
  have found : (s.asked (requestFrame 4 tag body) [h]).order? h = some r := by rw [asked_order?, hr]
  have retired := retireOne_early found single last (by rw [starting]; rfl) (by rw [starting]; exact standing)
    (fun k q hq => noDue k q ((asked_order? ..).symm.trans hq))
  rw [releaseItems_single single waits, asked_unit] at retired
  have released : ((((s.asked (requestFrame 4 tag body) [h]).leaveStartQueue h).leaveGate (s.unit r.unit).waterway h).modUnit
      r.unit fun b => { b with supervision := none, setpoint := none, ceiling := none, pendingSetpoint := none }).order? h
        = some r := found
  have gone : ((s.asked (requestFrame 4 tag body) [h]).retireOne h).order? h = none := by
    rw [retired, setContext_order?, order?_freeOrder released, if_pos rfl]
  refine ⟨_, ?_, gone, ?_, ?_, ?_⟩
  · rw [exec_retire_single mode length named hr single rfl, gone]; rfl
  · rw [retired, setContext_context]
  · intro e he
    rw [retired, setContext_startQueue, freeOrder_startQueue] at he
    simpa using (List.mem_filter.1 he).2
  · intro e he
    rw [retired, setContext_waterway, freeOrder_waterway, modUnit_waterway] at he
    unfold State.leaveGate at he
    rw [waterway_modWaterway, if_pos rfl] at he
    simpa using (List.mem_filter.1 he).2

/-! ## A stop begun -/

/-- RETIRE of an order that turns its machine begins the stop by Table 4-3, where no PUMP leg and no successor takes part. -/
theorem retireOne_stops {s : State} {h : Handle} {r : Order} (hr : s.order? h = some r)
    (turning : r.life.freedAtOnce r.mode = false) (starts : r.life.isStarting = true ∨ r.life = .running)
    (alone : r.mode = .generate ∨ r.partner = none) (last : r.successor = none) :
    s.retireOne h = ((s.modOrder h fun r => { r with retirePending := true }).stopEffect h
      { r with retirePending := true } .windowEnd).finish := by
  have pending : (s.modOrder h fun r => { r with retirePending := true }).order? h = some { r with retirePending := true } := by
    simp [hr]
  have free : (s.modOrder h fun r => { r with retirePending := true }).deferringLeg { r with retirePending := true } = none := by
    unfold State.deferringLeg
    rcases alone with e | e <;> rw [e]
    cases r.mode <;> rfl
  have quiet : stopTasks { r with retirePending := true } = [] := by
    unfold stopTasks
    rcases alone with e | e <;> rw [e, last]
    · rfl
    · cases r.mode <;> rfl
  rw [retireOne_turning hr turning]
  unfold State.beginStop State.stopNow
  rw [pending]
  dsimp only
  rw [free, quiet]
  dsimp only
  rw [if_pos (by simpa using starts)]
  rcases starts with e | e
  · obtain ⟨p, e⟩ : ∃ p, r.life = .starting p := by revert e; cases r.life <;> simp [Life.isStarting]
    rw [e]
    dsimp only
    rw [List.append_nil]
  · rw [e]
    dsimp only
    rw [List.append_nil]

/-- RETIRE of an order in STOPPING marks it, and that is all (R18). -/
theorem retireOne_stopping {s : State} {h : Handle} {r : Order} (hr : s.order? h = some r) {p : StopPhase} {c : DoneCause}
    (stopping : r.life = .stopping p c) : s.retireOne h = s.modOrder h fun r => { r with retirePending := true } := by
  rw [retireOne_turning hr (by rw [stopping]; rfl)]
  unfold State.beginStop
  rw [order?_modOrder, if_pos rfl, hr]
  dsimp only [Option.map_some]
  rw [if_neg (by simp [stopping, Life.isStarting])]
  exact finish_nil _

/-! ## The contribution of a unit under a gate that is SPACING -/

/-- Only contributions and live net flows differ from the state before. -/
structure State.SameButFlow (s t : State) : Prop where
  order : ∀ k, t.order? k = s.order? k
  unit : ∀ v, ∃ q sat, t.unit v = { s.unit v with contribution := q, saturated := sat }
  waterway : ∀ w, ∃ q, t.waterway w = { s.waterway w with netFlow := q }
  latches : t.latches = s.latches
  linkOut : t.linkOut = s.linkOut

/-- While a gate is SPACING there is no grant opportunity (R109). -/
theorem gateOpportunity_spaced {s : State} {w : WaterwayNo} (spaced : (s.waterway w).spacing.isSome = true) :
    s.gateOpportunity w = s := if_pos spaced

theorem sameButFlow_refreshContribution (s : State) (u : UnitNo) : s.SameButFlow (s.refreshContribution u) := by
  unfold State.refreshContribution
  split
  · refine ⟨fun _ => rfl, fun v => ?_, fun _ => ⟨_, rfl⟩, rfl, rfl⟩
    rw [unit_modUnit]
    split
    · next e => subst e; exact ⟨_, _, rfl⟩
    · exact ⟨_, _, rfl⟩
  · exact ⟨fun _ => rfl, fun _ => ⟨_, _, rfl⟩, fun _ => ⟨_, rfl⟩, rfl, rfl⟩

/-- A recomputed contribution grants nothing while the gate is SPACING (R34, R36, R109). -/
theorem sameButFlow_recompute {s : State} {u : UnitNo} (spaced : (s.waterway (s.unit u).waterway).spacing.isSome = true) :
    s.SameButFlow (s.recompute u) := by
  have fresh := sameButFlow_refreshContribution s u
  unfold State.recompute State.updateFlow
  split
  · exact fresh
  · have still : (((s.refreshContribution u).refreshFlow (s.unit u).waterway).waterway (s.unit u).waterway).spacing.isSome =
        true := by
      obtain ⟨q, e⟩ := fresh.waterway (s.unit u).waterway
      unfold State.refreshFlow
      rw [waterway_modWaterway, if_pos rfl, e]
      exact spaced
    rw [gateOpportunity_spaced still]
    refine ⟨fresh.order, fresh.unit, fun w => ?_, fresh.latches, fresh.linkOut⟩
    obtain ⟨q, e⟩ := fresh.waterway w
    unfold State.refreshFlow
    rw [waterway_modWaterway]
    split
    · next same => subst same; rw [e]; exact ⟨_, rfl⟩
    · exact ⟨_, e⟩

/-- An entry takes its place in the queue it joins. -/
theorem mem_insertGate (e : GateEntry) (q : List GateEntry) : e ∈ insertGate e q := by
  induction q with
  | nil => simp [insertGate]
  | cons x xs ih => unfold insertGate; split <;> simp [ih]


/-! ## The stop of a RUNNING order -/

theorem State.SameButFlow.atPmin {s t : State} (same : s.SameButFlow t) (u : UnitNo) : t.atPmin u = s.atPmin u := by
  obtain ⟨q, sat, e⟩ := same.unit u
  unfold State.atPmin State.capTime
  rw [e]

/-- A setpoint above Pmin is not at Pmin. -/
theorem atPmin_of_above {s : State} {u : UnitNo} {p : Nat} {c : Capability} (setpoint : (s.unit u).setpoint = some p)
    (record : (s.unit u).link.current = some c) (above : c.pmin < p) : s.atPmin u = false := by
  unfold State.atPmin State.capTime
  rw [setpoint, record]
  simpa using above

/-- Under a gate that is SPACING an entry joins the queue and is granted nothing (R107, R109). -/
theorem joinGate_spaced {s : State} {r : Order} (spaced : (s.waterway (s.unit r.unit).waterway).spacing.isSome = true)
    (h : Handle) (kind : EntryKind) :
    s.joinGate h r kind = s.modWaterway (s.unit r.unit).waterway fun x =>
      { x with
        queue := insertGate { handle := h, unit := r.unit, kind := kind, cls := r.cls, rank := x.nextRank } x.queue
        nextRank := x.nextRank + 1 } :=
  gateOpportunity_spaced (by rw [waterway_modWaterway, if_pos rfl]; exact spaced)

/-- Under a gate that is SPACING the entry that joins stands in the queue. -/
theorem exists_mem_joinGate {s : State} {r : Order} (spaced : (s.waterway (s.unit r.unit).waterway).spacing.isSome = true)
    (h : Handle) (kind : EntryKind) :
    ∃ e ∈ ((s.joinGate h r kind).waterway (s.unit r.unit).waterway).queue, e.handle = h ∧ e.kind = kind ∧ e.unit = r.unit := by
  rw [joinGate_spaced spaced, waterway_modWaterway, if_pos rfl]
  exact ⟨_, mem_insertGate _ _, rfl, rfl, rfl⟩

/-- The table, the latches and the links after RETIRE of a RUNNING GENERATE order above Pmin: it unloads (R76, Table 4-3). -/
theorem retireOne_unloads {s : State} {h : Handle} {r : Order} {p : Nat} {c : Capability} (hr : s.order? h = some r)
    (running : r.life = .running) (generate : r.mode = .generate) (last : r.successor = none) (named : h ∈ s.named)
    (spaced : (s.waterway (s.unit r.unit).waterway).spacing.isSome = true) (setpoint : (s.unit r.unit).setpoint = some p)
    (record : (s.unit r.unit).link.current = some c) (above : c.pmin < p) :
    (∀ k, (s.retireOne h).order? k =
      if k = h then some { r with life := .stopping .unloading .windowEnd, retirePending := true } else s.order? k) ∧
    (s.retireOne h).latches = s.latches ∧ (s.retireOne h).linkOut = s.linkOut := by
  let marked := s.modOrder h fun r => { r with retirePending := true }
  let left := marked.modOrder h fun r => { r with life := .stopping .unloading .windowEnd }
  have same : left.SameButFlow (left.recompute r.unit) := sameButFlow_recompute (by simpa [left, marked] using spaced)
  have loaded : (left.recompute r.unit).atPmin r.unit = false := by
    rw [same.atPmin]
    exact atPmin_of_above (p := p) (c := c) (by simpa [left, marked] using setpoint) (by simpa [left, marked] using record) above
  have result : s.retireOne h = left.recompute r.unit := by
    rw [retireOne_stops hr (by rw [running]; rfl) (.inr running) (.inl generate) last]
    unfold State.stopEffect
    rw [running]
    dsimp only
    rw [enter_named (by simpa using named), if_pos generate, if_pos generate,
      if_neg (by rw [Bool.not_eq_true]; exact loaded)]
    exact finish_nil _
  rw [result]
  refine ⟨fun k => ?_, ?_, ?_⟩
  · rw [same.order]; by_cases e : k = h <;> simp [left, marked, e, hr]
  · rw [same.latches]; simp [left, marked]
  · rw [same.linkOut]; simp [left, marked]

/-- What RETIRE of any other RUNNING order leaves: its STOP entry waits at the gate (R76, Table 4-3). -/
theorem retireOne_awaitsGate {s : State} {h : Handle} {r : Order} (hr : s.order? h = some r)
    (running : r.life = .running) (other : r.mode ≠ .generate) (single : r.partner = none) (last : r.successor = none)
    (named : h ∈ s.named) (spaced : (s.waterway (s.unit r.unit).waterway).spacing.isSome = true) :
    (s.retireOne h).order? h = some { r with life := .stopping .awaitingGate .windowEnd, retirePending := true } ∧
    (∃ e ∈ ((s.retireOne h).waterway (s.unit r.unit).waterway).queue, e.handle = h ∧ e.kind = .stop ∧ e.unit = r.unit) ∧
    (s.retireOne h).latches = s.latches ∧ (s.retireOne h).linkOut = s.linkOut := by
  let marked := s.modOrder h fun r => { r with retirePending := true }
  let left := marked.modOrder h fun r => { r with life := .stopping .awaitingGate .windowEnd }
  have same : left.SameButFlow (left.recompute r.unit) := sameButFlow_recompute (by simpa [left, marked] using spaced)
  have home : ((left.recompute r.unit).unit r.unit).waterway = (s.unit r.unit).waterway := by
    obtain ⟨q, sat, e⟩ := same.unit r.unit
    rw [e]
    simp [left, marked]
  have still : ((left.recompute r.unit).waterway ((left.recompute r.unit).unit r.unit).waterway).spacing.isSome = true := by
    obtain ⟨q, e⟩ := same.waterway (s.unit r.unit).waterway
    rw [home, e]
    simpa [left, marked] using spaced
  have result : s.retireOne h = (left.recompute r.unit).joinGate h { r with retirePending := true } .stop := by
    rw [retireOne_stops hr (by rw [running]; rfl) (.inr running) (.inr single) last]
    unfold State.stopEffect
    rw [running]
    dsimp only
    rw [enter_named (by simpa using named), if_neg other, if_neg other]
    exact finish_nil _
  have entry := exists_mem_joinGate (r := { r with retirePending := true }) still h .stop
  rw [← result, home] at entry
  rw [joinGate_spaced (r := { r with retirePending := true }) still] at result
  refine ⟨?_, entry, ?_, ?_⟩
  · rw [result, modWaterway_order?, same.order]; simp [left, marked, hr]
  · rw [result, modWaterway_latches, same.latches]; simp [left, marked]
  · rw [result, modWaterway_linkOut, same.linkOut]; simp [left, marked]

/-! ## The stop of an order in RUNUP -/

/-- What a start abandoned leaves, where the link can take the directive at once (Table 4-3, R77, R138). -/
theorem abortToRundown_sends {s : State} {h : Handle} {r q : Order} (hr : s.order? h = some q) (named : h ∈ s.named)
    (up : (s.unit r.unit).link.state = .up) (free : (s.unit r.unit).link.outstanding = none) (c : DoneCause) :
    (s.abortToRundown h r c).order? h = some { q with life := .stopping .rundown c } ∧
    (s.abortToRundown h r c).linkOut = s.linkOut ++ [(r.unit, .directive (s.unit r.unit).link.toggle .abortStart)] ∧
    ((s.abortToRundown h r c).unit r.unit).supervision = some (s.rundownTime r.unit r.mode) := by
  have time : (s.stopSupervision r.unit).rundownTime r.unit r.mode = s.rundownTime r.unit r.mode := by
    simp [State.rundownTime, State.capTime, State.stopSupervision]
  have quiet : ((s.stopSupervision r.unit).enterRundown h r c).note h .orderChanged =
      (s.stopSupervision r.unit).enterRundown h r c := by
    unfold State.note
    rw [if_pos]
    simpa [State.enterRundown, State.startSupervision, State.stopSupervision] using named
  have sent : s.abortToRundown h r c = ((s.stopSupervision r.unit).enterRundown h r c).send r.unit .abortStart := by
    unfold State.abortToRundown State.ask
    rw [quiet]
    simp [State.enterRundown, State.startSupervision, State.stopSupervision, up, free]
  rw [sent]
  refine ⟨?_, ?_, ?_⟩
  · rw [send_order?]; simp [State.enterRundown, State.startSupervision, State.stopSupervision, hr]
  · rw [send_linkOut]; simp [State.enterRundown, State.startSupervision, State.stopSupervision]
  · rw [unit_send, if_pos rfl]; simp [State.enterRundown, State.startSupervision, time]

/-! ## The statement's parts -/

section
variable {s : State} {tag : Byte} {body : List Byte} {h : Handle} {r : Order}

/-- RETIRE of a single order in STOPPING (R18). -/
theorem retire_marks_stopping (mode : s.mode = .dispatch) (length : body.length = 2) (named : h = field body 0 2)
    (hr : s.order? h = some r) (single : r.partner = none) {p : StopPhase} {c : DoneCause} (stopping : r.life = .stopping p c) :
    exec (.retire tag body) s = .next (s.answered 4 tag 7 .acceptedStopping []
      (s.taken.setSlot (slotOf h) { s.slot (slotOf h) with order := some { r with retirePending := true } })) := by
  have found : (s.asked (requestFrame 4 tag body) [h]).order? h = some r := by rw [asked_order?, hr]
  rw [exec_retire_single mode length named hr single (retireOne_stopping found stopping), order?_modOrder, if_pos rfl, found]
  refine congrArg _ (answered_congr ?_)
  rw [modOrder_eq found, asked_slot, asked_eq]
  rfl

/-- The answer to RETIRE of a single order that is left in the table. -/
theorem retire_accepted (mode : s.mode = .dispatch) (length : body.length = 2) (named : h = field body 0 2)
    (hr : s.order? h = some r) (single : r.partner = none) {q : Order}
    (left : ((s.asked (requestFrame 4 tag body) [h]).retireOne h).order? h = some q) :
    exec (.retire tag body) s =
      .next (s.answered 4 tag 7 .acceptedStopping [] ((s.asked (requestFrame 4 tag body) [h]).retireOne h)) := by
  rw [exec_retire_single mode length named hr single rfl, left]
  rfl

/-- RETIRE of a single RUNNING GENERATE order above Pmin (Table 4-3). -/
theorem retire_unloads (mode : s.mode = .dispatch) (length : body.length = 2) (named : h = field body 0 2)
    (hr : s.order? h = some r) (single : r.partner = none) (last : r.successor = none) (running : r.life = .running)
    (spaced : (s.waterway (s.unit r.unit).waterway).spacing.isSome = true) {p : Nat} {c : Capability}
    (generate : r.mode = .generate) (setpoint : (s.unit r.unit).setpoint = some p)
    (record : (s.unit r.unit).link.current = some c) (above : c.pmin < p) :
    ∃ t : State, exec (.retire tag body) s = .next (s.answered 4 tag 7 .acceptedStopping [] t) ∧
      t.order? h = some { r with life := .stopping .unloading .windowEnd, retirePending := true } ∧
      t.latches = s.taken.latches ∧ t.linkOut = [] := by
  obtain ⟨table, latches, links⟩ := retireOne_unloads (s := s.asked (requestFrame 4 tag body) [h]) (h := h)
    (by rw [asked_order?, hr]) running generate last (by simp) (by simpa using spaced) (by simpa using setpoint)
    (by simpa using record) above
  have found := (table h).trans (if_pos rfl)
  exact ⟨_, retire_accepted mode length named hr single found, found, by rw [latches, asked_latches], by rw [links, asked_linkOut]⟩

/-- RETIRE of any other single RUNNING order (Table 4-3). -/
theorem retire_awaitsGate (mode : s.mode = .dispatch) (length : body.length = 2) (named : h = field body 0 2)
    (hr : s.order? h = some r) (single : r.partner = none) (last : r.successor = none) (running : r.life = .running)
    (spaced : (s.waterway (s.unit r.unit).waterway).spacing.isSome = true) (other : r.mode ≠ .generate) :
    ∃ t : State, exec (.retire tag body) s = .next (s.answered 4 tag 7 .acceptedStopping [] t) ∧
      t.order? h = some { r with life := .stopping .awaitingGate .windowEnd, retirePending := true } ∧
      (∃ e ∈ (t.waterway (s.unit r.unit).waterway).queue, e.handle = h ∧ e.kind = .stop ∧ e.unit = r.unit) ∧
      t.latches = s.taken.latches ∧ t.linkOut = [] := by
  obtain ⟨found, entry, latches, links⟩ := retireOne_awaitsGate (s := s.asked (requestFrame 4 tag body) [h]) (h := h)
    (by rw [asked_order?, hr]) running other single last (by simp) (by simpa using spaced)
  rw [asked_unit] at entry
  exact ⟨_, retire_accepted mode length named hr single found, found, entry, by rw [latches, asked_latches],
    by rw [links, asked_linkOut]⟩

/-- RETIRE of a single order in RUNUP (Table 4-3). -/
theorem retire_aborts (mode : s.mode = .dispatch) (length : body.length = 2) (named : h = field body 0 2)
    (hr : s.order? h = some r) (single : r.partner = none) (last : r.successor = none) (runup : r.life = .starting .runup)
    (up : (s.unit r.unit).link.state = .up) (free : (s.unit r.unit).link.outstanding = none) :
    ∃ t : State, exec (.retire tag body) s = .next (s.answered 4 tag 7 .acceptedStopping [] t) ∧
      t.order? h = some { r with life := .stopping .rundown .windowEnd, retirePending := true } ∧
      t.linkOut = [(r.unit, .directive (s.unit r.unit).link.toggle .abortStart)] ∧
      (t.unit r.unit).supervision = some (s.rundownTime r.unit r.mode) := by
  let asked := s.asked (requestFrame 4 tag body) [h]
  let marked := asked.modOrder h fun r => { r with retirePending := true }
  have found : asked.order? h = some r := by rw [asked_order?, hr]
  have result : asked.retireOne h = marked.abortToRundown h { r with retirePending := true } .windowEnd := by
    rw [retireOne_stops found (by rw [runup]; rfl) (.inl (by rw [runup]; rfl)) (.inr single) last]
    unfold State.stopEffect
    rw [runup]
    exact finish_nil _
  obtain ⟨table, links, supervision⟩ := abortToRundown_sends (s := marked) (h := h) (r := { r with retirePending := true })
    (q := { r with retirePending := true }) (by simp [marked, found]) (by simp [marked, asked]) (by simpa [marked, asked] using up)
    (by simpa [marked, asked] using free) .windowEnd
  rw [← result] at table links supervision
  refine ⟨_, retire_accepted mode length named hr single table, table, ?_, ?_⟩
  · rw [links]; simp [marked, asked]
  · rw [supervision]; simp [marked, asked, State.rundownTime, State.capTime]

end

/-! ## Pairs (R20, R81) -/

section
variable {s : State} {tag : Byte} {body : List Byte} {h g : Handle} {r q : Order}

/-- The legs of a pair are two records. -/
theorem State.IsPair.distinct (pair : s.IsPair h g r q) : h ≠ g := by
  rintro rfl
  have same := pair.pumpLeg.symm.trans pair.genLeg
  cases same
  exact pair.units rfl

/-- RETIRE of a pair whose legs are not engaged frees both (R20). -/
theorem retire_frees_pair (mode : s.mode = .dispatch) (length : body.length = 2)
    (named : field body 0 2 = h ∨ field body 0 2 = g) (pair : s.IsPair h g r q) (hw : r.life.engaged = false)
    (gw : q.life.engaged = false) : ∃ t : State,
      exec (.retire tag body) s = .next (s.answered 4 tag 7 .ok [] t) ∧ t.order? h = none ∧ t.order? g = none := by
  obtain ⟨names, -, -, answer⟩ := exec_retire_pair (tag := tag) mode length named pair
  have genLeg : (s.asked (requestFrame 4 tag body) names).order? g = some q := by rw [asked_order?, pair.genLeg]
  have pumpLeg : ((s.asked (requestFrame 4 tag body) names).freeOrder g).order? h = some r := by
    rw [order?_freeOrder genLeg, if_neg pair.distinct, asked_order?, pair.pumpLeg]
    simp [Order.unlinkedFrom, pair.pumpLink]
  have result := answer _ rfl
  rw [retireOne_waiting genLeg gw, retireOne_waiting pumpLeg hw] at result
  have gone : ∀ k, k = h ∨ k = g → (((s.asked (requestFrame 4 tag body) names).freeOrder g).freeOrder h).order? k = none := by
    intro k hk
    rw [order?_freeOrder pumpLeg, order?_freeOrder genLeg]
    rcases hk with rfl | rfl
    · rw [if_pos rfl]
    · rw [if_neg pair.distinct.symm, if_pos rfl]; rfl
  rw [gone h (.inl rfl), gone g (.inr rfl)] at result
  exact ⟨_, result, gone h (.inl rfl), gone g (.inr rfl)⟩

/-- The stop of a PUMP leg is awaited while its GENERATE leg is STOPPING (R81). -/
theorem retireOne_deferred (hr : s.order? h = some r) (running : r.life = .running) (pump : r.mode = .pump)
    (partner : r.partner = some g) (hg : s.order? g = some q) (other : g ≠ h) (stopping : q.life.isStopping = true) :
    s.retireOne h = (s.modOrder h fun r => { r with retirePending := true }).modOrder h fun r =>
      { r with awaited := some (r.awaited.getD .windowEnd) } := by
  have defers : (s.modOrder h fun r => { r with retirePending := true }).deferringLeg { r with retirePending := true } =
      some (g, q) := by
    unfold State.deferringLeg
    rw [pump, partner]
    simp [other, hg, stopping]
  rw [retireOne_turning hr (by rw [running]; rfl)]
  unfold State.beginStop
  rw [order?_modOrder, if_pos rfl, hr]
  dsimp only [Option.map_some]
  rw [defers]
  dsimp only
  rw [if_pos (by simp [running]), if_neg (by decide)]
  exact finish_nil _

/-- RETIRE of a pair whose legs are RUNNING: the GENERATE leg unloads, and the PUMP leg awaits its end (R20, R81). -/
theorem retire_stops_pair (mode : s.mode = .dispatch) (length : body.length = 2)
    (named : field body 0 2 = h ∨ field body 0 2 = g) (pair : s.IsPair h g r q) {p : Nat} {c : Capability}
    (hrun : r.life = .running) (grun : q.life = .running)
    (spaced : (s.waterway (s.unit q.unit).waterway).spacing.isSome = true) (setpoint : (s.unit q.unit).setpoint = some p)
    (record : (s.unit q.unit).link.current = some c) (above : c.pmin < p) : ∃ t : State,
      exec (.retire tag body) s = .next (s.answered 4 tag 7 .acceptedStopping [] t) ∧
      t.order? g = some { q with life := .stopping .unloading .windowEnd, retirePending := true } ∧
      t.order? h = some { r with retirePending := true, awaited := some (r.awaited.getD .windowEnd) } ∧
      t.latches = s.taken.latches ∧ t.linkOut = [] := by
  obtain ⟨names, -, gNamed, answer⟩ := exec_retire_pair (tag := tag) mode length named pair
  obtain ⟨table, latches, links⟩ := retireOne_unloads (s := s.asked (requestFrame 4 tag body) names) (h := g)
    (by rw [asked_order?, pair.genLeg]) grun pair.genMode pair.genLink gNamed (by simpa using spaced)
    (by simpa using setpoint) (by simpa using record) above
  have genLeg := (table g).trans (if_pos rfl)
  have pumpLeg : ((s.asked (requestFrame 4 tag body) names).retireOne g).order? h = some r := by
    rw [table, if_neg pair.distinct, asked_order?, pair.pumpLeg]
  have result := answer _ (retireOne_deferred pumpLeg hrun pair.pumpMode pair.pumpPartner genLeg pair.distinct.symm rfl)
  rw [if_pos (.inr (by simp [pumpLeg]))] at result
  refine ⟨_, result, ?_, ?_, ?_, ?_⟩
  · simp [pair.distinct.symm, genLeg]
  · simp [pumpLeg]
  · rw [modOrder_latches, modOrder_latches, latches, asked_latches]
  · rw [modOrder_linkOut, modOrder_linkOut, links, asked_linkOut]

end

/-- Settles O27: RETIRE is its treatment of one record (Table 1-6) on the state the request finds, for a pair the GENERATE leg
first; each case of the statement evaluates that treatment through what its parts leave unchanged. -/
theorem retireTaken : Obligations.RetireTaken := by
  refine ⟨fun s tag body h r mode length named hr single => ⟨?_, ?_⟩,
    fun s tag body h r mode length named hr single last => ⟨?_, fun running spaced => ⟨?_, ?_⟩, ?_⟩,
    fun s tag body h g r q mode length named pair => ⟨?_, ?_⟩⟩
  · exact retire_frees_waiting mode length named hr single
  · exact retire_frees_early mode length named hr single
  · rintro ⟨p, c, stopping⟩
    exact retire_marks_stopping mode length named hr single stopping
  · exact fun p c => retire_unloads mode length named hr single last running spaced
  · exact retire_awaitsGate mode length named hr single last running spaced
  · exact retire_aborts mode length named hr single last
  · exact retire_frees_pair mode length named pair
  · exact fun p c => retire_stops_pair mode length named pair

end Sys2Proof.Machine
end

section
/-! # Handovers, marks and RESET, part by part (R79, R107, R167, R181) -/

namespace Sys2Proof.Machine

theorem waterway_handOverQueues (s : State) (a b : Handle) (q : Order) (w : WaterwayNo) :
    (s.handOverQueues a b q).waterway w = { s.waterway w with queue := handOverGate a b q (s.waterway w).queue } := by
  simp [State.handOverQueues, State.waterway]

theorem waterway_countMark (s : State) (w : WaterwayNo) :
    s.countMark.waterway w = { s.waterway w with spacing := countDown (s.waterway w).spacing } := by
  simp [State.countMark, State.waterway]

theorem unit_countMark (s : State) (u : UnitNo) : s.countMark.unit u = (s.unit u).count := by simp [State.countMark, State.unit]

theorem waterway_cleared (s : State) (w : WaterwayNo) : s.cleared.waterway w = (s.waterway w).cleared := by
  simp [State.cleared, State.waterway]

theorem unit_cleared (s : State) (u : UnitNo) : s.cleared.unit u = (s.unit u).cleared := by simp [State.cleared, State.unit]

theorem gauge_cleared (s : State) (g : GaugeNo) : s.cleared.gauge g = (s.gauge g).cleared := by simp [State.cleared, State.gauge]

end Sys2Proof.Machine
end

section
/-! # The orders of the queues (R93, R106) -/

namespace Sys2Proof.Machine

/-! ## The start queue (R93) -/

/-- An entry stands before another by its class, then by its start, then by its unit (R93). -/
theorem StartEntry.before_iff {a b : StartEntry} :
    a.before b = true ↔ a.cls.order < b.cls.order ∨
      a.cls.order = b.cls.order ∧ (a.start < b.start ∨ a.start = b.start ∧ a.unit.val < b.unit.val) := by
  simp [StartEntry.before]

/-- No entry of the queue stands behind one that it comes before (R93). -/
def StartSorted (q : List StartEntry) : Prop := q.Pairwise fun a b => b.before a = false

theorem mem_insertStart {e y : StartEntry} {q : List StartEntry} : y ∈ insertStart e q ↔ y = e ∨ y ∈ q := by
  induction q with
  | nil => simp [insertStart]
  | cons x xs ih =>
    unfold insertStart
    split <;> simp only [List.mem_cons, ih]
    tauto

theorem startSorted_insertStart {e : StartEntry} {q : List StartEntry} (l : StartSorted q) : StartSorted (insertStart e q) := by
  induction q with
  | nil => exact List.pairwise_singleton _ _
  | cons x xs ih =>
    obtain ⟨first, rest⟩ := List.pairwise_cons.1 l
    unfold insertStart
    split
    · rename_i le
      refine List.pairwise_cons.2 ⟨fun y hy => ?_, l⟩
      have le_y : y.before x = false ∨ y = x := (List.mem_cons.1 hy).symm.imp_left (first y)
      rw [← Bool.not_eq_true, StartEntry.before_iff]
      rw [StartEntry.before_iff] at le
      rcases le_y with h | rfl
      · rw [← Bool.not_eq_true, StartEntry.before_iff] at h
        omega
      · omega
    · rename_i ge
      refine List.pairwise_cons.2 ⟨fun y hy => ?_, ih rest⟩
      rcases mem_insertStart.1 hy with rfl | hy
      · simpa using ge
      · exact first y hy

theorem startSorted_withoutStart {h : Handle} {q : List StartEntry} (l : StartSorted q) : StartSorted (withoutStart h q) :=
  l.filter _

theorem startSorted_handOverStart {a b : Handle} {r : Order} {q : List StartEntry} (l : StartSorted q) :
    StartSorted (handOverStart a b r q) := by
  unfold handOverStart
  split <;> [exact startSorted_insertStart (startSorted_withoutStart l); exact l]

/-! ## The transient queues (R106) -/

/-- An entry stands before another by its kind, then by its class, then by its joining rank (R106). -/
theorem GateEntry.before_iff {a b : GateEntry} :
    a.before b = true ↔ a.kind.order < b.kind.order ∨
      a.kind.order = b.kind.order ∧ (a.cls.order < b.cls.order ∨ a.cls.order = b.cls.order ∧ a.rank < b.rank) := by
  simp [GateEntry.before]

theorem GateEntry.before_trans {a b c : GateEntry} (h : a.before b = true) (k : b.before c = true) : a.before c = true := by
  rw [before_iff] at *; omega

/-- Of two entries of different joining ranks one stands before the other (R106). -/
theorem GateEntry.before_of_not {a b : GateEntry} (ranks : a.rank ≠ b.rank) (h : ¬ a.before b = true) : b.before a = true := by
  rw [before_iff] at *; omega

/-- A transient queue stands in its order, and no two entries hold one joining rank (R106). -/
def GateSorted (q : List GateEntry) : Prop := q.Pairwise (fun a b => a.before b = true) ∧ (q.map (·.rank)).Nodup

theorem insertGate_perm (e : GateEntry) (q : List GateEntry) : (insertGate e q).Perm (e :: q) := by
  induction q with
  | nil => exact .refl _
  | cons x xs ih =>
    unfold insertGate
    split <;> [exact .refl _; exact (ih.cons x).trans (.swap e x xs)]

theorem gateSorted_insertGate {e : GateEntry} {q : List GateEntry} (l : GateSorted q) (new : ∀ x ∈ q, x.rank ≠ e.rank) :
    GateSorted (insertGate e q) := by
  obtain ⟨sorted, ranks⟩ := l
  refine ⟨?_, ((insertGate_perm e q).map _).nodup_iff.2 (List.nodup_cons.2 ⟨by simpa using new, ranks⟩)⟩
  clear ranks
  induction q with
  | nil => exact List.pairwise_singleton _ _
  | cons x xs ih =>
    obtain ⟨first, rest⟩ := List.pairwise_cons.1 sorted
    unfold insertGate
    split
    · rename_i before
      refine List.pairwise_cons.2 ⟨fun y hy => ?_, sorted⟩
      rcases List.mem_cons.1 hy with rfl | hy <;> [exact before; exact GateEntry.before_trans before (first y hy)]
    · rename_i behind
      refine List.pairwise_cons.2 ⟨fun y hy => ?_, ih (fun y hy => new y (.tail _ hy)) rest⟩
      rcases List.mem_cons.1 ((insertGate_perm e xs).mem_iff.1 hy) with rfl | hy
      · exact GateEntry.before_of_not (new x (.head _)).symm behind
      · exact first y hy

theorem GateSorted.sublist {p q : List GateEntry} (l : GateSorted q) (h : p.Sublist q) : GateSorted p :=
  ⟨l.1.sublist h, l.2.sublist (h.map _)⟩

/-- At a handover the entry keeps its joining rank (R79, R107). -/
theorem handOverGate_spec {a b : Handle} {r : Order} {q : List GateEntry} (l : GateSorted q) :
    GateSorted (handOverGate a b r q) ∧ ∀ n, (∀ e ∈ q, e.rank < n) → ∀ e ∈ handOverGate a b r q, e.rank < n := by
  unfold handOverGate
  split
  · rename_i e found
    have others : (withoutGate a q).Sublist q := List.filter_sublist
    refine ⟨gateSorted_insertGate (l.sublist others) fun x hx => ?_, fun n bound x hx => ?_⟩
    · obtain ⟨hq, other⟩ := List.mem_filter.1 hx
      have named : e.handle = a := eq_of_beq (List.find?_some (p := fun e : GateEntry => e.handle == a) found)
      intro same
      obtain rfl : x = e := List.inj_on_of_nodup_map l.2 hq (List.mem_of_find?_eq_some found) same
      simp [named] at other
    · rcases List.mem_cons.1 ((insertGate_perm _ _).mem_iff.1 hx) with rfl | hx
      · exact bound e (List.mem_of_find?_eq_some found)
      · exact bound x (others.mem hx)
  · exact ⟨l, fun _ bound => bound⟩

/-! ## Every step -/

/-- The law of the transient queue, its order said apart from the bound of its joining ranks (R106). -/
theorem Waterway.queueLaw_iff {x : Waterway} : x.QueueLaw ↔ GateSorted x.queue ∧ ∀ e ∈ x.queue, e.rank < x.nextRank :=
  and_assoc.symm

/-- An entry that joins the queue takes the next joining rank (R106). -/
theorem Waterway.QueueLaw.join {x : Waterway} (l : x.QueueLaw) (h : Handle) (u : UnitNo) (kind : EntryKind) (cls : DispatchClass) :
    ({ x with
        queue := insertGate { handle := h, unit := u, kind := kind, cls := cls, rank := x.nextRank } x.queue
        nextRank := x.nextRank + 1 } : Waterway).QueueLaw := by
  obtain ⟨sorted, bound⟩ := queueLaw_iff.1 l
  refine queueLaw_iff.2 ⟨gateSorted_insertGate sorted fun e he => (bound e he).ne, fun e he => ?_⟩
  rcases List.mem_cons.1 ((insertGate_perm _ _).mem_iff.1 he) with rfl | he
  · exact Nat.lt_succ_self _
  · exact (bound e he).trans (Nat.lt_succ_self _)

/-- Entries that leave the queue leave the others in their order (R107). -/
theorem Waterway.QueueLaw.sublist {x y : Waterway} (l : x.QueueLaw) (queue : y.queue.Sublist x.queue)
    (rank : y.nextRank = x.nextRank) : y.QueueLaw := by
  obtain ⟨sorted, bound⟩ := queueLaw_iff.1 l
  exact queueLaw_iff.2 ⟨sorted.sublist queue, fun e he => rank ▸ bound e (queue.mem he)⟩

/-- A waterway is written so that its queue keeps its order. -/
theorem queueLaw_modWaterway {s : State} {w : WaterwayNo} {f : Waterway → Waterway} (l : s.QueueLaw)
    (h : (f (s.waterway w)).QueueLaw) : (s.modWaterway w f).QueueLaw := by
  refine ⟨l.1, fun v => ?_⟩
  rw [waterway_modWaterway]
  split <;> [exact h; exact l.2 v]

theorem queueLaw_refresh {s : State} (u : UnitNo) (l : s.QueueLaw) : (s.refreshContribution u).QueueLaw := by
  unfold State.refreshContribution; split <;> exact l

/-- Nothing within a command brings a queue out of its order (R93, R106). -/
theorem kept_queueLaw : KeptPlainly State.QueueLaw where
  raise _ _ p := p
  order s h f p := by unfold State.modOrder; split <;> exact p
  unlinkTo _ _ p := p
  free s h p := by unfold State.freeOrder; split <;> exact p
  record _ _ _ p := p
  picks _ _ p := p
  leaveStart _ _ p := ⟨startSorted_withoutStart p.1, p.2⟩
  joinStart _ _ p := ⟨startSorted_insertStart p.1, p.2⟩
  handOver s a b q p := by
    refine ⟨startSorted_handOverStart p.1, fun w => ?_⟩
    obtain ⟨sorted, bound⟩ := Waterway.queueLaw_iff.1 (p.2 w)
    obtain ⟨sorted', bound'⟩ := handOverGate_spec (a := a) (b := b) (r := q) sorted
    exact waterway_handOverQueues s a b q w ▸ Waterway.queueLaw_iff.2 ⟨sorted', bound' _ bound⟩
  unit _ _ _ _ p := p
  send _ _ _ _ _ p := p
  contribution s u p := queueLaw_modWaterway (queueLaw_refresh u p) ((queueLaw_refresh u p).2 _)
  water s w f b p := queueLaw_modWaterway p ((p.2 w).sublist b.queue b.nextRank)
  joinGate s w h u kind cls p := queueLaw_modWaterway p ((p.2 w).join h u kind cls)
  converter _ _ _ _ p := p
  refresh _ u p := queueLaw_refresh u p
  waterItems s w f queue rank p := queueLaw_modWaterway p ((p.2 w).sublist (by rw [queue]) rank)
  anyGauge _ _ _ p := p
  anyUnit _ _ _ p := p
  linkOut _ _ p := p
  named _ _ p := p
  latches _ _ p := p
  mask _ _ p := p
  due _ _ p := p
  time _ _ p := p
  trim _ _ p := p
  count s p := ⟨p.1, fun w => waterway_countMark s w ▸ p.2 w⟩
  anyConverter _ _ _ p := p
  retry _ _ p := p
  supervision _ _ p := p
  mode _ _ p := p
  cleared s p := by
    refine ⟨.nil, fun w => ?_⟩
    rw [waterway_cleared]
    exact ⟨.nil, List.nodup_nil, nofun⟩

/-- Every command keeps the queues in their orders (R93, R106). -/
theorem commands_keep_queueLaw : KeptByCommands State.QueueLaw :=
  kept_queueLaw.byCommands (fun _ _ p => p) (fun _ _ p => p) fun _ _ _ => queueLaw_reset

end Sys2Proof.Machine
end

section
/-! # Live head, inhibits and live net flow (R29, R30, R34, R36, R158) -/

namespace Sys2Proof.Machine

/-! ## What follows the gauges -/

/-- A property that the shared operations keep, and that stands when a live head or the inhibits of a waterway are evaluated. -/
structure KeptByGauges (P : State → Prop) : Prop extends Kept P where
  head : ∀ s v, P s → P (s.updateHead v)
  inhibits : ∀ s v, P s → P (s.evaluateInhibits v)

/-- A live head worked out anew: it is written, flows and indications follow, and the gate may grant (R30, R109). -/
theorem Kept.updateHead {P : State → Prop} (k : Kept P) {s : State} {v : WaterwayNo}
    (same : (s.headOf v).1 = (s.waterway v).liveHead → P (s.modWaterway v fun x => { x with headLow := (s.headOf v).2 }))
    (taken : P (s.takeHead v (s.headOf v).1 (s.headOf v).2)) : P (s.updateHead v) := by
  unfold State.updateHead
  dsimp only
  split <;> [exact same ‹_›; exact k.gateOpportunity _ taken]

/-- The inhibits of a waterway evaluated: they are written, orders stop, and the gate may grant (R158, R159, R109). -/
theorem Kept.evaluateInhibits {P : State → Prop} (k : Kept P) {s : State} {v : WaterwayNo}
    (p : P (s.modWaterway v fun x =>
      { x with
        pumpInhibit := pumpInhibitOf (s.gauge (s.waterway v).upper) (s.gauge (s.waterway v).lower)
        genInhibit := genInhibitOf (s.gauge (s.waterway v).upper) (s.gauge (s.waterway v).lower) })) :
    P (s.evaluateInhibits v) := by
  unfold State.evaluateInhibits
  dsimp only
  generalize hq : State.raiseIf (s.modWaterway v _) _ _ = t
  have q : P t := hq ▸ k.raiseIf _ _ p
  have stopped : ∀ i (b : Bool), P (if b = true then (t.unitsOf v).foldl (State.inhibitUnit i) t else t) := by
    intro i b; split <;> [exact Kept.foldl (fun _ u q => k.inhibitUnit i u q) _ q; exact q]
  split <;> [exact k.gateOpportunity _ (stopped _ _); exact stopped _ _]

/-- A fold reaches what one of its steps brings about and the others keep. -/
theorem foldl_reaches {α : Type} {P : State → Prop} {f : State → α → State} (keeps : ∀ s a, P s → P (f s a)) {a : α}
    (brings : ∀ s, P (f s a)) {l : List α} (h : a ∈ l) (s : State) : P (l.foldl f s) := by
  obtain ⟨before, after, rfl⟩ := List.append_of_mem h
  rw [List.foldl_append, List.foldl_cons]
  exact Kept.foldl keeps after (brings _)

namespace KeptByGauges

variable {P : State → Prop} (k : KeptByGauges P)
include k

theorem headsOf {s : State} (g : GaugeNo) (p : P s) : P (s.headsOf g) := Kept.foldl k.head _ p

theorem inhibitsOf {s : State} (g : GaugeNo) (p : P s) : P (s.inhibitsOf g) := Kept.foldl k.inhibits _ p

theorem gaugeChanged {s : State} (g : GaugeNo) (old : Gauge) (p : P s) : P (s.gaugeChanged g old) := by
  have q := k.raiseIf .gaugeChange (old.state != (s.gauge g).state) p
  unfold State.gaugeChanged
  dsimp only
  split <;> [exact k.inhibitsOf _ (k.headsOf _ q); exact q]

theorem waterwayWritten {s : State} (w : WaterwayNo) (old : Waterway) (p : P s) : P (s.waterwayWritten w old) := by
  have head : ∀ b : Bool, P (if b = true then s.updateHead w else s) := by
    intro b; split <;> [exact k.head _ _ p; exact p]
  unfold State.waterwayWritten
  dsimp only
  split <;> [exact k.inhibits _ _ (head _); exact head _]

end KeptByGauges

/-! ## Properties read off one waterway and the gauges -/

/-- Two waterways that show the same gauges, admission head, live head and inhibits. -/
structure Waterway.SameReadings (x y : Waterway) : Prop where
  hAdm : y.hAdm = x.hAdm := by rfl
  upper : y.upper = x.upper := by rfl
  lower : y.lower = x.lower := by rfl
  liveHead : y.liveHead = x.liveHead := by rfl
  headLow : y.headLow = x.headLow := by rfl
  pumpInhibit : y.pumpInhibit = x.pumpInhibit := by rfl
  genInhibit : y.genInhibit = x.genInhibit := by rfl

/-- A property that depends on the gauges and on what one waterway shows of them, and on nothing else. -/
def ReadOff (w : WaterwayNo) (P : State → Prop) : Prop :=
  ∀ s t : State, t.gauges = s.gauges → (s.waterway w).SameReadings (t.waterway w) → P s → P t

namespace ReadOff

variable {w : WaterwayNo} {P : State → Prop} (k : ReadOff w P)
include k

/-- What leaves gauges and waterways alone. -/
theorem elsewhere {s t : State} (p : P s) (gauges : t.gauges = s.gauges := by rfl) (water : t.waterways = s.waterways := by rfl) :
    P t := by
  refine k s t gauges ?_ p
  unfold State.waterway
  rw [water]
  exact {}

/-- A waterway written in what it does not show. -/
theorem water {s : State} {v : WaterwayNo} {f : Waterway → Waterway} (p : P s)
    (h : (s.waterway v).SameReadings (f (s.waterway v)) := by exact {}) :
    P (s.modWaterway v f) := by
  refine k s _ rfl ?_ p
  rw [waterway_modWaterway]
  split
  · rename_i e; exact e ▸ h
  · exact {}

theorem refresh {s : State} (u : UnitNo) (p : P s) : P (s.refreshContribution u) := by
  unfold State.refreshContribution; split <;> [exact k.elsewhere p; exact p]

theorem refreshFlow {s : State} (v : WaterwayNo) (p : P s) : P (s.refreshFlow v) := k.water p

theorem kept : Kept P where
  raise _ _ p := k.elsewhere p
  order s h f p := by unfold State.modOrder; split <;> [exact k.elsewhere p; exact p]
  unlinkTo _ _ p := k.elsewhere p
  free s h p := by unfold State.freeOrder; split <;> [exact k.elsewhere p; exact p]
  record _ _ _ p := k.elsewhere p
  picks _ _ p := k.elsewhere p
  leaveStart _ _ p := k.elsewhere p
  joinStart _ _ p := k.elsewhere p
  handOver s a b q p := by
    refine k s _ rfl ?_ p
    rw [waterway_handOverQueues]
    exact {}
  unit _ _ _ _ p := k.elsewhere p
  send _ _ _ _ _ p := k.elsewhere p
  contribution s u p := k.refreshFlow _ (k.refresh u p)
  water _ _ _ b p := k.water p ⟨b.hAdm, b.upper, b.lower, b.liveHead, b.headLow, b.pumpInhibit, b.genInhibit⟩
  joinGate _ _ _ _ _ _ p := k.water p
  converter _ _ _ _ p := k.elsewhere p

theorem updateFlow {s : State} (v : WaterwayNo) (p : P s) : P (s.updateFlow v) := by
  unfold State.updateFlow; split <;> [exact p; exact k.kept.gateOpportunity _ (k.refreshFlow _ p)]

/-- A live head worked out anew, once the head is written (R30). -/
theorem updateHead {s : State} {v : WaterwayNo}
    (p : P (s.modWaterway v fun x => { x with liveHead := (s.headOf v).1, headLow := (s.headOf v).2 })) :
    P (s.updateHead v) := by
  refine k.kept.updateHead (fun same => ?_) ?_
  · refine k (s.modWaterway v fun x => { x with liveHead := (s.headOf v).1, headLow := (s.headOf v).2 }) _ rfl ?_ p
    rw [waterway_modWaterway, waterway_modWaterway]
    split
    · exact { liveHead := same.symm }
    · exact {}
  · refine Kept.foldl (fun _ u q => k.kept.refreshOutside u q) _ (k.refreshFlow _ (Kept.foldl (fun _ u q => ?_) _ p))
    split <;> [exact k.refresh _ q; exact q]

end ReadOff

theorem mem_waterwaysOf {s : State} {g : GaugeNo} {w : WaterwayNo} : w ∈ s.waterwaysOf g ↔ (s.waterway w).names g = true := by
  have all : ∀ w : WaterwayNo, w ∈ allWaterways := by decide
  simp [State.waterwaysOf, all]

/-! ## What a telegram, a mark and new limits do to a gauge (R153 to R157) -/

namespace Gauge

/-- A gauge never becomes UNKNOWN, and while its level stands so do its flags (R154, R157). -/
structure Follows (x y : Gauge) : Prop where
  known : y.state = .unknown → x.state = .unknown
  flags : y.level = x.level → y.high = x.high ∧ y.low = x.low

theorem takeBad_follows (x : Gauge) (reason : BadReason) : x.Follows (x.takeBad reason) := by
  unfold takeBad
  dsimp only
  split
  · exact ⟨nofun, fun _ => ⟨rfl, rfl⟩⟩
  · exact ⟨id, fun _ => ⟨rfl, rfl⟩⟩

theorem takeGood_follows (x : Gauge) (v : Nat) : (x.takeGood v).level = some v ∧ x.Follows (x.takeGood v) := by
  unfold takeGood
  dsimp only
  split
  · exact ⟨rfl, nofun, fun _ => ⟨rfl, rfl⟩⟩
  · exact ⟨rfl, id, fun _ => ⟨rfl, rfl⟩⟩

@[simp] theorem evaluateFlags_level (x : Gauge) : x.evaluateFlags.level = x.level := by unfold evaluateFlags; split <;> rfl
@[simp] theorem evaluateFlags_state (x : Gauge) : x.evaluateFlags.state = x.state := by unfold evaluateFlags; split <;> rfl

theorem receive_follows (x : Gauge) (g : GaugeNo) (bytes : List Byte) : x.Follows (x.receive g bytes) := by
  have heard : ∀ y, (if telegramHeard g bytes then x.hear bytes else x).Follows y → x.Follows y := by
    intro y h; split at h <;> exact ⟨h.known, h.flags⟩
  unfold receive
  dsimp only
  split
  · exact heard _ (takeBad_follows _ _)
  · split
    · exact heard _ (takeGood_follows _ _).2
    · rename_i new
      obtain ⟨level, good⟩ := takeGood_follows (if telegramHeard g bytes then x.hear bytes else x) (telegramLevel bytes)
      refine ⟨fun h => (heard _ good).known (by simpa using h), fun h => absurd ?_ new⟩
      rw [← h, evaluateFlags_level, level]

/-- The level, the flags and whether it is UNKNOWN stand: all that heads and inhibits depend on. -/
structure Still (x y : Gauge) : Prop where
  level : y.level = x.level
  high : y.high = x.high
  low : y.low = x.low
  known : y.state = .unknown ↔ x.state = .unknown

/-- Whether heads and inhibits are told of a change of a gauge (R156, R158). -/
def Told (x y : Gauge) : Prop := x.level ≠ y.level ∨ (x.state = .unknown ∧ y.state ≠ .unknown)

theorem Follows.still {x y : Gauge} (h : x.Follows y) (quiet : ¬ x.Told y) : x.Still y := by
  obtain ⟨level, known⟩ := not_or.1 quiet
  have level : y.level = x.level := (not_not.1 level).symm
  obtain ⟨high, low⟩ := h.flags level
  exact ⟨level, high, low, h.known, fun u => by_contra fun n => known ⟨u, n⟩⟩

theorem silenceMark_still (x : Gauge) : x.Still x.silenceMark := by
  unfold silenceMark
  dsimp only
  split
  · rename_i h
    exact ⟨rfl, rfl, rfl, nofun, fun u => absurd (h.1.symm.trans u) (by decide)⟩
  · exact ⟨rfl, rfl, rfl, .rfl⟩

end Gauge

/-! ## What the commands do to such a property -/

/-- A property read off one waterway and the gauges that its writers keep or bring about. -/
structure ShownByGauges (w : WaterwayNo) (P : State → Prop) : Prop extends KeptByGauges P where
  read : ReadOff w P
  gauge : ∀ (s : State) g f, ((s.waterway w).names g = true → (s.gauge g).Still (f (s.gauge g))) → P s → P (s.modGauge g f)
  told : ∀ (s : State) g, (s.waterway w).names g = true → P ((s.headsOf g).inhibitsOf g)
  flags : ∀ (s : State) g, P s → P ((s.modGauge g Gauge.evaluateFlags).inhibitsOf g)
  written : ∀ (s : State) v c, P s → P ((s.modWaterway v fun x => x.write c).waterwayWritten v (s.waterway v))
  cleared : ∀ s : State, P s.cleared
  reset : P State.reset

namespace ShownByGauges

variable {w : WaterwayNo} {P : State → Prop} (k : ShownByGauges w P)
include k

/-- A telegram either leaves what the property depends on, or is told to heads and inhibits (R156, R158). -/
theorem telegram {s : State} (g : GaugeNo) (bytes : List Byte) (p : P s) :
    P ((s.modGauge g fun x => x.receive g bytes).gaugeChanged g (s.gauge g)) := by
  by_cases told : (s.waterway w).names g = true ∧ (s.gauge g).Told ((s.gauge g).receive g bytes)
  · obtain ⟨named, told⟩ := told
    unfold State.gaugeChanged
    dsimp only
    rw [if_pos (by simpa [Gauge.Told] using told)]
    refine k.told _ _ ?_
    unfold State.raiseIf
    split <;> exact named
  · refine k.gaugeChanged _ _ (k.gauge _ _ _ (fun named => ?_) p)
    exact (Gauge.receive_follows _ _ _).still fun h => told ⟨named, h⟩

theorem byCommands : KeptByCommands P where
  toKept := k.toKept
  apart _ _ _ _ p := k.read.elsewhere p
  acknowledged s u _ p := by
    unfold State.acknowledged State.sendNext
    split <;> exact k.read.elsewhere p
  linkOut _ _ p := k.read.elsewhere p
  silence s g p := k.raiseIf _ _ (k.gauge _ _ _ (fun _ => Gauge.silenceMark_still _) p)
  named _ _ p := k.read.elsewhere p
  latches _ _ p := k.read.elsewhere p
  mask _ _ p := k.read.elsewhere p
  due _ _ p := k.read.elsewhere p
  time _ _ _ p := k.read.elsewhere p
  trim _ _ _ p := k.read.elsewhere p
  count s p := by
    refine k.read s _ rfl ?_ p
    rw [waterway_countMark]
    exact {}
  telegram _ g bytes p := k.telegram g bytes p
  waterwaySettings s _ c _ p := k.written s c.1 c.2 p
  gaugeSettings s _ c _ p := by
    have q : P (s.modGauge c.1 fun x => x.write c.2) := k.gauge _ _ _ (fun _ => ⟨rfl, rfl, rfl, .rfl⟩) p
    split <;> [exact k.flags _ _ q; exact q]
  eligible _ _ _ p := k.read.elsewhere p
  moved s u v e p := by
    refine k.refreshOutside _ (k.read.updateFlow _ (k.read.updateFlow _ (k.read.refresh _ ?_)))
    exact k.read.elsewhere p
  converterSettings _ _ _ _ p := k.read.elsewhere p
  supervisionSettings _ _ _ _ p := k.read.elsewhere p
  mode _ _ p := k.read.elsewhere p
  cleared s _ := k.cleared s
  port _ _ p := k.read.elsewhere p
  portOut _ _ p := k.read.elsewhere p
  powerOn _ _ _ := k.read.elsewhere k.reset

end ShownByGauges

/-! ## Live head (R29, R30) -/

/-- The live head and head low of a waterway are those its gauges give (R29). -/
def State.HeadRight (w : WaterwayNo) (s : State) : Prop := ((s.waterway w).liveHead, (s.waterway w).headLow) = s.headOf w

theorem headLaw_iff {s : State} : s.HeadLaw ↔ ∀ w, s.HeadRight w := Iff.rfl

/-- A live head depends on the admission head, on which gauges a waterway names, and on their levels and whether they are UNKNOWN
(R29). -/
theorem headOf_congr {s t : State} {w : WaterwayNo} (hAdm : (t.waterway w).hAdm = (s.waterway w).hAdm)
    (upper : (t.waterway w).upper = (s.waterway w).upper) (lower : (t.waterway w).lower = (s.waterway w).lower)
    (gauges : ∀ g, (s.waterway w).names g = true →
      (t.gauge g).level = (s.gauge g).level ∧ ((t.gauge g).state = .unknown ↔ (s.gauge g).state = .unknown)) :
    t.headOf w = s.headOf w := by
  obtain ⟨upperLevel, upperKnown⟩ := gauges (s.waterway w).upper (by simp [Waterway.names])
  obtain ⟨lowerLevel, lowerKnown⟩ := gauges (s.waterway w).lower (by simp [Waterway.names])
  unfold State.headOf
  simp only [hAdm, upper, lower, upperLevel, upperKnown, lowerLevel, lowerKnown]

/-- A waterway written in something else than its admission head and its gauges. -/
theorem headOf_modWaterway (s : State) (v w : WaterwayNo) {f : Waterway → Waterway}
    (hf : ∀ x, (f x).hAdm = x.hAdm ∧ (f x).upper = x.upper ∧ (f x).lower = x.lower := by exact fun _ => ⟨rfl, rfl, rfl⟩) :
    (s.modWaterway v f).headOf w = s.headOf w := by
  obtain ⟨hAdm, upper, lower⟩ := hf (s.waterway v)
  refine headOf_congr ?_ ?_ ?_ fun _ _ => ⟨rfl, .rfl⟩ <;> rw [waterway_modWaterway] <;> split <;> simp_all

theorem headRight_readOff (w : WaterwayNo) : ReadOff w (State.HeadRight w) := by
  intro s t gauges same p
  have gauge : ∀ g, t.gauge g = s.gauge g := fun g => by unfold State.gauge; rw [gauges]
  unfold State.HeadRight
  rw [same.liveHead, same.headLow, headOf_congr same.hAdm same.upper same.lower fun g _ => by simp [gauge g]]
  exact p

/-- Working out the live head of a waterway brings it right, and leaves the other's as it is (R29, R30). -/
theorem headRight_updateHead {s : State} {v w : WaterwayNo} (p : v ≠ w → s.HeadRight w) : (s.updateHead v).HeadRight w := by
  refine (headRight_readOff w).updateHead ?_
  unfold State.HeadRight
  rw [headOf_modWaterway, waterway_modWaterway]
  split
  · rename_i e; subst e; rfl
  · rename_i e; exact p e

theorem headRight_keptByGauges (w : WaterwayNo) : KeptByGauges (State.HeadRight w) where
  toKept := (headRight_readOff w).kept
  head _ _ p := headRight_updateHead fun _ => p
  inhibits s v p := by
    refine (headRight_readOff w).kept.evaluateInhibits ?_
    unfold State.HeadRight
    rw [headOf_modWaterway, waterway_modWaterway]
    split
    · rename_i e; subst e; exact p
    · exact p

/-- A gauge is written in something else than what the live head depends on. -/
theorem headRight_modGauge {s : State} {w : WaterwayNo} {g : GaugeNo} {f : Gauge → Gauge}
    (h : (s.waterway w).names g = true →
      (f (s.gauge g)).level = (s.gauge g).level ∧ ((f (s.gauge g)).state = .unknown ↔ (s.gauge g).state = .unknown))
    (p : s.HeadRight w) : (s.modGauge g f).HeadRight w := by
  unfold State.HeadRight
  rw [headOf_congr (s := s) (t := s.modGauge g f) rfl rfl rfl fun j named => ?_]
  · exact p
  · rw [gauge_modGauge]
    split
    · rename_i e; subst e; exact h named
    · exact ⟨rfl, .rfl⟩

/-- New settings of a waterway: the live head is worked out anew where it depends on one that has changed (R185). -/
theorem headRight_written {s : State} {w : WaterwayNo} (v : WaterwayNo) (c : WaterwaySettings) (p : s.HeadRight w) :
    ((s.modWaterway v fun x => x.write c).waterwayWritten v (s.waterway v)).HeadRight w := by
  by_cases e : v = w
  · subst e
    unfold State.waterwayWritten
    dsimp only
    generalize hm : (_ || _ : Bool) = moved
    have head : State.HeadRight v (if moved || ((s.modWaterway v fun x => x.write c).waterway v).hAdm != (s.waterway v).hAdm then
        (s.modWaterway v fun x => x.write c).updateHead v else s.modWaterway v fun x => x.write c) := by
      split
      · exact headRight_updateHead (absurd rfl)
      · rename_i same
        simp only [← hm, waterway_modWaterway, if_pos, Bool.or_eq_true, bne_iff_ne, not_or, not_not] at same
        obtain ⟨⟨upper, lower⟩, hAdm⟩ := same
        refine headRight_readOff v s _ rfl ?_ p
        rw [waterway_modWaterway, if_pos rfl]
        exact { hAdm := hAdm, upper := upper, lower := lower }
    split <;> [exact (headRight_keptByGauges v).inhibits _ _ head; exact head]
  · refine (headRight_keptByGauges w).waterwayWritten _ _ ((headRight_readOff w) s _ rfl ?_ p)
    rw [waterway_modWaterway, if_neg e]
    exact {}

theorem headRight_shown (w : WaterwayNo) : ShownByGauges w (State.HeadRight w) where
  toKeptByGauges := headRight_keptByGauges w
  read := headRight_readOff w
  gauge _ _ _ still p := headRight_modGauge (fun named => ⟨(still named).level, (still named).known⟩) p
  told s g named :=
    (headRight_keptByGauges w).inhibitsOf g <|
      foldl_reaches (headRight_keptByGauges w).head (fun _ => headRight_updateHead (absurd rfl)) (mem_waterwaysOf.2 named) s
  flags s g p := (headRight_keptByGauges w).inhibitsOf g (headRight_modGauge (fun _ => by simp) p)
  written _ v c p := headRight_written v c p
  cleared s := by
    unfold State.HeadRight State.headOf
    simp [waterway_cleared, gauge_cleared, Waterway.cleared, Gauge.cleared, Gauge.reset]
  reset := by
    obtain ⟨-, -, -, -, -, -, -, -, head, -⟩ := resetMeetsLaws
    exact head w

/-! ## Inhibits (R158) -/

/-- The two inhibits of a waterway are those its gauges give (R158). -/
def State.InhibitRight (w : WaterwayNo) (s : State) : Prop :=
  (s.waterway w).pumpInhibit = pumpInhibitOf (s.gauge (s.waterway w).upper) (s.gauge (s.waterway w).lower) ∧
    (s.waterway w).genInhibit = genInhibitOf (s.gauge (s.waterway w).upper) (s.gauge (s.waterway w).lower)

theorem inhibitLaw_iff {s : State} : s.InhibitLaw ↔ ∀ w, s.InhibitRight w := Iff.rfl

/-- Inhibits depend on the flags of the two gauges and on whether they are UNKNOWN (R158). -/
theorem inhibitOf_still {a a' b b' : Gauge} (ha : a.Still a') (hb : b.Still b') :
    pumpInhibitOf a' b' = pumpInhibitOf a b ∧ genInhibitOf a' b' = genInhibitOf a b := by
  have known : ∀ {x y : Gauge}, x.Still y → (y.state == .unknown) = (x.state == .unknown) := fun h => by
    rw [Bool.eq_iff_iff, beq_iff_eq, beq_iff_eq, h.known]
  unfold pumpInhibitOf genInhibitOf
  rw [ha.high, ha.low, known ha, hb.high, hb.low, known hb]
  exact ⟨rfl, rfl⟩

theorem inhibitRight_readOff (w : WaterwayNo) : ReadOff w (State.InhibitRight w) := by
  intro s t gauges same p
  have gauge : ∀ g, t.gauge g = s.gauge g := fun g => by unfold State.gauge; rw [gauges]
  unfold State.InhibitRight
  rw [same.pumpInhibit, same.genInhibit, same.upper, same.lower, gauge, gauge]
  exact p

/-- Evaluating the inhibits of a waterway brings them right, and leaves the other's as they are (R158). -/
theorem inhibitRight_evaluateInhibits {s : State} {v w : WaterwayNo} (p : v ≠ w → s.InhibitRight w) :
    (s.evaluateInhibits v).InhibitRight w := by
  refine (inhibitRight_readOff w).kept.evaluateInhibits ?_
  unfold State.InhibitRight
  rw [waterway_modWaterway]
  split
  · rename_i e; subst e; exact ⟨rfl, rfl⟩
  · rename_i e; exact p e

theorem inhibitRight_keptByGauges (w : WaterwayNo) : KeptByGauges (State.InhibitRight w) where
  toKept := (inhibitRight_readOff w).kept
  head s v p := by
    refine (inhibitRight_readOff w).updateHead ?_
    unfold State.InhibitRight
    rw [waterway_modWaterway]
    split
    · rename_i e; subst e; exact p
    · exact p
  inhibits _ _ p := inhibitRight_evaluateInhibits fun _ => p

/-- A gauge is written in something else than what the inhibits depend on. -/
theorem inhibitRight_modGauge {s : State} {w : WaterwayNo} {g : GaugeNo} {f : Gauge → Gauge}
    (h : (s.waterway w).names g = true → (s.gauge g).Still (f (s.gauge g))) (p : s.InhibitRight w) :
    (s.modGauge g f).InhibitRight w := by
  have still : ∀ j, (s.waterway w).names j = true → (s.gauge j).Still ((s.modGauge g f).gauge j) := by
    intro j named
    rw [gauge_modGauge]
    split
    · rename_i e; subst e; exact h named
    · exact ⟨rfl, rfl, rfl, .rfl⟩
  obtain ⟨pump, gen⟩ := inhibitOf_still (still (s.waterway w).upper (by simp [Waterway.names]))
    (still (s.waterway w).lower (by simp [Waterway.names]))
  exact ⟨p.1.trans pump.symm, p.2.trans gen.symm⟩

/-- The inhibits of every waterway that names the gauge are brought right, and the others stand. -/
theorem inhibitRight_inhibitsOf {s : State} {w : WaterwayNo} {g : GaugeNo}
    (p : (s.waterway w).names g = false → s.InhibitRight w) : (s.inhibitsOf g).InhibitRight w := by
  cases named : (s.waterway w).names g
  · exact (inhibitRight_keptByGauges w).inhibitsOf g (p named)
  · exact foldl_reaches (inhibitRight_keptByGauges w).inhibits (fun _ => inhibitRight_evaluateInhibits (absurd rfl))
      (mem_waterwaysOf.2 named) s

/-- New settings of a waterway: the inhibits are evaluated where it names another gauge (R185). -/
theorem inhibitRight_written {s : State} {w : WaterwayNo} (v : WaterwayNo) (c : WaterwaySettings) (p : s.InhibitRight w) :
    ((s.modWaterway v fun x => x.write c).waterwayWritten v (s.waterway v)).InhibitRight w := by
  by_cases e : v = w
  · subst e
    have keeps : ∀ b : Bool, State.InhibitRight v (s.modWaterway v fun x => x.write c) →
        State.InhibitRight v (if b = true then (s.modWaterway v fun x => x.write c).updateHead v
          else s.modWaterway v fun x => x.write c) := by
      intro b q; split <;> [exact (inhibitRight_keptByGauges v).head _ _ q; exact q]
    unfold State.waterwayWritten
    dsimp only
    split
    · exact inhibitRight_evaluateInhibits (absurd rfl)
    · rename_i same
      refine keeps _ ?_
      simp only [waterway_modWaterway, if_pos, Bool.or_eq_true, bne_iff_ne, not_or, not_not] at same
      obtain ⟨upper, lower⟩ := same
      unfold State.InhibitRight
      rw [waterway_modWaterway, if_pos rfl, upper, lower]
      exact p
  · refine (inhibitRight_keptByGauges w).waterwayWritten _ _ ((inhibitRight_readOff w) s _ rfl ?_ p)
    rw [waterway_modWaterway, if_neg e]
    exact {}

/-- Working out live heads changes no gauge that a waterway names. -/
theorem names_headsOf {s : State} {w : WaterwayNo} {g : GaugeNo} (named : (s.waterway w).names g = true) :
    ((s.headsOf g).waterway w).names g = true := by
  have read : ReadOff w fun t => (t.waterway w).names g = true := by
    intro s t _ same p
    unfold Waterway.names
    rw [same.upper, same.lower]
    exact p
  refine Kept.foldl (P := fun t => (t.waterway w).names g = true) (fun t v p => read.updateHead ?_) _ named
  rw [waterway_modWaterway]
  split
  · rename_i e; subst e; exact p
  · exact p

theorem inhibitRight_shown (w : WaterwayNo) : ShownByGauges w (State.InhibitRight w) where
  toKeptByGauges := inhibitRight_keptByGauges w
  read := inhibitRight_readOff w
  gauge _ _ _ still p := inhibitRight_modGauge still p
  told s g named := inhibitRight_inhibitsOf fun other =>
    absurd (other.symm.trans (names_headsOf named)) (by decide)
  flags s g p := inhibitRight_inhibitsOf fun other =>
    inhibitRight_modGauge (fun named => absurd (other.symm.trans named) (by decide)) p
  written _ v c p := inhibitRight_written v c p
  cleared s := by
    unfold State.InhibitRight pumpInhibitOf genInhibitOf
    simp [waterway_cleared, gauge_cleared, Waterway.cleared, Gauge.cleared, Gauge.reset]
  reset := by
    obtain ⟨-, -, -, -, -, -, -, -, -, inhibits, -⟩ := resetMeetsLaws
    exact inhibits w

/-! ## Live net flow (R34, R36) -/

/-- What a unit adds to the live net flow of a waterway: its contribution, if it is assigned to it (R36). -/
def State.share (s : State) (w : WaterwayNo) (u : UnitNo) : Int := if (s.unit u).waterway = w then (s.unit u).contribution else 0

/-- The live net flow of a waterway is the sum of the contributions of its units (R36). -/
def State.FlowRight (w : WaterwayNo) (s : State) : Prop := (s.waterway w).netFlow = (allUnits.map (s.share w)).sum

theorem flowLaw_iff {s : State} : s.FlowLaw ↔ ∀ w, s.FlowRight w := Iff.rfl

/-- The sum over the units assigned to the waterway counts the others as 0. -/
theorem sumFlow_eq (s : State) (w : WaterwayNo) : s.sumFlow w = (allUnits.map (s.share w)).sum := by
  have split := List.sum_map_ite (fun u => (s.unit u).waterway = w) (fun u => (s.unit u).contribution) (fun _ => 0) allUnits
  rw [List.map_const', List.sum_replicate, smul_zero, add_zero] at split
  exact split.symm

/-- What changes neither the flow of the waterway nor what any unit adds to it. -/
theorem flowRight_congr {s t : State} {w : WaterwayNo} (p : s.FlowRight w)
    (flow : (t.waterway w).netFlow = (s.waterway w).netFlow := by rfl)
    (shares : ∀ u, t.share w u = s.share w u := by exact fun _ => rfl) : t.FlowRight w := by
  unfold State.FlowRight
  rw [flow, p, funext shares]

/-- A unit written so that it adds to the waterway what it did. -/
theorem flowRight_modUnit {s : State} {w : WaterwayNo} {u : UnitNo} {f : UnitBlock → UnitBlock}
    (h : (if (f (s.unit u)).waterway = w then (f (s.unit u)).contribution else 0) = s.share w u) (p : s.FlowRight w) :
    (s.modUnit u f).FlowRight w := by
  refine flowRight_congr p rfl fun v => ?_
  unfold State.share at h ⊢
  rw [unit_modUnit]
  split
  · rename_i e; subst e; exact h
  · rfl

/-- Bringing the live net flow of a waterway up to date brings it right, and leaves the other's as it is (R36). -/
theorem flowRight_refreshFlow {s : State} {v w : WaterwayNo} (p : v ≠ w → s.FlowRight w) : (s.refreshFlow v).FlowRight w := by
  unfold State.FlowRight State.refreshFlow
  rw [waterway_modWaterway]
  split
  · rename_i e; subst e; exact sumFlow_eq s v
  · rename_i e; exact p e

theorem refreshContribution_waterway (s : State) (u v : UnitNo) :
    ((s.refreshContribution u).unit v).waterway = (s.unit v).waterway := by
  unfold State.refreshContribution
  split
  · rw [unit_modUnit]; split <;> simp_all
  · rfl

/-- A contribution recomputed does not touch the flow of a waterway to which its unit is not assigned (R34). -/
theorem flowRight_refreshContribution {s : State} {u : UnitNo} {w : WaterwayNo} (other : (s.unit u).waterway ≠ w)
    (p : s.FlowRight w) : (s.refreshContribution u).FlowRight w := by
  unfold State.refreshContribution
  split <;> [exact flowRight_modUnit (by simp [State.share, other]) p; exact p]

theorem flowRight_send {s : State} {w : WaterwayNo} (u : UnitNo) (d : Directive) (p : s.FlowRight w) : (s.send u d).FlowRight w := by
  refine flowRight_congr p rfl fun v => ?_
  unfold State.share
  rw [unit_send]
  split
  · rename_i e; subst e; rfl
  · rfl

/-- A waterway is written in something else than its live net flow. -/
theorem flowRight_modWaterway {s : State} {v w : WaterwayNo} {f : Waterway → Waterway}
    (h : (f (s.waterway v)).netFlow = (s.waterway v).netFlow) (p : s.FlowRight w) : (s.modWaterway v f).FlowRight w := by
  refine flowRight_congr p ?_
  rw [waterway_modWaterway]
  split
  · rename_i e; subst e; exact h
  · rfl

theorem flowRight_kept (w : WaterwayNo) : Kept (State.FlowRight w) where
  raise _ _ p := p
  order s h f p := by unfold State.modOrder; split <;> exact p
  unlinkTo _ _ p := p
  free s h p := by unfold State.freeOrder; split <;> exact p
  record _ _ _ p := p
  picks _ _ p := p
  leaveStart _ _ p := p
  joinStart _ _ p := p
  handOver s a b q p := flowRight_congr p (by rw [waterway_handOverQueues])
  unit _ _ _ b p := flowRight_modUnit (by unfold State.share; rw [b.waterway, b.contribution]) p
  send _ u d _ _ p := flowRight_send u d p
  contribution s u p := flowRight_refreshFlow fun other => flowRight_refreshContribution other p
  water _ _ _ b p := flowRight_modWaterway b.netFlow p
  joinGate _ _ _ _ _ _ p := flowRight_modWaterway rfl p
  converter _ _ _ _ p := p

/-- A new live head recomputes the contributions of the units of its own waterway alone (R30). -/
theorem flowRight_takeHead {s : State} {v w : WaterwayNo} (head : Nat) (low : Bool) (p : s.FlowRight w) :
    (s.takeHead v head low).FlowRight w := by
  refine Kept.foldl (fun _ u q => (flowRight_kept w).refreshOutside u q) _ (flowRight_refreshFlow fun other => ?_)
  refine (List.foldlRecOn (motive := fun t : State => t.FlowRight w ∧ ∀ u, (t.unit u).waterway = (s.unit u).waterway) _ _
    ⟨flowRight_modWaterway rfl p, fun _ => rfl⟩ fun t ⟨q, same⟩ u hu => ?_).1
  have assigned : (t.unit u).waterway = v := by rw [same]; simpa using (List.mem_filter.1 hu).2
  split
  · exact ⟨flowRight_refreshContribution (assigned ▸ other) q, fun x => (refreshContribution_waterway t u x).trans (same x)⟩
  · exact ⟨q, same⟩

theorem flowRight_keptByGauges (w : WaterwayNo) : KeptByGauges (State.FlowRight w) where
  toKept := flowRight_kept w
  head _ _ p := (flowRight_kept w).updateHead (fun _ => flowRight_modWaterway rfl p) (flowRight_takeHead _ _ p)
  inhibits _ _ p := (flowRight_kept w).evaluateInhibits (flowRight_modWaterway rfl p)

/-- Bringing a live net flow up to date, with its grant opportunity, brings it right and leaves the other's as it is (R36, R109). -/
theorem flowRight_updateFlow {s : State} {v w : WaterwayNo} (p : v ≠ w → s.FlowRight w) : (s.updateFlow v).FlowRight w := by
  have q := flowRight_refreshFlow p
  unfold State.updateFlow
  split
  · rename_i same; rwa [refreshFlow_of_eq _ _ same] at q
  · exact (flowRight_kept w).gateOpportunity _ q

/-- A unit moved leaves the flow of its old waterway and joins that of its new one (R34). -/
theorem flowRight_moved {s : State} {w : WaterwayNo} (u : UnitNo) (v : WaterwayNo) (e : BitVec 2) (p : s.FlowRight w) :
    ((s.modUnit u fun b => { b with waterway := v, eligible := e }).moved u (s.unit u).waterway).FlowRight w := by
  have assigned : ((s.modUnit u fun b => { b with waterway := v, eligible := e }).unit u).waterway = v := by
    rw [unit_modUnit, if_pos rfl]
  unfold State.moved
  rw [assigned]
  refine (flowRight_kept w).refreshOutside _ (flowRight_updateFlow fun new => flowRight_updateFlow fun old => ?_)
  refine flowRight_refreshContribution (by rwa [assigned]) (flowRight_modUnit ?_ p)
  unfold State.share
  rw [if_neg new, if_neg old]

/-- Every command keeps the live net flow of a waterway (R34, R36). -/
theorem flowRight_byCommands (w : WaterwayNo) : KeptByCommands (State.FlowRight w) where
  toKept := flowRight_kept w
  apart _ _ _ b p := flowRight_modUnit (by unfold State.share; rw [b.waterway, b.contribution]) p
  acknowledged s u _ p := by
    have q : State.FlowRight w (s.modLink u fun l => { l with outstanding := none, ackTimer := none, toggle := !l.toggle }) :=
      flowRight_modUnit rfl p
    unfold State.acknowledged State.sendNext
    split
    · exact flowRight_send _ _ (flowRight_modUnit rfl q)
    · exact flowRight_send _ _ (flowRight_modUnit rfl q)
    · exact q
  linkOut _ _ p := p
  silence s g p := (flowRight_kept w).raiseIf _ _ p
  named _ _ p := p
  latches _ _ p := p
  mask _ _ p := p
  due _ _ p := p
  time _ _ _ p := p
  trim _ _ _ p := p
  count s p := flowRight_congr p (by rw [waterway_countMark]) fun u => by unfold State.share; rw [unit_countMark]; rfl
  telegram s g bytes p := (flowRight_keptByGauges w).gaugeChanged _ _ p
  waterwaySettings _ _ _ _ p := (flowRight_keptByGauges w).waterwayWritten _ _ (flowRight_modWaterway rfl p)
  gaugeSettings s _ c _ p := by
    split <;> [exact (flowRight_keptByGauges w).inhibitsOf _ p; exact p]
  eligible _ _ _ p := flowRight_modUnit rfl p
  moved s u v e p := flowRight_moved u v e p
  converterSettings _ _ _ _ p := p
  supervisionSettings _ _ _ _ p := p
  mode _ _ p := p
  cleared s p := flowRight_congr p (by rw [waterway_cleared]; rfl) fun u => by unfold State.share; rw [unit_cleared]; rfl
  port _ _ p := p
  portOut _ _ p := p
  powerOn s straps _ := by
    obtain ⟨-, -, -, -, -, -, -, flow, -⟩ := resetMeetsLaws
    have unit : ∀ u, (s.poweredOn straps).unit u = (State.reset.unit u).strapped (straps.getLsbD u) := by
      simp [State.unit, State.poweredOn, unitsAtPowerOn]
    exact flowRight_congr (flow w) rfl fun u => by unfold State.share; rw [unit]; rfl

/-! ## Every step -/

/-- Every command keeps the live net flows, the live heads, the inhibits and the orders of the queues. -/
theorem exec_keeps_derivedLaws {c : Instr} {s t : State} (h : exec c s = .next t) :
    (s.FlowLaw → t.FlowLaw) ∧ (s.HeadLaw → t.HeadLaw) ∧ (s.InhibitLaw → t.InhibitLaw) ∧ (s.QueueLaw → t.QueueLaw) :=
  ⟨fun l => flowLaw_iff.2 fun w => (flowRight_byCommands w).exec h (flowLaw_iff.1 l w),
    fun l => headLaw_iff.2 fun w => (headRight_shown w).byCommands.exec h (headLaw_iff.1 l w),
    fun l => inhibitLaw_iff.2 fun w => (inhibitRight_shown w).byCommands.exec h (inhibitLaw_iff.1 l w),
    commands_keep_queueLaw.exec h⟩

/-- Settles O60: each law waterway by waterway, as a property that every elementary change keeps and that the gauges' commands and
the settings bring about again. -/
theorem stepKeepsFlowHeadInhibitsQueues : Obligations.StepKeepsFlowHeadInhibitsQueues := by
  intro s t h
  unfold step at h
  split at h
  · cases h; exact ⟨id, id, id, id⟩
  · obtain ⟨flow, head, inhibits, queue⟩ := exec_keeps_derivedLaws h
    exact ⟨flow, head, inhibits, queue⟩

end Sys2Proof.Machine
end

section
/-! # The generating flow (R24 to R26) -/

namespace Sys2Proof

/-! ## Rounding up (R24) -/

/-- A fraction rounded up is at most the whole numbers at or above it (R24). -/
theorem ceilDiv_le_iff {a b c : Int} (hb : 0 < b) : ceilDiv a b ≤ c ↔ a ≤ c * b := by
  unfold ceilDiv
  rw [neg_le, Int.le_ediv_iff_mul_le hb, neg_mul, neg_le_neg_iff]

theorem ceilDiv_mono {a a' b : Int} (hb : 0 < b) (h : a ≤ a') : ceilDiv a b ≤ ceilDiv a' b :=
  (ceilDiv_le_iff hb).2 (h.trans ((ceilDiv_le_iff hb).1 le_rfl))

/-- A whole number is not rounded (R24). -/
theorem ceilDiv_mul_self {a b : Int} (hb : 0 < b) : ceilDiv (a * b) b = a := by
  unfold ceilDiv
  rw [← neg_mul, Int.mul_ediv_cancel _ hb.ne', neg_neg]

theorem ceilDiv_nonneg {a b : Int} (hb : 0 < b) (ha : 0 ≤ a) : 0 ≤ ceilDiv a b :=
  (ceilDiv_mul_self (a := 0) hb).symm.le.trans (ceilDiv_mono hb (by simpa using ha))

/-- A fraction of a larger divisor is no larger. -/
theorem ceilDiv_anti {a b b' : Int} (hb : 0 < b) (h : b ≤ b') (ha : 0 ≤ a) : ceilDiv a b' ≤ ceilDiv a b :=
  (ceilDiv_le_iff (hb.trans_le h)).2
    (((ceilDiv_le_iff hb).1 le_rfl).trans (mul_le_mul_of_nonneg_left h (ceilDiv_nonneg hb ha)))

namespace Machine

/-! ## Interpolation in a table (R25) -/

/-- The powers of the table rise, and its flows do not fall (R132). -/
def TableShape (xs ys : Vector Nat 8) : Prop := ∀ i : Fin 7, xs[i.val] < xs[i.val + 1] ∧ ys[i.val] ≤ ys[i.val + 1]

section
variable {xs ys : Vector Nat 8} (shape : TableShape xs ys)
include shape

theorem TableShape.strictMono : StrictMono fun i : Fin 8 => xs[i] := Fin.strictMono_iff_lt_succ.2 fun i => (shape i).1

theorem TableShape.monotone : Monotone fun i : Fin 8 => ys[i] := Fin.monotone_iff_le_succ.2 fun i => (shape i).2

omit shape in
/-- A power in the table lies on its segment (R25). -/
theorem segment_spec {x : Nat} (low : xs[0] ≤ x) (high : x ≤ xs[7]) :
    xs[(segment xs x).val] ≤ x ∧ x ≤ xs[(segment xs x).val + 1] ∧ (x < xs[(segment xs x).val + 1] ∨ segment xs x = 6) := by
  unfold segment
  split_ifs
  · exact ⟨‹_›, high, .inr rfl⟩
  all_goals exact ⟨‹_›, (not_le.1 ‹_›).le, .inl (not_le.1 ‹_›)⟩

/-- A larger power lies on no earlier segment. -/
theorem segment_mono {x x' : Nat} (low : xs[0] ≤ x) (le : x ≤ x') (high : x' ≤ xs[7]) : segment xs x ≤ segment xs x' := by
  obtain ⟨start, -, -⟩ := segment_spec low (le.trans high)
  obtain ⟨-, -, stop⟩ := segment_spec (low.trans le) high
  by_contra later
  rw [not_le] at later
  rcases stop with stop | last
  · have next : xs[(segment xs x').val + 1] ≤ xs[(segment xs x).val] :=
      shape.strictMono.monotone (a := (segment xs x').succ) (b := (segment xs x).castSucc) later
    omega
  · omega

/-- At the power of a breakpoint the table has that breakpoint's flow (R25). -/
theorem interpolateAt_start (i : Fin 7) : interpolateAt xs ys i xs[i.val] = ys[i.val] := by
  unfold interpolateAt
  have width := (shape i).1
  have flat := ceilDiv_mul_self (a := 0) (b := (xs[i.val + 1] : Int) - xs[i.val]) (by omega)
  simpa using flat

theorem interpolateAt_stop (i : Fin 7) : interpolateAt xs ys i xs[i.val + 1] = ys[i.val + 1] := by
  unfold interpolateAt
  have width := (shape i).1
  rw [ceilDiv_mul_self (by omega)]
  omega

/-- On a segment the flow does not fall as the power rises (R25). -/
theorem interpolateAt_mono (i : Fin 7) {x x' : Nat} (le : x ≤ x') : interpolateAt xs ys i x ≤ interpolateAt xs ys i x' := by
  obtain ⟨width, height⟩ := shape i
  unfold interpolateAt
  refine Int.add_le_add_left (ceilDiv_mono (by omega) (mul_le_mul_of_nonneg_left ?_ ?_)) _ <;> omega

/-- Within the table the flow does not fall as the power rises (R25). -/
theorem interpolate_mono {x x' : Nat} (low : xs[0] ≤ x) (le : x ≤ x') (high : x' ≤ xs[7]) :
    interpolate xs ys x ≤ interpolate xs ys x' := by
  refine Int.toNat_le_toNat ?_
  rcases (segment_mono shape low le high).eq_or_lt with same | later
  · rw [same]
    exact interpolateAt_mono shape _ le
  · obtain ⟨-, stop, -⟩ := segment_spec low (le.trans high)
    obtain ⟨start, -, -⟩ := segment_spec (low.trans le) high
    have flows : ys[(segment xs x).val + 1] ≤ ys[(segment xs x').val] :=
      shape.monotone (a := (segment xs x).succ) (b := (segment xs x').castSucc) later
    calc interpolateAt xs ys (segment xs x) x
        ≤ interpolateAt xs ys (segment xs x) xs[(segment xs x).val + 1] := interpolateAt_mono shape _ stop
      _ = ys[(segment xs x).val + 1] := interpolateAt_stop shape _
      _ ≤ ys[(segment xs x').val] := Int.ofNat_le.2 flows
      _ = interpolateAt xs ys (segment xs x') xs[(segment xs x').val] := (interpolateAt_start shape _).symm
      _ ≤ interpolateAt xs ys (segment xs x') x' := interpolateAt_mono shape _ start

/-- A breakpoint on a segment is one of its two ends. -/
theorem interpolateAt_breakpoint {i : Fin 8} {j : Fin 7} (start : xs[j.val] ≤ xs[i]) (stop : xs[i] ≤ xs[j.val + 1]) :
    interpolateAt xs ys j xs[i] = ys[i] := by
  have least : j.castSucc ≤ i := shape.strictMono.le_iff_le.1 start
  have most : i ≤ j.succ := shape.strictMono.le_iff_le.1 stop
  rcases least.eq_or_lt with rfl | later
  · exact interpolateAt_start shape j
  · obtain rfl := most.antisymm later
    exact interpolateAt_stop shape j

/-- At a breakpoint the table has that breakpoint's flow (R25). -/
theorem interpolate_breakpoint (i : Fin 8) : interpolate xs ys xs[i] = ys[i] := by
  obtain ⟨start, stop, -⟩ := segment_spec (xs := xs) (x := xs[i]) (shape.strictMono.monotone (Fin.zero_le i))
    (shape.strictMono.monotone (Fin.le_last i))
  exact congrArg Int.toNat (interpolateAt_breakpoint shape start stop)

end

/-! ## The generating flow (R26) -/

section
variable {c : Capability}

theorem saturate_mono {a b : Nat} (h : a ≤ b) : saturate a ≤ saturate b := min_le_min_right _ h

theorem refFlow_of_inTable {p : Nat} (low : c.powers[0] ≤ p) (high : p ≤ c.powers[7]) :
    c.refFlow p = interpolate c.powers c.flows p := if_pos ⟨low, high⟩

/-- Within the table the generating flow does not fall as the power rises (R25, R26). -/
theorem genFlow_mono_power (shape : TableShape c.powers c.flows) {p p' head : Nat} (low : c.powers[0] ≤ p) (le : p ≤ p')
    (high : p' ≤ c.powers[7]) (water : 0 < head) : c.genFlow p head ≤ c.genFlow p' head := by
  have flows : c.refFlow p ≤ c.refFlow p' := by
    rw [refFlow_of_inTable low (le.trans high), refFlow_of_inTable (low.trans le) high]
    exact interpolate_mono shape low le high
  refine saturate_mono (Int.toNat_le_toNat (ceilDiv_mono (by omega) ?_))
  exact mul_le_mul_of_nonneg_right (Int.ofNat_le.2 flows) (Int.natCast_nonneg _)

/-- The generating flow does not rise as the head rises (R26). -/
theorem genFlow_anti_head (p : Nat) {head head' : Nat} (water : 0 < head) (le : head ≤ head') :
    c.genFlow p head' ≤ c.genFlow p head :=
  saturate_mono (Int.toNat_le_toNat
    (ceilDiv_anti (by omega) (by omega) (mul_nonneg (Int.natCast_nonneg _) (Int.natCast_nonneg _))))

/-- At a breakpoint and at Href the generating flow is that of the breakpoint, 9999 at most (R24 to R26). -/
theorem genFlow_breakpoint (shape : TableShape c.powers c.flows) (i : Fin 8) (href : 0 < c.href) :
    c.genFlow c.powers[i] c.href = min c.flows[i] 9999 := by
  have flow : c.refFlow c.powers[i] = c.flows[i] :=
    (refFlow_of_inTable (shape.strictMono.monotone (Fin.zero_le i)) (shape.strictMono.monotone (Fin.le_last i))).trans
      (interpolate_breakpoint shape i)
  unfold Capability.genFlow Capability.rawGenFlow
  rw [flow, ceilDiv_mul_self (Int.natCast_pos.2 href)]
  rfl

end

/-- Settles O45: rounding up is monotone, and the two breakpoints of a segment bound the flows on it. -/
theorem generatingFlowMonotone : Obligations.GeneratingFlowMonotone := fun _ shape =>
  ⟨fun _ _ _ low le high water => genFlow_mono_power shape low le high water, fun p _ _ water le => genFlow_anti_head p water le,
    fun i href => genFlow_breakpoint shape i href, fun _ _ => min_le_right _ _⟩

end Machine
end Sys2Proof
end

section
/-! # Windows and the gaps between them (R47 to R49) -/

namespace Sys2Proof.Machine

/-! ## Windows (1.6) -/

theorem beforeEnd_iff {t : Nat} {finish : Option Nat} : beforeEnd t finish = true ↔ ∀ e, finish = some e → t < e := by
  cases finish <;> simp [beforeEnd]

theorem endsAfter_iff {start : Nat} {finish : Option Nat} :
    endsAfter start finish = true ↔ ∀ e, finish = some e → start < e := by
  cases finish <;> simp [endsAfter]

theorem inWindow_iff {start t : Nat} {finish : Option Nat} :
    inWindow start finish t = true ↔ start ≤ t ∧ ∀ e, finish = some e → t < e := by
  cases finish <;> simp [inWindow]

/-- Two windows that are not empty meet exactly when they share an instant: the later of their starts is one (R47). -/
theorem windowsMeet_iff {a c : Nat} {b d : Option Nat} (ab : endsAfter a b = true) (cd : endsAfter c d = true) :
    windowsMeet a b c d = true ↔ ∃ t, inWindow a b t = true ∧ inWindow c d t = true := by
  rw [endsAfter_iff] at ab cd
  simp only [windowsMeet, Bool.and_eq_true, beforeEnd_iff, inWindow_iff]
  constructor
  · rintro ⟨ad, cb⟩
    exact ⟨max a c, ⟨le_max_left a c, fun e he => max_lt (ab e he) (cb e he)⟩, le_max_right a c,
      fun e he => max_lt (ad e he) (cd e he)⟩
  · rintro ⟨t, ⟨le, before⟩, le', before'⟩
    exact ⟨fun e he => le.trans_lt (before' e he), fun e he => le'.trans_lt (before e he)⟩

/-! ## The other orders of the unit (R47, R57) -/

theorem mem_others {s : State} {c : Candidate} {h : Handle} {r : Order} :
    (h, r) ∈ s.others c ↔ s.order? h = some r ∧ r.unit = c.unit ∧ r.life.live = true ∧ c.self ≠ some h := by
  simp [State.others, mem_chain, and_assoc]

/-- The other orders go up in start, as the chain does (R11). -/
theorem others_sorted (s : State) (c : Candidate) : (s.others c).Pairwise fun a b => a.2.start ≤ b.2.start :=
  (chain_sorted s c.unit).filter _

/-- A handle names one of the other orders at most. -/
theorem others_unique {s : State} {c : Candidate} {p q : Handle × Order} (hp : p ∈ s.others c) (hq : q ∈ s.others c)
    (same : p.1 = q.1) : p = q := by
  have order := (mem_others.1 hp).1
  rw [same, (mem_others.1 hq).1] at order
  exact Prod.ext same (Option.some.inj order).symm

/-- Settles O28: a window that is not empty meets another exactly when both contain the later of their starts. -/
theorem overlapIsASharedInstant : Obligations.OverlapIsASharedInstant := by
  intro s c ends law
  have meets : ∀ p ∈ s.others c, (windowsMeet c.start c.finish p.2.start p.2.finish = true ↔
      ∃ t, inWindow c.start c.finish t = true ∧ inWindow p.2.start p.2.finish t = true) := fun p hp =>
    windowsMeet_iff ends (endsAfter_iff.2 fun e he => law p.1 p.2 (mem_others.1 hp).1 e he)
  have refused : s.check7 c = false ↔
      ∃ p ∈ s.others c, windowsMeet c.start c.finish p.2.start p.2.finish = true := by
    simp [State.check7]
  rw [refused]
  constructor
  · rintro ⟨p, hp, meet⟩
    obtain ⟨t, offered, other⟩ := (meets p hp).1 meet
    obtain ⟨hr, unit, live, self⟩ := mem_others.1 hp
    exact ⟨p.1, p.2, t, hr, unit, live, self, offered, other⟩
  · rintro ⟨h, r, t, hr, unit, live, self, offered, other⟩
    have hp := mem_others.2 ⟨hr, unit, live, self⟩
    exact ⟨(h, r), hp, (meets _ hp).2 ⟨t, offered, other⟩⟩

/-! ## The neighbours of a window (R48) -/

section
variable {s : State} {c : Candidate} {h : Handle} {r : Order}

theorem earlierNeighbour_none (nothing : ∀ p ∈ s.others c, ¬ p.2.start < c.start) : s.earlierNeighbour c = none := by
  unfold State.earlierNeighbour
  rw [List.filter_eq_nil_iff.2 fun p hp => by simpa using nothing p hp]
  rfl

/-- The earlier neighbour is the one order that starts before the window and after every other one that does (R48). -/
theorem earlierNeighbour_eq (mem : (h, r) ∈ s.others c) (before : r.start < c.start)
    (latest : ∀ p ∈ s.others c, p.1 ≠ h → p.2.start < c.start → p.2.start < r.start) :
    s.earlierNeighbour c = some (h, r) := by
  have listed : (h, r) ∈ (s.others c).filter fun p => p.2.start < c.start := by simpa using ⟨mem, before⟩
  unfold State.earlierNeighbour
  rw [List.getLast?_eq_some_getLast (List.ne_nil_of_mem listed)]
  set z := ((s.others c).filter fun p => p.2.start < c.start).getLast (List.ne_nil_of_mem listed)
  have last : z ∈ (s.others c).filter fun p => p.2.start < c.start := List.getLast_mem _
  obtain ⟨other, starts⟩ : z ∈ s.others c ∧ z.2.start < c.start := by simpa using last
  have le : r.start ≤ z.2.start :=
    ((others_sorted s c).filter _).rel_getLast_of_rel_getLast_getLast listed le_rfl
  have same : z.1 = h := by_contra fun ne => absurd (latest z other ne starts) (not_lt.2 le)
  exact congrArg some (others_unique other mem same)

theorem laterNeighbour_none (nothing : ∀ p ∈ s.others c, ¬ c.start < p.2.start) : s.laterNeighbour c = none :=
  List.find?_eq_none.2 fun p hp => by simpa using nothing p hp

/-- The later neighbour is the one order that starts after the window's start and before every other one that does (R48). -/
theorem laterNeighbour_eq (mem : (h, r) ∈ s.others c) (after : c.start < r.start)
    (first : ∀ p ∈ s.others c, p.1 ≠ h → c.start < p.2.start → r.start < p.2.start) :
    s.laterNeighbour c = some (h, r) := by
  unfold State.laterNeighbour
  cases found : (s.others c).find? fun p => c.start < p.2.start with
  | none => exact absurd after (by simpa using List.find?_eq_none.1 found _ mem)
  | some z =>
    obtain ⟨starts, front, back, eq, passed⟩ := List.find?_eq_some_iff_append.1 found
    have sorted := others_sorted s c
    have other : z ∈ s.others c := by rw [eq]; simp
    have le : z.2.start ≤ r.start := by
      rw [eq] at sorted mem
      rcases List.mem_append.1 mem with inFront | inBack
      · exact absurd after (by simpa using passed _ inFront)
      · rcases List.mem_cons.1 inBack with rfl | inBack
        · exact le_rfl
        · exact (List.pairwise_cons.1 (List.pairwise_append.1 sorted).2.1).1 _ inBack
    have same : z.1 = h := by_contra fun ne => absurd (first z other ne (by simpa using starts)) (not_lt.2 le)
    exact congrArg some (others_unique other mem same)

end

/-! ## Check 8 (R48, R49) -/

/-- The four outcomes of a gap of zero (R49). -/
theorem judgeZeroGap_spec (a b : Mode) (leg stopping : Bool) :
    (a ≠ b → judgeZeroGap a b leg stopping = some .changeoverShort) ∧
    (a = b → leg = true → judgeZeroGap a b leg stopping = some .linked) ∧
    (a = b → ¬ leg = true → stopping = true → judgeZeroGap a b leg stopping = some .changeoverShort) ∧
    (a = b → ¬ leg = true → ¬ stopping = true → judgeZeroGap a b leg stopping = none) := by
  unfold judgeZeroGap
  refine ⟨fun ne => if_pos ne, ?_, ?_, ?_⟩ <;> intros <;> simp_all

/-- A gap of the changeover time passes, and a shorter one is CHANGEOVER_SHORT (R48). -/
theorem judgeGap_spec (gap left : Nat) :
    (gap ≤ left → unlessHolds (gap ≤ left) .changeoverShort = none) ∧
    (left < gap → unlessHolds (gap ≤ left) .changeoverShort = some .changeoverShort) := by
  constructor <;> intro h
  · simp [unlessHolds, h]
  · simp [unlessHolds, Nat.not_le.2 h]

section
variable {s : State} {c : Candidate}

theorem judgeEarlier_none (nothing : s.earlierNeighbour c = none) : s.judgeEarlier c = none := by
  unfold State.judgeEarlier; rw [nothing]

theorem judgeEarlier_eq {h : Handle} {a : Order} {e : Nat} (neighbour : s.earlierNeighbour c = some (h, a))
    (ends : a.finish = some e) :
    s.judgeEarlier c =
      if e = c.start then judgeZeroGap a.mode c.mode (c.isLeg || a.isPairLeg) a.life.isStopping
      else unlessHolds (s.changeover c.unit a.mode ≤ c.start - e) .changeoverShort := by
  unfold State.judgeEarlier; rw [neighbour]; dsimp only; rw [ends]

theorem judgeLater_none (nothing : c.finish = none ∨ s.laterNeighbour c = none) : s.judgeLater c = none := by
  unfold State.judgeLater
  rcases nothing with e | e <;> rw [e]
  cases c.finish <;> rfl

theorem judgeLater_eq {h : Handle} {b : Order} {e : Nat} (neighbour : s.laterNeighbour c = some (h, b))
    (ends : c.finish = some e) :
    s.judgeLater c =
      if e = b.start then judgeZeroGap c.mode b.mode (c.isLeg || b.isPairLeg) false
      else unlessHolds (s.changeover c.unit c.mode ≤ b.start - e) .changeoverShort := by
  unfold State.judgeLater; rw [neighbour, ends]

/-- The earlier neighbour is judged first (R48). -/
theorem check8_of_earlier {v : Result} (fails : s.judgeEarlier c = some v) : s.check8 c = some v := by
  unfold State.check8; rw [fails]; rfl

theorem check8_eq_later (passes : s.judgeEarlier c = none) : s.check8 c = s.judgeLater c := by
  unfold State.check8; rw [passes]; cases s.judgeLater c <;> rfl

theorem check8_eq_earlier (passes : s.judgeLater c = none) : s.check8 c = s.judgeEarlier c := by
  unfold State.check8; rw [passes]; cases s.judgeEarlier c <;> rfl

end

/-- The stop time of a mode is that of its direction (R48, R77). -/
theorem changeover_eq (s : State) (u : UnitNo) (m : Mode) :
    s.changeover u m =
      s.capTime u (fun x => if m = .pump ∨ m = .condenseP then x.pumpStop else x.genStop) + s.capTime u (·.dwell) := by
  have direction : (fun x : Capability => x.stopTime m) = fun x => if m = .pump ∨ m = .condenseP then x.pumpStop else x.genStop := by
    cases m <;> rfl
  unfold State.changeover
  rw [direction]

/-- Settles O29: each neighbour is the one the statement fixes, and its gap is judged by one comparison. -/
theorem changeoverGapsJudged : Obligations.ChangeoverGapsJudged := by
  intro s c other gap zero isOther isGap isZero
  have member : ∀ p : Handle × Order, p ∈ s.others c ↔ other p.1 p.2 := fun p => mem_others.trans (isOther p.1 p.2).symm
  have time : ∀ m, gap m = s.changeover c.unit m := fun m => (isGap m).trans (changeover_eq s c.unit m).symm
  have laterPasses : (c.finish = none ∨ ∀ h r, other h r → ¬ c.start < r.start) → s.judgeLater c = none := fun nothing =>
    judgeLater_none (nothing.imp id fun nothing => laterNeighbour_none fun p hp => nothing p.1 p.2 ((member p).1 hp))
  have legs : ∀ q : Order, (c.isLeg || q.isPairLeg) = true ↔ c.isLeg = true ∨ q.partner.isSome = true := fun q => by
    simp [Order.isPairLeg]
  refine ⟨fun noEarlier noLater => ?_, fun h a e ha before latest noLater ends => ?_,
    fun h b e hb after first passes ends => ?_, fun v => check8_of_earlier⟩
  · rw [check8_eq_earlier (laterPasses noLater)]
    exact judgeEarlier_none (earlierNeighbour_none fun p hp => noEarlier p.1 p.2 ((member p).1 hp))
  · have neighbour : s.earlierNeighbour c = some (h, a) :=
      earlierNeighbour_eq ((member (h, a)).2 ha) before fun p hp => latest p.1 p.2 ((member p).1 hp)
    rw [check8_eq_earlier (laterPasses noLater), judgeEarlier_eq neighbour ends, time]
    refine ⟨fun same => ?_, fun lt => ?_, fun lt => ?_⟩
    · rw [if_pos same, isZero, ← legs]
      exact judgeZeroGap_spec _ _ _ _
    · rw [if_neg lt.ne]; exact (judgeGap_spec _ _).1
    · rw [if_neg lt.ne]; exact (judgeGap_spec _ _).2
  · have neighbour : s.laterNeighbour c = some (h, b) :=
      laterNeighbour_eq ((member (h, b)).2 hb) after fun p hp => first p.1 p.2 ((member p).1 hp)
    rw [check8_eq_later passes, judgeLater_eq neighbour ends, time]
    refine ⟨fun same => ?_, fun lt => ?_, fun lt => ?_⟩
    · rw [if_pos same, isZero, ← legs]
      simpa using judgeZeroGap_spec c.mode b.mode (c.isLeg || b.isPairLeg) false
    · rw [if_neg lt.ne]; exact (judgeGap_spec _ _).1
    · rw [if_neg lt.ne]; exact (judgeGap_spec _ _).2

end Sys2Proof.Machine
end

section
/-! # The waterway plan (R50, R51) -/

namespace Sys2Proof.Machine

/-- A window contains two instants alike when neither its start nor its end lies between them (R50). -/
theorem inWindow_congr {start b t : Nat} {finish : Option Nat} (le : b ≤ t) (starts : start ≤ t → start ≤ b)
    (ends : ∀ e, finish = some e → e ≤ t → e ≤ b) : inWindow start finish t = inWindow start finish b := by
  rw [Bool.eq_iff_iff, inWindow_iff, inWindow_iff]
  constructor
  · exact fun ⟨begun, running⟩ => ⟨starts begun, fun e he => le.trans_lt (running e he)⟩
  · exact fun ⟨begun, running⟩ => ⟨begun.trans le, fun e he => by
      by_contra passed
      exact absurd (running e he) (not_lt.2 (ends e he (not_lt.1 passed)))⟩

theorem mem_breakpoints {rs : List Order} {x : Nat} :
    x ∈ breakpoints rs ↔ ∃ r ∈ rs, x = r.start ∨ r.finish = some x := by
  simp [breakpoints, Option.mem_toList]

/-- The plan stands still between breakpoints (R50). -/
theorem planAt_congr {rs : List Order} {b t : Nat} (le : b ≤ t) (between : ∀ x ∈ breakpoints rs, x ≤ t → x ≤ b) :
    planAt rs t = planAt rs b := by
  have same : ∀ r ∈ rs, inWindow r.start r.finish t = inWindow r.start r.finish b := fun r hr =>
    inWindow_congr le (between r.start (mem_breakpoints.2 ⟨r, hr, .inl rfl⟩))
      fun e he => between e (mem_breakpoints.2 ⟨r, hr, .inr he⟩)
  unfold planAt
  rw [List.filter_congr same]

/-- The instants that check 9 looks at: the start of the window and the breakpoints inside it (R51). -/
def judgedInstants (rs : List Order) (start : Nat) (finish : Option Nat) : List Nat :=
  start :: (breakpoints rs).filter (inWindow start finish)

theorem check9_iff {s : State} {w : WaterwayNo} {out : List Handle} {flow : Int} {start : Nat} {finish : Option Nat} :
    s.check9 w out flow start finish = true ↔ ∀ t ∈ judgedInstants (s.planOrders w out) start finish,
      (s.waterway w).keeps (planAt (s.planOrders w out) t + flow) = true :=
  List.all_eq_true

/-- For every instant of the window there is a judged one at or before it with no breakpoint after it up to that instant: the last
of those at or before it. -/
theorem exists_judged {rs : List Order} {start t : Nat} {finish : Option Nat} (inside : inWindow start finish t = true) :
    ∃ b ∈ judgedInstants rs start finish, b ≤ t ∧ ∀ x ∈ breakpoints rs, x ≤ t → x ≤ b := by
  obtain ⟨begun, running⟩ := inWindow_iff.1 inside
  have first : start ∈ (judgedInstants rs start finish).toFinset.filter (· ≤ t) := by simp [judgedInstants, begun]
  obtain ⟨b, hb, last⟩ := Finset.exists_max_image _ id ⟨start, first⟩
  obtain ⟨judged, le⟩ : b ∈ judgedInstants rs start finish ∧ b ≤ t := by simpa using hb
  refine ⟨b, judged, le, fun x hx xt => ?_⟩
  rcases le_or_gt start x with sx | xs
  · have window : inWindow start finish x = true := inWindow_iff.2 ⟨sx, fun e he => xt.trans_lt (running e he)⟩
    exact last x (by simp [judgedInstants, hx, window, xt])
  · exact xs.le.trans (last start first)

/-- Settles O30: the plan at any instant of the window is that at the last judged instant before it. -/
theorem planKeepsLimitsThroughout : Obligations.PlanKeepsLimitsThroughout := by
  intro s w out flow start finish ends
  have limits : ∀ q, (s.waterway w).keeps q = true ↔ -((s.waterway w).qpLim : Int) ≤ q ∧ q ≤ ((s.waterway w).qgLim : Int) :=
    fun q => by simp [Waterway.keeps]
  rw [check9_iff]
  constructor
  · intro judged t inside
    obtain ⟨b, hb, le, between⟩ := exists_judged (rs := s.planOrders w out) inside
    rw [planAt_congr le between]
    exact (limits _).1 (judged b hb)
  · intro throughout t ht
    refine (limits _).2 (throughout t ?_)
    rcases List.mem_cons.1 ht with rfl | inside
    · exact inWindow_iff.2 ⟨le_rfl, endsAfter_iff.1 ends⟩
    · exact (List.mem_filter.1 inside).2

end Sys2Proof.Machine
end

section
/-! # PLACE and PLACE_PAIR: the checks in their order, and the record of an admitted order (R42 to R55) -/

namespace Sys2Proof.Machine

/-! ## Checks 2 to 6 in the words of the spec (R44 to R46) -/

theorem check2_iff {s : State} {u : UnitNo} :
    s.check2 u = true ↔ ((s.unit u).context = .idle ∨ (s.unit u).context = .engaged ∨ (s.unit u).context = .recovering ∨
      (s.unit u).context = .orphan) ∧ (s.unit u).isolated = false := by
  simp [State.check2]

theorem check3_iff {s : State} {u : UnitNo} {m : Mode} :
    s.check3 u m = true ↔ ∃ x, (s.unit u).link.current = some x ∧ x.offers m = true := by
  simp [State.check3, Option.any_eq_true]

theorem check4_iff {s : State} {u : UnitNo} {m : Mode} {target : Nat} :
    s.check4 u m target = true ↔
      (m = .generate → ∃ x, (s.unit u).link.current = some x ∧ x.pmin ≤ target ∧ target ≤ x.pmax) := by
  unfold State.check4
  by_cases hm : m = .generate <;> simp [hm, Option.any_eq_true, inRange]

theorem check6_iff {s : State} {u : UnitNo} {m : Mode} :
    s.check6 u m = true ↔ (m = .pump ∨ m = .condenseP → ∃ x p, (s.unit u).link.current = some x ∧ x.pump = some p ∧
      p.head[0] ≤ (s.waterway (s.unit u).waterway).hAdm ∧ (s.waterway (s.unit u).waterway).hAdm ≤ p.head[7]) := by
  have direction : m.pumpDirection = true ↔ m = .pump ∨ m = .condenseP := by cases m <;> simp [Mode.pumpDirection]
  unfold State.check6
  rw [← direction]
  cases m.pumpDirection <;> simp [Option.any_eq_true, PumpTable.outside]

/-! ## The first check that fails (R42) -/

@[simp] theorem firstFailure_none (l : List (Option Result)) : firstFailure (none :: l) = firstFailure l := rfl
@[simp] theorem firstFailure_some (r : Result) (l : List (Option Result)) : firstFailure (some r :: l) = some r := rfl
@[simp] theorem unlessHolds_true (r : Result) : unlessHolds true r = none := rfl
@[simp] theorem unlessHolds_false (r : Result) : unlessHolds false r = some r := rfl

/-! ## Free slots (R3) -/

theorem mem_freeSlots {s : State} {k : SlotNo} : k ∈ s.freeSlots ↔ (s.slot k).order = none := by
  simp [State.freeSlots, allSlots]

theorem freeSlots_increasing (s : State) : s.freeSlots.Pairwise (· < ·) := (List.pairwise_lt_finRange 64).filter _

/-- An increasing list begins with its least element. -/
theorem eq_cons_of_least {l : List SlotNo} (increasing : l.Pairwise (· < ·)) {k : SlotNo} (mem : k ∈ l)
    (least : ∀ j ∈ l, ¬ j < k) : ∃ rest, l = k :: rest := by
  cases l with
  | nil => cases mem
  | cons j rest =>
    rcases List.mem_cons.1 mem with rfl | later
    · exact ⟨rest, rfl⟩
    · exact absurd ((List.pairwise_cons.1 increasing).1 k later) (least j List.mem_cons_self)

/-- The lowest free slot comes first. -/
theorem freeSlots_cons {s : State} {k : SlotNo} (free : (s.slot k).order = none)
    (lowest : ∀ j, j < k → (s.slot j).order.isSome = true) : ∃ rest, s.freeSlots = k :: rest :=
  eq_cons_of_least (freeSlots_increasing s) (mem_freeSlots.2 free) fun j hj lt => by
    have occupied := lowest j lt
    rw [mem_freeSlots.1 hj] at occupied
    cases occupied

/-- The two lowest free slots come first (R55). -/
theorem freeSlots_cons_cons {s : State} {k j : SlotNo} (lt : k < j) (free : (s.slot k).order = none)
    (free' : (s.slot j).order = none) (lowest : ∀ i, i < j → i ≠ k → (s.slot i).order.isSome = true) :
    ∃ rest, s.freeSlots = k :: j :: rest := by
  obtain ⟨rest, eq⟩ := freeSlots_cons free fun i hi => lowest i (hi.trans lt) hi.ne
  have increasing := freeSlots_increasing s
  rw [eq] at increasing
  obtain ⟨above, tail⟩ := List.pairwise_cons.1 increasing
  have mem : j ∈ rest := by
    rcases List.mem_cons.1 (eq ▸ mem_freeSlots.2 free') with same | mem
    · exact absurd same lt.ne'
    · exact mem
  obtain ⟨rest', eq'⟩ := eq_cons_of_least tail mem fun i hi less => by
    have occupied := lowest i less (above i hi).ne'
    rw [mem_freeSlots.1 (eq ▸ List.mem_cons_of_mem k hi)] at occupied
    cases occupied
  exact ⟨rest', by rw [eq, eq']⟩

/-! ## What the frame of a request leaves to the checks -/

section
variable (s : State) (bytes : List Byte)

@[simp] theorem frameEnded_freeSlots : (s.frameEnded bytes).freeSlots = s.freeSlots := by
  simp [State.freeSlots]

@[simp] theorem frameEnded_flowOf (u : UnitNo) (m : Mode) (target : Nat) :
    (s.frameEnded bytes).flowOf u m target = s.flowOf u m target := by
  simp [State.flowOf, State.plannedFlow]

@[simp] theorem frameEnded_flowSaturates (u : UnitNo) (m : Mode) (target : Nat) :
    (s.frameEnded bytes).flowSaturates u m target = s.flowSaturates u m target := by
  simp [State.flowSaturates, State.plannedFlow]

@[simp] theorem frameEnded_candidate (o : Offer) (leg : Bool) : (s.frameEnded bytes).candidate o leg = s.candidate o leg := by
  simp [State.candidate, State.fixStart]

@[simp] theorem frameEnded_linkBefore (c : Candidate) : (s.frameEnded bytes).linkBefore c = s.linkBefore c := by
  obtain ⟨l, p, o, e⟩ := frameEnded_fields s bytes; rw [e]; rfl

@[simp] theorem frameEnded_linkAfter (c : Candidate) : (s.frameEnded bytes).linkAfter c = s.linkAfter c := by
  obtain ⟨l, p, o, e⟩ := frameEnded_fields s bytes; rw [e]; rfl

@[simp] theorem frameEnded_judgePlace (o : Offer) : (s.frameEnded bytes).judgePlace o = s.judgePlace o := by
  obtain ⟨l, p, o, e⟩ := frameEnded_fields s bytes; rw [e]; rfl

@[simp] theorem frameEnded_judgePair (p q : Offer) : (s.frameEnded bytes).judgePair p q = s.judgePair p q := by
  obtain ⟨l, p, o, e⟩ := frameEnded_fields s bytes; rw [e]; rfl

@[simp] theorem frameEnded_judgeAmended (a : Amendment) (legs : List (Handle × Order)) :
    (s.frameEnded bytes).judgeAmended a legs = s.judgeAmended a legs := by
  obtain ⟨l, p, o, e⟩ := frameEnded_fields s bytes; rw [e]; rfl

end

/-! ## PLACE refused (R42) -/

section
variable {s : State} {tag : Byte} {body : List Byte} {o : Offer}

theorem exec_place (mode : s.mode = .dispatch) (length : body.length = 18) :
    exec (.place tag body) s = .next (s.delivered 1 tag 23
      (withField (placeOf body) (s.frameEnded (requestFrame 1 tag body)).placeOrder)) := by
  have carried := exec_carried (c := .place tag body) rfl (s := s) (by rw [mode]; rfl) length
  rwa [length] at carried

theorem exec_place_badField (mode : s.mode = .dispatch) (length : body.length = 18) (bad : placeOf body = none) :
    exec (.place tag body) s = .next (s.answered 1 tag 23 .badField [] s.taken) := by
  rw [exec_place mode length, bad]; rfl

theorem placeOrder_refused {v : Result} (judged : s.judgePlace o = some v) : s.placeOrder o = .refused v := by
  unfold State.placeOrder; rw [judged]

/-- A PLACE that a check fails is refused with its result. -/
theorem exec_place_refused (mode : s.mode = .dispatch) (length : body.length = 18) (offered : placeOf body = some o)
    {v : Result} (judged : s.judgePlace o = some v) :
    exec (.place tag body) s = .next (s.answered 1 tag 23 v [] s.taken) := by
  rw [exec_place mode length, offered, withField, placeOrder_refused ((frameEnded_judgePlace ..).trans judged)]
  rfl

end

/-- Settles O31: a PLACE is answered with the first failure in the list of its checks, and the conditions of the statement are those
checks. -/
theorem placeJudgedInOrder : Obligations.PlaceJudgedInOrder := by
  intro s tag body o c2 c3 c4 c5 c6 c7 c9 refused mode length isRefused
  refine ⟨fun bad => (isRefused _).2 (exec_place_badField mode length bad), fun offered h2 h3 h4 h5 h6 h7 h9 => ?_⟩
  have refuse : ∀ v, s.judgePlace o = some v → refused v := fun v judged =>
    (isRefused v).2 (exec_place_refused mode length offered judged)
  rw [← check2_iff] at h2
  rw [← check3_iff] at h3
  rw [← check4_iff] at h4
  rw [← check6_iff] at h6
  have h5 : c5 ↔ endsAfter (s.candidate o false).start (s.candidate o false).finish = true := h5.trans endsAfter_iff.symm
  have h9 : c9 ↔ s.check9 (s.unit o.unit).waterway [] (s.flowOf o.unit o.mode o.target) (s.candidate o false).start
    (s.candidate o false).finish = true := h9
  have full : (∀ k, (s.slot k).order.isSome = true) → s.freeSlots = [] := fun occupied =>
    List.eq_nil_iff_forall_not_mem.2 fun k hk => by
      have := occupied k
      rw [mem_freeSlots.1 hk] at this
      cases this
  rw [h2, h3, h4, h5, h6, h7, h9]
  simp only [Bool.not_eq_true]
  unfold State.judgePlace at refuse
  refine ⟨fun fails => refuse _ ?_, fun p2 fails => refuse _ ?_, fun p2 p3 fails => refuse _ ?_,
    fun p2 p3 p4 fails => refuse _ ?_, fun p2 p3 p4 p5 fails => refuse _ ?_, fun p2 p3 p4 p5 p6 fails => refuse _ ?_,
    fun v p2 p3 p4 p5 p6 p7 fails => refuse v ?_, fun p2 p3 p4 p5 p6 p7 p8 fails => refuse _ ?_,
    fun p2 p3 p4 p5 p6 p7 p8 p9 occupied => refuse _ ?_⟩
  all_goals simp [*]

end Sys2Proof.Machine
end

section
/-! # PLACE admitted (R3, R13, R52) -/

namespace Sys2Proof.Machine

/-! ## A record entered in a slot (R3) -/

@[simp] theorem slotOf_handleOf (k : SlotNo) (g : Nat) : slotOf (handleOf k g) = k := by
  apply Fin.ext; simp only [slotOf_val, handleOf]; omega

theorem handleOf_generation (k : SlotNo) (g : Nat) : handleOf k g / 64 = g := by
  show (g * 64 + (k : Nat)) / (64 : Nat) = g; omega

/-- A record entered in a slot is the one its handle names, and every other handle names what it did (R2, R3). -/
theorem order?_enterRecord (s : State) (k : SlotNo) (r : Order) (h : Handle) :
    (s.enterRecord k r).order? h = if h = handleOf k (s.slot k).generation then some r else s.order? h := by
  unfold State.order? State.enterRecord
  rw [slot_setSlot]
  by_cases own : h = handleOf k (s.slot k).generation
  · rw [own, slotOf_handleOf, handleOf_generation]; simp
  · rw [if_neg own]
    by_cases same : k = slotOf h
    · have other : (s.slot k).generation ≠ h / 64 := fun g =>
        own (handle_ext (by rw [slotOf_handleOf, same]) (by rw [handleOf_generation, g]))
      rw [if_pos same, ← same, if_neg other, if_neg other]
    · rw [if_neg same]

/-- A free slot's handle names no record. -/
theorem order?_free {s : State} {k : SlotNo} (free : (s.slot k).order = none) :
    s.order? (handleOf k (s.slot k).generation) = none := (order?_handleOf s k).trans free

/-! ## Links (R13) -/

/-- The links written change the table alone. -/
theorem writeLinks_frame (s : State) (h : Handle) (before after : Option Handle) :
    s.writeLinks h before after = { s with slots := (s.writeLinks h before after).slots } := by
  unfold State.writeLinks
  cases before <;> cases after <;> dsimp only
  · rw [modOrder_frame]; rfl
  · rw [modOrder_frame]
  · rw [modOrder_frame, modOrder_frame s]; rfl

section
variable {s : State} {c : Candidate} {h : Handle}

/-- The neighbour that the candidate succeeds is a record of the table. -/
theorem linkBefore_mem (link : s.linkBefore c = some h) : (s.order? h).isSome = true ∧ c.self ≠ some h := by
  obtain ⟨p, neighbour, same⟩ := Option.bind_eq_some_iff.1 link
  have listed := (List.mem_filter.1 (List.mem_of_getLast? neighbour)).1
  obtain ⟨order, -, -, self⟩ := mem_others.1 listed
  split at same
  · cases same; exact ⟨by rw [order]; rfl, self⟩
  · cases same

/-- The neighbour that succeeds the candidate is a record of the table. -/
theorem linkAfter_mem (link : s.linkAfter c = some h) : (s.order? h).isSome = true ∧ c.self ≠ some h := by
  obtain ⟨p, neighbour, same⟩ := Option.bind_eq_some_iff.1 link
  obtain ⟨order, -, -, self⟩ := mem_others.1 (List.mem_of_find?_eq_some neighbour)
  split at same
  · cases same; exact ⟨by rw [order]; rfl, self⟩
  · cases same

end

/-! ## The table after an order is admitted (R52) -/

/-- The state with an admitted order in its slot and its links written: its start has not come yet, and no machine is adopted. -/
def State.placed (s : State) (k : SlotNo) (o : Offer) (life : Life) : State :=
  (State.enterRecord
    { s.markSaturated o.unit (s.flowSaturates o.unit o.mode o.target) with named := [handleOf k (s.slot k).generation] }
    k (s.newRecord o life)).writeLinks (handleOf k (s.slot k).generation) (s.linkBefore (s.candidate o false))
      (s.linkAfter (s.candidate o false))

/-- A PLACE that every check passes takes the lowest free slot (R52). -/
theorem placeOrder_admitted {s : State} {o : Offer} {k : SlotNo} (judged : s.judgePlace o = none)
    (free : (s.slot k).order = none) (lowest : ∀ j, j < k → (s.slot j).order.isSome = true) :
    s.placeOrder o = .ok
      (if s.adopts o then (s.placed k o .running).adopt (handleOf k (s.slot k).generation) o
        else (s.placed k o .held).arriveIfNow (handleOf k (s.slot k).generation) (s.fixStart o.start))
      (beBytes 2 (handleOf k (s.slot k).generation)) := by
  obtain ⟨rest, slots⟩ := freeSlots_cons free lowest
  unfold State.placeOrder State.admitOrder
  rw [judged, slots]
  dsimp only
  cases s.adopts o
  · simp only [Bool.false_eq_true, if_false]; rfl
  · simp only [if_true]; rfl

/-- A flow that saturates sets the indication of its unit, and changes nothing else (R32). -/
theorem unit_markSaturated (s : State) (u v : UnitNo) (sat : Bool) :
    (s.markSaturated u sat).unit v =
      { s.unit v with saturated := (s.unit v).saturated || (decide (v = u) && sat) } := by
  unfold State.markSaturated
  cases sat
  · simp
  · by_cases same : u = v
    · subst same; simp
    · simp [same, Ne.symm same]

/-- A flow that saturates changes the units alone. -/
theorem markSaturated_frame (s : State) (u : UnitNo) (sat : Bool) :
    s.markSaturated u sat = { s with units := (s.markSaturated u sat).units } := by
  unfold State.markSaturated; split <;> rfl

section
variable (s : State) (k : SlotNo) (o : Offer) (life : Life)

/-- An admitted order changes the table, the indication of its unit and the named handles alone (R52, R9). -/
theorem placed_frame : s.placed k o life =
    { s with
      slots := (s.placed k o life).slots, units := (s.placed k o life).units
      named := [handleOf k (s.slot k).generation] } := by
  unfold State.placed
  rw [writeLinks_frame, markSaturated_frame]
  rfl

@[simp] theorem unit_placed (v : UnitNo) : (s.placed k o life).unit v =
    { s.unit v with
      saturated := (s.unit v).saturated || (decide (v = o.unit) && s.flowSaturates o.unit o.mode o.target) } := by
  rw [← unit_markSaturated, State.placed, writeLinks_frame]
  rfl

/-- What a handle names once the order is admitted, before its links are looked at (R2, R3, R13). -/
theorem order?_placed (h : Handle) : (s.placed k o life).order? h =
    (if h = handleOf k (s.slot k).generation then some (s.newRecord o life) else s.order? h).map fun r =>
      { r with
        successor :=
          if (s.linkAfter (s.candidate o false)).isSome ∧ h = handleOf k (s.slot k).generation then
            s.linkAfter (s.candidate o false)
          else if (s.linkAfter (s.candidate o false)).isSome ∧
              (if s.linkBefore (s.candidate o false) = some h then some (handleOf k (s.slot k).generation) else r.successor) =
                s.linkAfter (s.candidate o false) then none
          else if s.linkBefore (s.candidate o false) = some h then some (handleOf k (s.slot k).generation)
          else r.successor } := by
  have slots : (s.markSaturated o.unit (s.flowSaturates o.unit o.mode o.target)).slots = s.slots := by
    rw [markSaturated_frame]
  have slot : (State.slot { s.markSaturated o.unit (s.flowSaturates o.unit o.mode o.target) with
      named := [handleOf k (s.slot k).generation] } k) = s.slot k := by
    unfold State.slot; rw [slots]
  have order : State.order? { s.markSaturated o.unit (s.flowSaturates o.unit o.mode o.target) with
      named := [handleOf k (s.slot k).generation] } h = s.order? h := by
    unfold State.order? State.slot; rw [slots]
  rw [State.placed, order?_writeLinks, order?_enterRecord, slot, order]

/-- An order admitted by a request, apart from what the request's answer does not depend on (R52, R9). -/
theorem placed_taken (bytes : List Byte) : (s.frameEnded bytes).placed k o life =
    { s.taken with
      slots := ((s.frameEnded bytes).placed k o life).slots, units := ((s.frameEnded bytes).placed k o life).units
      port := s.port.atFrame bytes, portOut := List.replicate bytes.length 0
      named := [handleOf k (s.slot k).generation] } := by
  rw [placed_frame, frameEnded_slot, frameEnded_eq]

variable {s k o life}

/-- The admitted record names the later neighbour, where check 8 found a link (R13, R52). -/
theorem order?_placed_self (free : (s.slot k).order = none) :
    (s.placed k o life).order? (handleOf k (s.slot k).generation) =
      some { s.newRecord o life with successor := s.linkAfter (s.candidate o false) } := by
  have other : s.linkBefore (s.candidate o false) ≠ some (handleOf k (s.slot k).generation) := fun link => by
    have known := (linkBefore_mem link).1
    rw [order?_free free] at known
    cases known
  rw [order?_placed, if_pos rfl, Option.map_some]
  cases s.linkAfter (s.candidate o false) <;> simp [other, State.newRecord]

/-- Every other record stands, but for its link (R13, log entry 54). -/
theorem order?_placed_other (free : (s.slot k).order = none) {h : Handle} {r : Order} (hr : s.order? h = some r) :
    (s.placed k o life).order? h = some
      (if s.linkBefore (s.candidate o false) = some h then { r with successor := some (handleOf k (s.slot k).generation) }
        else if r.successor.isSome = true ∧ r.successor = s.linkAfter (s.candidate o false) then { r with successor := none }
        else r) := by
  have other : h ≠ handleOf k (s.slot k).generation := by
    rintro rfl
    rw [order?_free free] at hr
    cases hr
  have notAfter : s.linkAfter (s.candidate o false) ≠ some (handleOf k (s.slot k).generation) := fun link => by
    have known := (linkAfter_mem link).1
    rw [order?_free free] at known
    cases known
  rw [order?_placed, if_neg other, hr, Option.map_some]
  by_cases before : s.linkBefore (s.candidate o false) = some h
  · simp [before, other, notAfter.symm]
  · cases s.linkAfter (s.candidate o false) with
    | none => simp [before]
    | some b => by_cases named : r.successor = some b <;> simp [before, other, named]

end

/-! ## The request -/

section
variable (s : State) (bytes : List Byte)

@[simp] theorem frameEnded_newRecord (o : Offer) (life : Life) : (s.frameEnded bytes).newRecord o life = s.newRecord o life := by
  simp [State.newRecord, State.fixStart]

@[simp] theorem frameEnded_adopts (o : Offer) : (s.frameEnded bytes).adopts o = s.adopts o := by simp [State.adopts]

/-- An answer replaces the port, what was sent on it and the named handles. -/
theorem answered_of_eq {s t t' : State} {kind : Nat} {tag : Byte} {n : Nat} {r : Result} {out sent : List Byte} {p : Port}
    {names : List Handle} (h : t = { t' with port := p, portOut := sent, named := names }) :
    s.answered kind tag n r out t = s.answered kind tag n r out t' := by rw [h]; rfl

/-- The state that a PLACE leaves when it passes: the order is in the table, and then adopted, or its start arrives if it has come. -/
def State.afterPlace (k : SlotNo) (o : Offer) : State :=
  if s.adopts o then ((s.frameEnded bytes).placed k o .running).adopt (handleOf k (s.slot k).generation) o
  else ((s.frameEnded bytes).placed k o .held).arriveIfNow (handleOf k (s.slot k).generation) (s.fixStart o.start)

end

theorem exec_place_admitted {s : State} {tag : Byte} {body : List Byte} {o : Offer} {k : SlotNo} (mode : s.mode = .dispatch)
    (length : body.length = 18) (offered : placeOf body = some o) (judged : s.judgePlace o = none)
    (free : (s.slot k).order = none) (lowest : ∀ j, j < k → (s.slot j).order.isSome = true) :
    exec (.place tag body) s = .next (s.answered 1 tag 23 .ok (beBytes 2 (handleOf k (s.slot k).generation))
      (s.afterPlace (requestFrame 1 tag body) k o)) := by
  rw [exec_place mode length, offered, withField,
    placeOrder_admitted (k := k) ((frameEnded_judgePlace ..).trans judged) (by rwa [frameEnded_slot])
      (fun j lt => by rw [frameEnded_slot]; exact lowest j lt)]
  simp only [frameEnded_slot, frameEnded_adopts, State.fixStart, frameEnded_plantTime]
  rfl

/-- Settles O32: nothing of the new record's life begins before its start, so its entry in the table is all that PLACE does. -/
theorem placeAdmitted : Obligations.PlaceAdmitted := by
  intro s tag body o k h mode length offered judged ahead free lowest handle
  subst handle
  have fixed : s.fixStart o.start = o.start := max_eq_left ahead.le
  have waits : s.afterPlace (requestFrame 1 tag body) k o = (s.frameEnded (requestFrame 1 tag body)).placed k o .held := by
    have notAdopted : s.adopts o = false := by simp [State.adopts, Nat.not_le.2 ahead]
    have notNow : o.start ≠ ((s.frameEnded (requestFrame 1 tag body)).placed k o .held).plantTime := by
      rw [placed_frame]; simpa using ahead.ne'
    rw [State.afterPlace, notAdopted, fixed, if_neg (by decide), State.arriveIfNow, if_neg notNow]
  have free' : ((s.frameEnded (requestFrame 1 tag body)).slot k).order = none := by rw [frameEnded_slot, free]
  refine ⟨{ s.taken with
    slots := ((s.frameEnded (requestFrame 1 tag body)).placed k o .held).slots
    units := ((s.frameEnded (requestFrame 1 tag body)).placed k o .held).units }, ?_, ?_, ?_, rfl, ?_⟩
  · rw [exec_place_admitted mode length offered judged free lowest, waits]
    exact congrArg _ (answered_of_eq (placed_taken ..))
  · have entered := order?_placed_self (o := o) (life := .held) free'
    simp only [frameEnded_slot, frameEnded_linkAfter, frameEnded_candidate, frameEnded_newRecord] at entered
    refine Eq.trans entered ?_
    simp [State.newRecord, fixed]
  · intro h' r' hr
    have stands := order?_placed_other (o := o) (life := .held) free' ((frameEnded_order? ..).trans hr)
    simp only [frameEnded_slot, frameEnded_linkAfter, frameEnded_linkBefore, frameEnded_candidate] at stands
    exact stands
  · intro u
    have unit := unit_placed (s.frameEnded (requestFrame 1 tag body)) k o .held u
    simp only [frameEnded_unit, frameEnded_flowSaturates] at unit
    exact unit

end Sys2Proof.Machine
end

section
/-! # PLACE_PAIR (R54, R55) -/

namespace Sys2Proof.Machine

/-! ## The legs offered (R54, 12.2) -/

theorem offerOf_mode {u : UnitNo} {m : Mode} {body : List Byte} {o : Offer} (h : offerOf u m body = some o) : o.mode = m := by
  unfold offerOf at h
  dsimp only at h
  split at h
  · cases h
  · split at h
    · cases h; rfl
    · cases h

/-- The PUMP leg of an offered pair has the window, class and tolerance of the GENERATE leg, and no target (R54). -/
theorem pairOf_spec {body : List Byte} {p q : Offer} (h : pairOf body = some (p, q)) :
    p = { q with unit := p.unit, mode := .pump, target := 0, ramp := 0 } ∧ q.mode = .generate := by
  unfold pairOf at h
  split at h
  · obtain ⟨q', offered, same⟩ := Option.map_eq_some_iff.1 h
    cases same
    exact ⟨rfl, offerOf_mode offered⟩
  · cases h

/-! ## PLACE_PAIR refused -/

section
variable {s : State} {tag : Byte} {body : List Byte} {p q : Offer}

theorem exec_placePair (mode : s.mode = .dispatch) (length : body.length = 18) (offered : pairOf body = some (p, q)) :
    exec (.placePair tag body) s =
      .next (s.delivered 2 tag 23 ((s.frameEnded (requestFrame 2 tag body)).placePair (p, q))) := by
  have carried := exec_carried (c := .placePair tag body) rfl (s := s) (by rw [mode]; rfl) length
  rw [length] at carried
  rw [carried, ownerOf, offered]
  rfl

theorem placePair_refused {v : Result} (judged : s.judgePair p q = some v) : s.placePair (p, q) = .refused v := by
  unfold State.placePair; rw [judged]

/-- A PLACE_PAIR that a check fails is refused with its result. -/
theorem exec_placePair_refused (mode : s.mode = .dispatch) (length : body.length = 18) (offered : pairOf body = some (p, q))
    {v : Result} (judged : s.judgePair p q = some v) :
    exec (.placePair tag body) s = .next (s.answered 2 tag 23 v [] s.taken) := by
  rw [exec_placePair mode length offered, placePair_refused ((frameEnded_judgePair ..).trans judged)]
  rfl

/-- Two legs need two free slots. -/
theorem freeSlots_short (one : ∀ k j, (s.slot k).order = none → (s.slot j).order = none → k = j) :
    decide (2 ≤ s.freeSlots.length) = false := by
  rw [decide_eq_false_iff_not]
  intro two
  have increasing := freeSlots_increasing s
  match slots : s.freeSlots with
  | [] => simp [slots] at two
  | [_] => simp [slots] at two
  | k :: j :: rest =>
    have free : ∀ i ∈ [k, j], (s.slot i).order = none := fun i hi =>
      mem_freeSlots.1 (by rw [slots]; simp only [List.mem_cons, List.not_mem_nil, or_false] at hi ⊢; tauto)
    rw [slots] at increasing
    exact absurd (one k j (free k (by simp)) (free j (by simp)))
      ((List.pairwise_cons.1 increasing).1 j List.mem_cons_self).ne

end

/-! ## The table after a pair is admitted (R55) -/

/-- The state with both legs of an admitted pair in their slots, each naming the other: their start has not come yet. -/
def State.placedPair (s : State) (kp kq : SlotNo) (p q : Offer) : State :=
  (State.enterRecord
    { (s.markSaturated p.unit (s.flowSaturates p.unit .pump 0)).markSaturated q.unit
        (s.flowSaturates q.unit .generate q.target) with
      named := [handleOf kp (s.slot kp).generation, handleOf kq (s.slot kq).generation] }
    kp ((s.newRecord p .held).asLeg (handleOf kq (s.slot kq).generation) (s.pairSenseOf p q))).enterRecord
    kq ((s.newRecord q .held).asLeg (handleOf kp (s.slot kp).generation) (s.pairSenseOf p q))

/-- A PLACE_PAIR that every check passes takes the two lowest free slots (R55). -/
theorem placePair_admitted {s : State} {p q : Offer} {kp kq : SlotNo} (judged : s.judgePair p q = none) (lt : kp < kq)
    (free : (s.slot kp).order = none) (free' : (s.slot kq).order = none)
    (lowest : ∀ i, i < kq → i ≠ kp → (s.slot i).order.isSome = true) :
    s.placePair (p, q) = .ok
      ((s.placedPair kp kq p q).arriveBoth (handleOf kp (s.slot kp).generation) (handleOf kq (s.slot kq).generation)
        (s.fixStart p.start))
      (beBytes 2 (handleOf kp (s.slot kp).generation) ++ beBytes 2 (handleOf kq (s.slot kq).generation)) := by
  obtain ⟨rest, slots⟩ := freeSlots_cons_cons lt free free' lowest
  unfold State.placePair State.admitPair
  rw [judged, slots]
  rfl

section
variable (s : State) (kp kq : SlotNo) (p q : Offer)

/-- An admitted pair changes the table, the units and the named handles alone (R55, R9). -/
theorem placedPair_frame : s.placedPair kp kq p q =
    { s with
      slots := (s.placedPair kp kq p q).slots, units := (s.placedPair kp kq p q).units
      named := [handleOf kp (s.slot kp).generation, handleOf kq (s.slot kq).generation] } := by
  unfold State.placedPair
  rw [markSaturated_frame (s.markSaturated _ _), markSaturated_frame s]
  rfl

/-- A pair admitted by a request, apart from what the request's answer does not depend on. -/
theorem placedPair_taken (bytes : List Byte) : (s.frameEnded bytes).placedPair kp kq p q =
    { s.taken with
      slots := ((s.frameEnded bytes).placedPair kp kq p q).slots, units := ((s.frameEnded bytes).placedPair kp kq p q).units
      port := s.port.atFrame bytes, portOut := List.replicate bytes.length 0
      named := [handleOf kp (s.slot kp).generation, handleOf kq (s.slot kq).generation] } := by
  rw [placedPair_frame, frameEnded_slot, frameEnded_slot, frameEnded_eq]

variable {kp kq}

/-- What a handle names once the pair is admitted (R3, R55). -/
theorem order?_placedPair (lt : kp < kq) (h : Handle) : (s.placedPair kp kq p q).order? h =
    if h = handleOf kq (s.slot kq).generation then
      some ((s.newRecord q .held).asLeg (handleOf kp (s.slot kp).generation) (s.pairSenseOf p q))
    else if h = handleOf kp (s.slot kp).generation then
      some ((s.newRecord p .held).asLeg (handleOf kq (s.slot kq).generation) (s.pairSenseOf p q))
    else s.order? h := by
  unfold State.placedPair
  rw [order?_enterRecord, order?_enterRecord, markSaturated_frame (s.markSaturated _ _), markSaturated_frame s]
  unfold State.enterRecord
  rw [slot_setSlot, if_neg lt.ne]
  rfl

end

theorem exec_placePair_admitted {s : State} {tag : Byte} {body : List Byte} {p q : Offer} {kp kq : SlotNo}
    (mode : s.mode = .dispatch) (length : body.length = 18) (offered : pairOf body = some (p, q))
    (judged : s.judgePair p q = none) (ahead : s.plantTime < p.start) (lt : kp < kq) (free : (s.slot kp).order = none)
    (free' : (s.slot kq).order = none) (lowest : ∀ i, i < kq → i ≠ kp → (s.slot i).order.isSome = true) :
    exec (.placePair tag body) s = .next (s.answered 2 tag 23 .ok
      (beBytes 2 (handleOf kp (s.slot kp).generation) ++ beBytes 2 (handleOf kq (s.slot kq).generation))
      ((s.frameEnded (requestFrame 2 tag body)).placedPair kp kq p q)) := by
  have notNow : max p.start s.plantTime ≠ s.plantTime := by omega
  rw [exec_placePair mode length offered,
    placePair_admitted (kp := kp) (kq := kq) ((frameEnded_judgePair ..).trans judged) lt (by rwa [frameEnded_slot])
      (by rwa [frameEnded_slot]) (fun i less ne => by rw [frameEnded_slot]; exact lowest i less ne)]
  unfold State.arriveBoth State.fixStart
  rw [placedPair_frame]
  simp only [frameEnded_slot, frameEnded_plantTime, if_neg notNow]
  rfl

/-! ## The statement's parts -/

/-- A pair is judged check by check, the PUMP leg first (R54, Table 3-1). -/
theorem pair_judgedInOrder {s : State} {tag : Byte} {body : List Byte} {p q : Offer} (mode : s.mode = .dispatch)
    (length : body.length = 18) (offered : pairOf body = some (p, q)) (available : UnitNo → Prop) (w : WaterwayNo)
    (c2 c3 c4 c5 c6 c7 c9 : Prop) (refused : Result → Prop) (units : p.unit ≠ q.unit)
    (pumpWater : w = (s.unit p.unit).waterway) (genWater : w = (s.unit q.unit).waterway)
    (isAvailable : ∀ u, available u ↔ ((s.unit u).context = .idle ∨ (s.unit u).context = .engaged ∨
      (s.unit u).context = .recovering ∨ (s.unit u).context = .orphan) ∧ (s.unit u).isolated = false)
    (h2 : c2 ↔ available p.unit ∧ available q.unit)
    (h3 : c3 ↔ (∃ x, (s.unit p.unit).link.current = some x ∧ x.offers .pump = true) ∧
      ∃ x, (s.unit q.unit).link.current = some x ∧ x.offers .generate = true)
    (h4 : c4 ↔ ∃ x, (s.unit q.unit).link.current = some x ∧ x.pmin ≤ q.target ∧ q.target ≤ x.pmax)
    (h5 : c5 ↔ ∀ e, p.finish = some e → max p.start s.plantTime < e)
    (h6 : c6 ↔ ∃ x t, (s.unit p.unit).link.current = some x ∧ x.pump = some t ∧ t.head[0] ≤ (s.waterway w).hAdm ∧
      (s.waterway w).hAdm ≤ t.head[7])
    (h7 : c7 ↔ s.check7 (s.candidate p true) = true ∧ s.check7 (s.candidate q true) = true)
    (h9 : c9 ↔ s.check9 w [] (s.flowOf p.unit .pump 0 + s.flowOf q.unit .generate q.target) (max p.start s.plantTime) p.finish =
      true)
    (isRefused : ∀ v, refused v ↔ exec (.placePair tag body) s = .next (s.answered 2 tag 23 v [] s.taken)) :
    (¬ c2 → refused .unitUnavailable) ∧ (c2 → ¬ c3 → refused .modeNotSupported) ∧
    (c2 → c3 → ¬ c4 → refused .targetRange) ∧ (c2 → c3 → c4 → ¬ c5 → refused .badWindow) ∧
    (c2 → c3 → c4 → c5 → ¬ c6 → refused .headRange) ∧ (c2 → c3 → c4 → c5 → c6 → ¬ c7 → refused .overlap) ∧
    (∀ v, c2 → c3 → c4 → c5 → c6 → c7 →
      s.check8 (s.candidate p true) = some v ∨
        (s.check8 (s.candidate p true) = none ∧ s.check8 (s.candidate q true) = some v) → refused v) ∧
    (c2 → c3 → c4 → c5 → c6 → c7 → s.check8 (s.candidate p true) = none → s.check8 (s.candidate q true) = none →
      (¬ c9 → refused .flowLimit) ∧
      (c9 → (∀ k j, (s.slot k).order = none → (s.slot j).order = none → k = j) → refused .tableFull)) := by
  have refuse : ∀ v, s.judgePair p q = some v → refused v := fun v judged =>
    (isRefused v).2 (exec_placePair_refused mode length offered judged)
  have legs : (p.unit != q.unit && (s.unit p.unit).waterway == (s.unit q.unit).waterway) = true := by
    simp [units, ← pumpWater, ← genWater]
  rw [isAvailable, isAvailable, ← check2_iff, ← check2_iff] at h2
  rw [← check3_iff, ← check3_iff] at h3
  have h4 : c4 ↔ s.check4 q.unit .generate q.target = true := by rw [h4, check4_iff]; simp
  have h5 : c5 ↔ endsAfter (s.candidate p true).start (s.candidate p true).finish = true := h5.trans endsAfter_iff.symm
  have h6 : c6 ↔ s.check6 p.unit .pump = true := by rw [h6, check6_iff, ← pumpWater]; simp
  have h9 : c9 ↔ s.check9 (s.unit p.unit).waterway [] (s.pairFlow p q) (s.candidate p true).start
    (s.candidate p true).finish = true := by rw [h9, pumpWater]; rfl
  rw [← Bool.and_eq_true] at h2 h3 h7
  rw [h2, h3, h4, h5, h6, h7, h9]
  simp only [Bool.not_eq_true]
  unfold State.judgePair at refuse
  simp only [legs, unlessHolds_true, firstFailure_none] at refuse
  refine ⟨fun fails => refuse _ ?_, fun p2 fails => refuse _ ?_, fun p2 p3 fails => refuse _ ?_,
    fun p2 p3 p4 fails => refuse _ ?_, fun p2 p3 p4 p5 fails => refuse _ ?_, fun p2 p3 p4 p5 p6 fails => refuse _ ?_,
    fun v p2 p3 p4 p5 p6 p7 fails => refuse v ?_,
    fun p2 p3 p4 p5 p6 p7 pumpGap genGap => ⟨fun fails => refuse _ ?_, fun p9 one => refuse _ ?_⟩⟩
  case refine_7 => rcases fails with fails | ⟨passes, fails⟩ <;> simp [*]
  case refine_9 => simp [*, freeSlots_short one]
  all_goals simp [*]

/-- A pair that passes is entered in the two lowest free slots (R38, R55). -/
theorem pair_entered {s : State} {tag : Byte} {body : List Byte} {p q : Offer} (mode : s.mode = .dispatch)
    (length : body.length = 18) (offered : pairOf body = some (p, q)) {k j : SlotNo} (judged : s.judgePair p q = none)
    (ahead : s.plantTime < p.start) (lt : k < j) (free : (s.slot k).order = none) (free' : (s.slot j).order = none)
    (lowest : ∀ i, i < j → i ≠ k → (s.slot i).order.isSome = true) {hp hq : Handle}
    (pumpHandle : hp = handleOf k (s.slot k).generation) (genHandle : hq = handleOf j (s.slot j).generation) :
    ∃ t a b, exec (.placePair tag body) s = .next (s.answered 2 tag 23 .ok (beBytes 2 hp ++ beBytes 2 hq) t) ∧
      t.order? hp = some a ∧ t.order? hq = some b ∧
      a = (s.newRecord p .held).asLeg hq (s.pairSenseOf p q) ∧ b = (s.newRecord q .held).asLeg hp (s.pairSenseOf p q) ∧
      (∀ h r, s.order? h = some r → t.order? h = some r) ∧ t = { s.taken with slots := t.slots, units := t.units } := by
  subst pumpHandle genHandle
  have distinct : handleOf k (s.slot k).generation ≠ handleOf j (s.slot j).generation := fun same => by
    have := congrArg slotOf same
    rw [slotOf_handleOf, slotOf_handleOf] at this
    exact lt.ne this
  have sense : (s.frameEnded (requestFrame 2 tag body)).pairSenseOf p q = s.pairSenseOf p q := by simp [State.pairSenseOf]
  have table := order?_placedPair (s.frameEnded (requestFrame 2 tag body)) p q lt
  simp only [frameEnded_slot, frameEnded_newRecord, sense, frameEnded_order?] at table
  refine ⟨{ s.taken with
    slots := ((s.frameEnded (requestFrame 2 tag body)).placedPair k j p q).slots
    units := ((s.frameEnded (requestFrame 2 tag body)).placedPair k j p q).units }, _, _, ?_, ?_, ?_, rfl, rfl, ?_, rfl⟩
  · rw [exec_placePair_admitted mode length offered judged ahead lt free free' lowest]
    exact congrArg _ (answered_of_eq (placedPair_taken ..))
  · exact (table _).trans (by rw [if_neg distinct, if_pos rfl])
  · exact (table _).trans (if_pos rfl)
  · intro h r hr
    have notPump : h ≠ handleOf k (s.slot k).generation := by rintro rfl; rw [order?_free free] at hr; cases hr
    have notGen : h ≠ handleOf j (s.slot j).generation := by rintro rfl; rw [order?_free free'] at hr; cases hr
    exact (table h).trans (by rw [if_neg notGen, if_neg notPump, hr])

/-- Settles O34: the legs of a pair stand and fall together in the list of its checks, and an admitted pair is its two records. -/
theorem pairAdmitted : Obligations.PairAdmitted := by
  intro s tag body p q mode length offered
  refine ⟨fun apart => exec_placePair_refused mode length offered ?_, ?_, ?_⟩
  · have legs : (p.unit != q.unit && (s.unit p.unit).waterway == (s.unit q.unit).waterway) = false := by
      simpa [imp_iff_not_or] using apart
    unfold State.judgePair
    rw [legs]
    rfl
  · intro available w c2 c3 c4 c5 c6 c7 c9 refused
    exact pair_judgedInOrder mode length offered available w c2 c3 c4 c5 c6 c7 c9 refused
  · intro k j hp hq judged ahead lt free free' lowest pumpHandle genHandle
    obtain ⟨t, a, b, result, pumpLeg, genLeg, pump, gen, others, frame⟩ :=
      pair_entered (tag := tag) mode length offered judged ahead lt free free' lowest pumpHandle genHandle
    obtain ⟨shared, generate⟩ := pairOf_spec offered
    have fixed : s.fixStart p.start = p.start := max_eq_left ahead.le
    have window : q.start = p.start ∧ q.finish = p.finish := by rw [shared]; exact ⟨rfl, rfl⟩
    have grade : q.cls = p.cls ∧ q.tolerance = p.tolerance := by rw [shared]; exact ⟨rfl, rfl⟩
    have pumps : p.mode = .pump ∧ p.target = 0 := by rw [shared]; exact ⟨rfl, rfl⟩
    refine ⟨t, a, b, result, pumpLeg, genLeg, ?_⟩
    subst pump gen
    simpa [Order.asLeg, State.newRecord, State.pairSenseOf, window, grade, pumps, fixed, generate, -taken_mode] using
      And.intro others frame

end Sys2Proof.Machine
end

section
/-! # Rules of an event within a request: arrivals, engagement, setpoints and stops under a gate that is SPACING -/

namespace Sys2Proof.Machine

/-! ## Tasks in order -/

/-- Two tasks that leave none behind are done one after the other. -/
theorem finish_two {s s₁ s₂ : State} {t u : Task} (first : s.runTask t = (s₁, [])) (second : s₁.runTask u = (s₂, [])) :
    Work.finish (s, [t, u]) = s₂ := by
  show State.settleWithin (510 + 2) [t, u] s = s₂
  unfold State.settleWithin
  rw [first]
  unfold State.settleWithin
  dsimp only [List.nil_append]
  rw [second]
  rfl

/-! ## A start arrival within a request (R64, R65, R67) -/

theorem endReached_iff {t : Nat} {finish : Option Nat} : endReached finish t = true ↔ ¬ endsAfter t finish = true := by
  cases finish <;> simp [endReached, endsAfter]

section
variable {s : State} {h : Handle} {r : Order}

/-- An order that is not late passes its lateness test (R67). -/
theorem latenessTest_passes (hr : s.order? h = some r)
    (inTime : r.life = .due → latenessReached r.start r.tolerance s.plantTime = false ∧ endReached r.finish s.plantTime = false) :
    s.latenessTest h = (s, []) := by
  unfold State.latenessTest
  rw [hr]
  dsimp only
  rw [if_neg]
  rintro ⟨due, late | ended, -⟩
  · rw [(inTime due).1] at late; cases late
  · rw [(inTime due).2] at ended; cases ended

/-- The start arrival of a HELD order that its request names: it is DUE, the engagement test of its unit is made, and no lateness
test fails it (R64, R65, R9). -/
theorem startArrival_finish (hr : s.order? h = some r) (held : r.life = .held) (named : h ∈ s.named)
    (notIsolated : (s.unit r.unit).isolated = false) {t : State}
    (engaged : (s.modOrder h fun r => { r with life := .due }).engageFirst r.unit = t) (passes : t.latenessTest h = (t, [])) :
    (s.startArrival h).finish = t := by
  have arrives : s.startArrival h = (s.modOrder h fun r => { r with life := .due }, [.engagementOf h, .lateness h]) := by
    unfold State.startArrival
    rw [hr]
    dsimp only
    rw [if_pos held, enter_named named]
  have test : (s.modOrder h fun r => { r with life := .due }).runTask (.engagementOf h) = (t, []) := by
    show State.engagementTestOf _ h = _
    unfold State.engagementTestOf
    rw [order?_modOrder, if_pos rfl, hr]
    simp [notIsolated, engaged]
  rw [arrives]
  exact finish_two test passes

/-- On a unit that is not IDLE no order engages (R65). -/
theorem engageFirst_busy {u : UnitNo} (busy : (s.unit u).context ≠ .idle) : s.engageFirst u = s := if_neg busy

/-- On an IDLE unit its one DUE order engages, unless its end has come (R65). -/
theorem engageFirst_single {u : UnitNo} (idle : (s.unit u).context = .idle) (hr : s.order? h = some r) (unit : r.unit = u)
    (due : r.life = .due) (runs : endReached r.finish s.plantTime = false)
    (only : ∀ k q, s.order? k = some q → q.unit = u → q.life = .due → k = h) : s.engageFirst u = s.engage h r := by
  have mem : (h, r) ∈ s.dueOrders u := by
    unfold State.dueOrders
    exact List.mem_filter.2 ⟨mem_chain.2 ⟨hr, unit, by rw [due]; rfl⟩, by simpa using due⟩
  have first : ((s.dueOrders u).find? fun p => !endReached p.2.finish s.plantTime) = some (h, r) := by
    cases found : (s.dueOrders u).find? fun p => !endReached p.2.finish s.plantTime with
    | none => simpa [runs] using List.find?_eq_none.1 found _ mem
    | some p =>
      obtain ⟨listed, isDue⟩ := List.mem_filter.1 (List.mem_of_find?_eq_some found)
      obtain ⟨hq, hu, -⟩ := mem_chain.1 listed
      have same : p.1 = h := only p.1 p.2 hq hu (by simpa using isDue)
      rw [same, hr] at hq
      exact congrArg some (Prod.ext same (Option.some.inj hq).symm)
  unfold State.engageFirst
  rw [if_pos idle, first]

/-- A unit becomes ENGAGED without an event, and nothing else of it changes (R149). -/
theorem setContext_engaged (s : State) (u : UnitNo) :
    s.setContext u .engaged = s.modUnit u fun b => { b with context := .engaged } := by
  unfold State.setContext
  simp

/-- A single GENERATE or CONDENSE_G order that engages under a gate that is SPACING waits there with a START entry (R66, R106). -/
theorem engage_awaitsGate (hr : s.order? h = some r) (single : r.partner = none) (generating : r.mode = .generate ∨ r.mode = .condenseG)
    (named : h ∈ s.named) (spaced : (s.waterway (s.unit r.unit).waterway).spacing.isSome = true) :
    (s.engage h r).order? h = some { r with life := .starting .awaitingGate } ∧
    ((s.engage h r).unit r.unit).context = .engaged ∧
    ∃ e ∈ ((s.engage h r).waterway (s.unit r.unit).waterway).queue,
      e.handle = h ∧ e.unit = r.unit ∧ e.kind = .start ∧ e.cls = r.cls := by
  have phase : s.firstPhase r = .awaitingGate := by
    unfold State.firstPhase
    rw [single]
    rcases generating with m | m <;> rw [m] <;> rfl
  have engaged : s.engage h r = (((s.modUnit r.unit fun b => { b with context := .engaged }).modOrder h fun r =>
      { r with life := .starting .awaitingGate }).modUnit r.unit fun b => { b with motion := false }).joinGate h r .start := by
    unfold State.engage
    rw [phase, setContext_engaged]
    dsimp only
    rw [enter_named (by simpa using named)]
    rfl
  rw [engaged, joinGate_spaced (by simpa using spaced)]
  refine ⟨by simp [hr], by simp, ?_⟩
  simp only [waterway_modWaterway, modUnit_waterway, modOrder_waterway, unit_modUnit, modOrder_unit, if_true]
  exact ⟨_, mem_insertGate _ _, rfl, rfl, rfl, rfl⟩

end

/-! ## A directive asked for (R124, R127, R138) -/

section
variable (s : State) (u : UnitNo) (d : Directive)

/-- A directive asked for changes its unit, and the frames sent, alone. -/
theorem ask_frame : s.ask u d = { s with units := (s.ask u d).units, linkOut := (s.ask u d).linkOut } := by
  unfold State.ask
  dsimp only
  split
  · rfl
  · split
    · rfl
    · split
      · split <;> rfl
      · rfl

/-- A directive asked for touches the directives of its unit, and the setpoint in waiting, alone. -/
theorem ask_unit (v : UnitNo) : ∃ l p, (s.ask u d).unit v = { s.unit v with link := l, pendingSetpoint := p } ∧
    l.current = (s.unit v).link.current := by
  have changed : ∀ f : UnitBlock → UnitBlock, (∀ b, ∃ l p, f b = { b with link := l, pendingSetpoint := p } ∧
      l.current = b.link.current) → ∃ l p, (s.modUnit u f).unit v = { s.unit v with link := l, pendingSetpoint := p } ∧
      l.current = (s.unit v).link.current := by
    intro f hf
    rw [unit_modUnit]
    split
    · next same => subst same; exact hf _
    · exact ⟨_, _, rfl, rfl⟩
  unfold State.ask
  dsimp only
  split
  · exact ⟨_, _, rfl, rfl⟩
  · split
    · exact changed
        (fun b => { b with link := { b.link with outstanding := some d, ackTimer := some s.supervision.ackTimeout } })
        fun b => ⟨_, _, rfl, rfl⟩
    · split
      · split
        · exact ⟨_, _, rfl, rfl⟩
        · exact changed _ fun b => ⟨_, _, rfl, rfl⟩
      · exact changed _ fun b => ⟨_, _, rfl, rfl⟩

end

/-! ## A setpoint set under a gate that is SPACING (R113, R114, R124) -/

/-- Only flows, curtailed flags, directives and the working values of units differ from the state before: records are otherwise the
same, units keep context, waterway and capability record, waterways their settings, inhibits and gates, and no event is raised. -/
structure State.SameButPower (s t : State) : Prop where
  order : ∀ k r, s.order? k = some r → ∃ c, t.order? k = some { r with curtailed := c }
  context : ∀ v, (t.unit v).context = (s.unit v).context
  home : ∀ v, (t.unit v).waterway = (s.unit v).waterway
  current : ∀ v, (t.unit v).link.current = (s.unit v).link.current
  waterway : ∀ w, ∃ q, t.waterway w = { s.waterway w with netFlow := q }
  latches : t.latches = s.latches
  named : t.named = s.named

namespace State.SameButPower

variable {s t v : State}

theorem refl (s : State) : s.SameButPower s :=
  ⟨fun _ r hr => ⟨r.curtailed, hr⟩, fun _ => rfl, fun _ => rfl, fun _ => rfl, fun _ => ⟨_, rfl⟩, rfl, rfl⟩

theorem trans (a : s.SameButPower t) (b : t.SameButPower v) : s.SameButPower v where
  order k r hr := by
    obtain ⟨c, hc⟩ := a.order k r hr
    obtain ⟨c', hc'⟩ := b.order k _ hc
    exact ⟨c', hc'⟩
  context u := (b.context u).trans (a.context u)
  home u := (b.home u).trans (a.home u)
  current u := (b.current u).trans (a.current u)
  waterway w := by
    obtain ⟨q, hq⟩ := a.waterway w
    obtain ⟨q', hq'⟩ := b.waterway w
    exact ⟨q', by rw [hq', hq]⟩
  latches := b.latches.trans a.latches
  named := b.named.trans a.named

/-- A gate that is SPACING stays so, and the inhibits of its waterway stand. -/
theorem water (a : s.SameButPower t) (w : WaterwayNo) :
    (t.waterway w).spacing = (s.waterway w).spacing ∧ ∀ m, (t.waterway w).inhibits m = (s.waterway w).inhibits m := by
  obtain ⟨q, e⟩ := a.waterway w
  rw [e]
  exact ⟨rfl, fun m => by cases m <;> rfl⟩

theorem spaced (a : s.SameButPower t) {u : UnitNo} (h : (s.waterway (s.unit u).waterway).spacing.isSome = true) :
    (t.waterway (t.unit u).waterway).spacing.isSome = true := by
  rw [a.home, (a.water _).1, h]

/-- A unit written in its setpoint, ceiling and setpoint in waiting. -/
theorem modUnit (u : UnitNo) {f : UnitBlock → UnitBlock}
    (values : ∀ b, (f b).context = b.context ∧ (f b).waterway = b.waterway ∧ (f b).link = b.link) :
    s.SameButPower (s.modUnit u f) := by
  have unit : ∀ v, ((s.modUnit u f).unit v).context = (s.unit v).context ∧
      ((s.modUnit u f).unit v).waterway = (s.unit v).waterway ∧ ((s.modUnit u f).unit v).link = (s.unit v).link := by
    intro v
    rw [unit_modUnit]
    split
    · next same => subst same; exact values _
    · exact ⟨rfl, rfl, rfl⟩
  exact ⟨fun _ r hr => ⟨r.curtailed, hr⟩, fun v => (unit v).1, fun v => (unit v).2.1, fun v => by rw [(unit v).2.2],
    fun _ => ⟨_, rfl⟩, rfl, rfl⟩

theorem clearCurtailed (s : State) (u : UnitNo) (p : Nat) : s.SameButPower (s.clearCurtailed u p) := by
  unfold State.clearCurtailed
  split
  · next h r _ =>
    split
    · refine ⟨fun k q hq => ?_, fun _ => by simp, fun _ => by simp, fun _ => by simp, fun _ => ⟨_, by simp; rfl⟩, by simp, by simp⟩
      rw [order?_modOrder]
      split
      · next same => subst same; exact ⟨false, by rw [hq]; rfl⟩
      · exact ⟨q.curtailed, hq⟩
    · exact refl s
  · exact refl s

theorem recompute {u : UnitNo} (spaced : (s.waterway (s.unit u).waterway).spacing.isSome = true) :
    s.SameButPower (s.recompute u) := by
  have same := sameButFlow_recompute spaced
  have unit : ∀ v, ∃ q sat, (s.recompute u).unit v = { s.unit v with contribution := q, saturated := sat } := same.unit
  refine ⟨fun k r hr => ⟨r.curtailed, (same.order k).trans hr⟩, fun v => ?_, fun v => ?_, fun v => ?_, same.waterway, same.latches,
    (kept_clock fun _ _ _ l => l = s.named).recompute u rfl⟩
  all_goals obtain ⟨q, sat, e⟩ := unit v; rw [e]

theorem ask (s : State) (u : UnitNo) (d : Directive) : s.SameButPower (s.ask u d) := by
  refine ⟨fun k r hr => ⟨r.curtailed, by rw [ask_frame]; exact hr⟩, fun v => ?_, fun v => ?_, fun v => ?_,
    fun w => ⟨_, by rw [ask_frame]; rfl⟩, by rw [ask_frame], by rw [ask_frame]⟩
  all_goals obtain ⟨l, p, e, c⟩ := ask_unit s u d v; rw [e]
  exact c

end State.SameButPower

/-- A setpoint set under a gate that is SPACING (R113, R124): it stands in its unit, and no order and no gate takes part. -/
theorem commitSetpoint_spaced {s : State} {u : UnitNo} (p : Nat)
    (spaced : (s.waterway (s.unit u).waterway).spacing.isSome = true) :
    s.SameButPower (s.commitSetpoint u p) ∧ ((s.commitSetpoint u p).unit u).setpoint = some p := by
  let set := s.modUnit u fun b => { b with setpoint := some p }
  have written : s.SameButPower set := .modUnit u fun b => ⟨rfl, rfl, rfl⟩
  have cleared : s.SameButPower (set.clearCurtailed u p) := written.trans (.clearCurtailed set u p)
  have fresh := sameButFlow_recompute (cleared.spaced spaced)
  refine ⟨(cleared.trans (.recompute (cleared.spaced spaced))).trans (.ask _ u (.setPower p)), ?_⟩
  have stands : ((set.clearCurtailed u p).unit u).setpoint = some p := by
    unfold State.clearCurtailed
    split
    · split <;> simp [set]
    · simp [set]
  obtain ⟨l, n, asked, -⟩ := ask_unit ((set.clearCurtailed u p).recompute u) u (.setPower p) u
  obtain ⟨q, sat, recomputed⟩ := fresh.unit u
  show (State.unit (((set.clearCurtailed u p).recompute u).ask u (.setPower p)) u).setpoint = _
  rw [asked, recomputed]
  exact stands

/-! ## A stop begun for a RUNNING order, under a gate that is SPACING (R75, R76) -/

section
variable {s : State} {h : Handle} {r : Order}

/-- The stop of a RUNNING order that no other leg defers takes effect at once, by Table 4-3 (R75, R81). -/
theorem beginStop_running (hr : s.order? h = some r) (running : r.life = .running) (single : r.partner = none)
    (last : r.successor = none) (c : DoneCause) : s.beginStop h c = s.stopEffect h r c := by
  have free : s.deferringLeg r = none := by
    unfold State.deferringLeg; rw [single]; cases r.mode <;> rfl
  have quiet : stopTasks r = [] := by
    unfold stopTasks; rw [single, last]; cases r.mode <;> rfl
  unfold State.beginStop State.stopNow
  rw [hr]
  dsimp only
  rw [if_pos (by simp [running]), free, quiet, running]
  dsimp only
  rw [List.append_nil]

/-- The stop of a single RUNNING GENERATE order above Pmin: it unloads, and its setpoint stands (R76, Table 4-3). -/
theorem beginStop_unloads {p : Nat} {x : Capability} (hr : s.order? h = some r) (running : r.life = .running)
    (generate : r.mode = .generate) (single : r.partner = none) (last : r.successor = none) (named : h ∈ s.named)
    (spaced : (s.waterway (s.unit r.unit).waterway).spacing.isSome = true) (setpoint : (s.unit r.unit).setpoint = some p)
    (record : (s.unit r.unit).link.current = some x) (above : x.pmin < p) (c : DoneCause) :
    (s.beginStop h c).finish.order? h = some { r with life := .stopping .unloading c } ∧
    (s.beginStop h c).finish.latches = s.latches ∧ ((s.beginStop h c).finish.unit r.unit).setpoint = some p := by
  let left := s.modOrder h fun r => { r with life := .stopping .unloading c }
  have same : left.SameButFlow (left.recompute r.unit) := sameButFlow_recompute (by simpa [left] using spaced)
  have loaded : (left.recompute r.unit).atPmin r.unit = false := by
    rw [same.atPmin]
    exact atPmin_of_above (by simpa [left] using setpoint) (by simpa [left] using record) above
  have result : (s.beginStop h c).finish = left.recompute r.unit := by
    rw [beginStop_running hr running single last]
    unfold State.stopEffect
    rw [running]
    dsimp only
    rw [enter_named named, if_pos generate, if_pos generate, if_neg (by rw [Bool.not_eq_true]; exact loaded)]
    exact finish_nil _
  rw [result]
  refine ⟨?_, ?_, ?_⟩
  · rw [same.order]; simp [left, hr]
  · rw [same.latches]; simp [left]
  · obtain ⟨q, sat, e⟩ := same.unit r.unit
    rw [e]
    simpa [left] using setpoint

/-- The stop of any other single RUNNING order: its STOP entry waits at the gate (R76, Table 4-3). -/
theorem beginStop_awaitsGate (hr : s.order? h = some r) (running : r.life = .running) (other : r.mode ≠ .generate)
    (single : r.partner = none) (last : r.successor = none) (named : h ∈ s.named)
    (spaced : (s.waterway (s.unit r.unit).waterway).spacing.isSome = true) (c : DoneCause) :
    (s.beginStop h c).finish.order? h = some { r with life := .stopping .awaitingGate c } ∧
    (s.beginStop h c).finish.latches = s.latches ∧
    ∃ e ∈ ((s.beginStop h c).finish.waterway (s.unit r.unit).waterway).queue, e.handle = h ∧ e.unit = r.unit ∧ e.kind = .stop := by
  let left := s.modOrder h fun r => { r with life := .stopping .awaitingGate c }
  have spaced' : (left.waterway (left.unit r.unit).waterway).spacing.isSome = true := by simpa [left] using spaced
  have same : left.SameButPower (left.recompute r.unit) := .recompute spaced'
  have order := (sameButFlow_recompute spaced').order h
  have home : ((left.recompute r.unit).unit r.unit).waterway = (s.unit r.unit).waterway := by
    rw [same.home]; simp [left]
  have result : (s.beginStop h c).finish = (left.recompute r.unit).joinGate h r .stop := by
    rw [beginStop_running hr running single last]
    unfold State.stopEffect
    rw [running]
    dsimp only
    rw [enter_named named, if_neg other, if_neg other]
    exact finish_nil _
  obtain ⟨e, joined, handle, kind, unit⟩ := exists_mem_joinGate (same.spaced spaced') h .stop
  rw [result]
  rw [home] at joined
  refine ⟨?_, ?_, e, joined, handle, unit, kind⟩
  · rw [joinGate_spaced (same.spaced spaced'), modWaterway_order?, order]; simp [left, hr]
  · rw [joinGate_spaced (same.spaced spaced'), modWaterway_latches, same.latches]; simp [left]

end

end Sys2Proof.Machine
end

section
/-! # PLACE of an order whose start has come (R52, R53, R161) -/

namespace Sys2Proof.Machine

/-! ## The order in the table, before its start arrives or its machine is adopted -/

/-- The order stands under its handle as the one change of the table, in the state of a request that names it alone. -/
structure State.Entered (s a : State) (h : Handle) (r : Order) : Prop where
  record : a.order? h = some r
  others : ∀ k, k ≠ h → a.order? k = s.order? k
  unit : ∀ v, ∃ sat, a.unit v = { s.unit v with saturated := sat }
  waterway : ∀ w, a.waterway w = s.waterway w
  latches : a.latches = s.taken.latches
  plantTime : a.plantTime = s.plantTime
  named : h ∈ a.named

theorem entered_placed {s : State} {o : Offer} (k : SlotNo) (bytes : List Byte) (life : Life)
    (noBefore : s.linkBefore (s.candidate o false) = none) (noAfter : s.linkAfter (s.candidate o false) = none) :
    s.Entered ((s.frameEnded bytes).placed k o life) (handleOf k (s.slot k).generation) (s.newRecord o life) := by
  have table := order?_placed (s.frameEnded bytes) k o life
  simp only [frameEnded_linkBefore, frameEnded_linkAfter, frameEnded_candidate, noBefore, noAfter, frameEnded_slot,
    frameEnded_newRecord, frameEnded_order?] at table
  refine ⟨?_, fun h ne => ?_, fun v => ?_, fun w => ?_, ?_, ?_, ?_⟩
  · rw [table, if_pos rfl]; simp
  · rw [table, if_neg ne]; simp
  · exact ⟨_, by rw [unit_placed, frameEnded_unit]⟩
  · rw [placed_frame]; exact frameEnded_waterway s bytes w
  · rw [placed_taken]
  · rw [placed_frame]; exact frameEnded_plantTime s bytes
  · rw [placed_frame]; simp

section
variable {s a : State} {h : Handle} {r : Order}

/-- What of a unit does not depend on its indication (R32). -/
theorem State.Entered.unit_values (e : s.Entered a h r) (v : UnitNo) :
    (a.unit v).context = (s.unit v).context ∧ (a.unit v).isolated = (s.unit v).isolated ∧
      (a.unit v).waterway = (s.unit v).waterway ∧ (a.unit v).link = (s.unit v).link := by
  obtain ⟨sat, same⟩ := e.unit v
  rw [same]
  exact ⟨rfl, rfl, rfl, rfl⟩

theorem State.Entered.spaced (e : s.Entered a h r) {v : UnitNo} (spaced : (s.waterway (s.unit v).waterway).spacing.isSome = true) :
    (a.waterway (a.unit v).waterway).spacing.isSome = true := by
  rw [(e.unit_values v).2.2.1, e.waterway, spaced]

end

/-! ## What an admitted offer has passed -/

section
variable {s : State} {o : Offer}

theorem placed_available (judged : s.judgePlace o = none) : s.check2 o.unit = true :=
  holds_of_unlessHolds (r := .unitUnavailable) (passes_of_firstFailure judged (by simp))

theorem placed_targetRight (judged : s.judgePlace o = none) : s.check4 o.unit o.mode o.target = true :=
  holds_of_unlessHolds (r := .targetRange) (passes_of_firstFailure judged (by simp))

/-- The end of an admitted order whose start has come lies ahead (R45). -/
theorem placed_endAhead (judged : s.judgePlace o = none) (come : o.start ≤ s.plantTime) :
    endReached o.finish s.plantTime = false := by
  have ends := placed_endsAfter judged
  rw [State.fixStart, max_eq_right come] at ends
  rw [← Bool.not_eq_true, endReached_iff, not_not]
  exact ends

/-- An admitted order's machine is not adopted while its unit is no ORPHAN (R53). -/
theorem adopts_orphan (other : (s.unit o.unit).context ≠ .orphan) : s.adopts o = false := by
  simp [State.adopts, other]

theorem adopts_eq (orphan : (s.unit o.unit).context = .orphan) (come : o.start ≤ s.plantTime) {p : Report}
    (report : (s.unit o.unit).link.lastReport = some p) (adoptable : MachineState.adoptableAs p.state = some o.mode) :
    s.adopts o = true := by
  simp [State.adopts, orphan, come, report, adoptable]

end

/-! ## The start arrives at once (R52, R64 to R66) -/

section
variable {s : State} {k : SlotNo} {o : Offer} {bytes : List Byte} (judged : s.judgePlace o = none)
  (come : o.start ≤ s.plantTime) (noBefore : s.linkBefore (s.candidate o false) = none)
  (noAfter : s.linkAfter (s.candidate o false) = none)
include judged come noBefore noAfter

/-- The order's start arrives: it is DUE, the engagement test of its unit is made, and no lateness test fails it (R52, R64, R65). -/
theorem afterPlace_arrives (other : (s.unit o.unit).context ≠ .orphan) : ∃ a : State,
    s.Entered a (handleOf k (s.slot k).generation) { s.newRecord o .held with life := .due } ∧
    ∀ t : State, a.engageFirst o.unit = t →
      t.latenessTest (handleOf k (s.slot k).generation) = (t, []) → s.afterPlace bytes k o = t := by
  have e := entered_placed k bytes .held noBefore noAfter
  have now : s.fixStart o.start = ((s.frameEnded bytes).placed k o .held).plantTime := by
    rw [e.plantTime, State.fixStart, max_eq_right come]
  have notIsolated := (e.unit_values o.unit).2.1.trans (check2_iff.1 (placed_available judged)).2
  refine ⟨((s.frameEnded bytes).placed k o .held).modOrder (handleOf k (s.slot k).generation) fun r => { r with life := .due },
    ⟨by simp [e.record], fun h ne => by simp [ne, e.others h ne], fun v => by rw [modOrder_unit]; exact e.unit v,
      fun w => by rw [modOrder_waterway, e.waterway], by rw [modOrder_latches, e.latches],
      by rw [modOrder_frame]; exact e.plantTime, by rw [modOrder_named]; exact e.named⟩, fun t test passes => ?_⟩
  rw [State.afterPlace, adopts_orphan other, if_neg (by decide), State.arriveIfNow, if_pos now]
  exact startArrival_finish e.record rfl e.named notIsolated test passes

/-- While its unit is not IDLE the order is DUE at once (R52, R65). -/
theorem place_due (patient : o.tolerance = none)
    (busy : (s.unit o.unit).context = .engaged ∨ (s.unit o.unit).context = .recovering) :
    (s.afterPlace bytes k o).order? (handleOf k (s.slot k).generation) = some { s.newRecord o .held with life := .due } ∧
    (s.afterPlace bytes k o).latches = s.taken.latches := by
  obtain ⟨a, e, arrives⟩ := afterPlace_arrives (k := k) (bytes := bytes) judged come noBefore noAfter
    (by rcases busy with c | c <;> rw [c] <;> decide)
  have test : a.engageFirst o.unit = a := engageFirst_busy (by
    rw [(e.unit_values _).1]
    rcases busy with c | c <;> rw [c] <;> decide)
  rw [arrives a test (latenessTest_passes e.record fun _ => by
    rw [e.plantTime]
    exact ⟨by simp [State.newRecord, patient, latenessReached], placed_endAhead judged come⟩)]
  exact ⟨e.record, e.latches⟩

/-- On an IDLE unit a GENERATE or CONDENSE_G order waits at once, with a START entry, at a gate that is SPACING (R52, R65, R66). -/
theorem place_starts (idle : (s.unit o.unit).context = .idle)
    (noDue : ∀ h r, s.order? h = some r → r.unit = o.unit → r.life ≠ .due)
    (generating : o.mode = .generate ∨ o.mode = .condenseG)
    (spaced : (s.waterway (s.unit o.unit).waterway).spacing.isSome = true) :
    (s.afterPlace bytes k o).order? (handleOf k (s.slot k).generation) =
      some { s.newRecord o .held with life := .starting .awaitingGate } ∧
    ((s.afterPlace bytes k o).unit o.unit).context = .engaged ∧
    ∃ e ∈ ((s.afterPlace bytes k o).waterway (s.unit o.unit).waterway).queue,
      e.handle = handleOf k (s.slot k).generation ∧ e.unit = o.unit ∧ e.kind = .start ∧ e.cls = o.cls := by
  obtain ⟨a, e, arrives⟩ := afterPlace_arrives (k := k) (bytes := bytes) judged come noBefore noAfter (by rw [idle]; decide)
  have only : ∀ j q, a.order? j = some q → q.unit = o.unit → q.life = .due → j = handleOf k (s.slot k).generation := by
    intro j q hq hu hd
    by_contra ne
    exact noDue j q ((e.others j ne).symm.trans hq) hu hd
  have test := engageFirst_single (u := o.unit) ((e.unit_values _).1.trans idle) e.record rfl rfl
    (by rw [e.plantTime]; exact placed_endAhead judged come) only
  obtain ⟨started, context, entry⟩ := engage_awaitsGate e.record rfl generating e.named (e.spaced spaced)
  change ∃ x ∈ (State.waterway _ (a.unit o.unit).waterway).queue, _ at entry
  rw [(e.unit_values _).2.2.1] at entry
  rw [arrives _ test (latenessTest_passes started fun h => by cases h)]
  exact ⟨started, context, entry⟩

end

/-! ## The machine of an ORPHAN is adopted (R53, R161) -/

/-- The unit is ENGAGED, with the adopted setpoint of a GENERATE order: the adoption before its inhibit is looked at (R53). -/
def State.takenOver (s : State) (o : Offer) : State :=
  if o.mode = .generate then
    ((s.setContext o.unit .engaged).modUnit o.unit fun b => { b with ceiling := none }).commitSetpoint o.unit
      ((s.setContext o.unit .engaged).adoptedSetpoint o.unit o.target)
  else (s.setContext o.unit .engaged).recompute o.unit

theorem adopt_eq (s : State) (h : Handle) (o : Offer) :
    s.adopt h o =
      if ((s.takenOver o).waterway ((s.takenOver o).unit o.unit).waterway).inhibits o.mode then
        ((s.takenOver o).beginStop h .limit).finish
      else s.takenOver o := rfl

/-- The adopted setpoint is the measured power, brought within Pmin and a target that is not below it (R53). -/
theorem adoptedSetpoint_eq {s : State} {u : UnitNo} {target : Nat} {p : Report} {c : Capability}
    (report : (s.unit u).link.lastReport = some p) (record : (s.unit u).link.current = some c) (right : c.pmin ≤ target) :
    s.adoptedSetpoint u target = max c.pmin (min target p.power.toNat) := by
  unfold State.adoptedSetpoint State.capTime
  rw [report, record]
  simp only [Option.map_some, Option.getD_some]
  split
  · omega
  · split <;> omega

theorem adoptedSetpoint_congr {s t : State} {u : UnitNo} (link : (t.unit u).link = (s.unit u).link) (target : Nat) :
    t.adoptedSetpoint u target = s.adoptedSetpoint u target := by
  unfold State.adoptedSetpoint State.capTime; rw [link]

/-- An adoption under a gate that is SPACING, before its inhibit is looked at: the unit is ENGAGED, and a GENERATE order has the
measured power, brought within Pmin and target, as its setpoint (R53). -/
theorem takenOver_spaced {s a : State} {h : Handle} {r : Order} (e : s.Entered a h r) (o : Offer)
    (spaced : (s.waterway (s.unit o.unit).waterway).spacing.isSome = true) :
    (a.setContext o.unit .engaged).SameButPower (a.takenOver o) ∧
    (o.mode = .generate → ((a.takenOver o).unit o.unit).setpoint = some (s.adoptedSetpoint o.unit o.target)) := by
  have spaced' : ((a.setContext o.unit .engaged).waterway ((a.setContext o.unit .engaged).unit o.unit).waterway).spacing.isSome =
      true := by
    rw [setContext_engaged]; simpa using e.spaced spaced
  unfold State.takenOver
  split
  · have empty : (a.setContext o.unit .engaged).SameButPower
        ((a.setContext o.unit .engaged).modUnit o.unit fun b => { b with ceiling := none }) := .modUnit _ fun b => ⟨rfl, rfl, rfl⟩
    obtain ⟨same, setpoint⟩ := commitSetpoint_spaced ((a.setContext o.unit .engaged).adoptedSetpoint o.unit o.target)
      (empty.spaced spaced')
    refine ⟨empty.trans same, fun _ => setpoint.trans (congrArg some ?_)⟩
    refine adoptedSetpoint_congr ?_ _
    rw [setContext_engaged, unit_modUnit, if_pos rfl, (e.unit_values o.unit).2.2.2]
  · next other => exact ⟨.recompute spaced', fun generate => absurd generate other⟩

/-- The order is RUNNING since now on a unit that is ENGAGED, under a gate that is SPACING; a GENERATE order has the adopted setpoint. -/
structure State.TakesOver (s t : State) (h : Handle) (o : Offer) : Prop where
  record : ∃ c, t.order? h = some { s.newRecord o .running with curtailed := c }
  context : (t.unit o.unit).context = .engaged
  home : (t.unit o.unit).waterway = (s.unit o.unit).waterway
  current : (t.unit o.unit).link.current = (s.unit o.unit).link.current
  spaced : (t.waterway (s.unit o.unit).waterway).spacing.isSome = true
  inhibits : (t.waterway (s.unit o.unit).waterway).inhibits o.mode = (s.waterway (s.unit o.unit).waterway).inhibits o.mode
  latches : t.latches = s.taken.latches
  named : h ∈ t.named
  setpoint : o.mode = .generate → (t.unit o.unit).setpoint = some (s.adoptedSetpoint o.unit o.target)

section
variable {s : State} {k : SlotNo} {o : Offer} {bytes : List Byte}

section
variable (noBefore : s.linkBefore (s.candidate o false) = none)
  (noAfter : s.linkAfter (s.candidate o false) = none)
  (spaced : (s.waterway (s.unit o.unit).waterway).spacing.isSome = true)
include noBefore noAfter spaced

theorem takesOver_placed : s.TakesOver (((s.frameEnded bytes).placed k o .running).takenOver o)
    (handleOf k (s.slot k).generation) o := by
  have e := entered_placed k bytes .running noBefore noAfter
  obtain ⟨same, setpoint⟩ := takenOver_spaced e o spaced
  rw [setContext_engaged] at same
  refine ⟨same.order _ _ e.record, ?_, ?_, ?_, ?_, ?_, ?_, ?_, setpoint⟩
  · rw [same.context]; simp
  · rw [same.home]; simp
  · rw [same.current]; simp
  · rw [(same.water _).1, modUnit_waterway, e.waterway, spaced]
  · rw [(same.water _).2, modUnit_waterway, e.waterway]
  · rw [same.latches, modUnit_latches, e.latches]
  · rw [same.named]; exact e.named

/-- A machine adopted under no inhibit of the order's mode, and under one: then the stop of the order begins in the same event
(R53, R161). -/
theorem afterPlace_adopts (adopts : s.adopts o = true) : ∃ t, s.TakesOver t (handleOf k (s.slot k).generation) o ∧
    s.afterPlace bytes k o =
      if (s.waterway (s.unit o.unit).waterway).inhibits o.mode then (t.beginStop (handleOf k (s.slot k).generation) .limit).finish
      else t := by
  have taken := takesOver_placed (k := k) (bytes := bytes) noBefore noAfter spaced
  refine ⟨_, taken, ?_⟩
  rw [State.afterPlace, if_pos adopts, adopt_eq, taken.home, taken.inhibits]

end

/-- The stop of an adopted GENERATE order, which has a setpoint above Pmin: it unloads (R161, R76). -/
theorem State.TakesOver.unloads {t : State} {h : Handle} (taken : s.TakesOver t h o) (generate : o.mode = .generate) {c : Capability}
    (record : (s.unit o.unit).link.current = some c) (above : c.pmin < s.adoptedSetpoint o.unit o.target) : ∃ r,
      (t.beginStop h .limit).finish.order? h = some r ∧ r.life = .stopping .unloading .limit ∧
      r.actualStart = some s.plantTime ∧ r.unseen = false ∧ (t.beginStop h .limit).finish.latches = s.taken.latches ∧
      ((t.beginStop h .limit).finish.unit o.unit).setpoint = some (s.adoptedSetpoint o.unit o.target) := by
  obtain ⟨curtailed, found⟩ := taken.record
  obtain ⟨stopped, latches, setpoint⟩ := beginStop_unloads found rfl generate rfl rfl taken.named
    (by show (t.waterway (t.unit o.unit).waterway).spacing.isSome = true; rw [taken.home, taken.spaced]) (taken.setpoint generate)
    (taken.current.trans record) above .limit
  exact ⟨_, stopped, rfl, rfl, rfl, latches.trans taken.latches, setpoint⟩

/-- The stop of an adopted PUMP order: its STOP entry waits at the gate (R161, R76). -/
theorem State.TakesOver.awaitsGate {t : State} {h : Handle} (taken : s.TakesOver t h o) (pump : o.mode = .pump) : ∃ r,
      (t.beginStop h .limit).finish.order? h = some r ∧ r.life = .stopping .awaitingGate .limit ∧
      r.actualStart = some s.plantTime ∧ r.unseen = false ∧ (t.beginStop h .limit).finish.latches = s.taken.latches ∧
      ∃ e ∈ ((t.beginStop h .limit).finish.waterway (s.unit o.unit).waterway).queue,
        e.handle = h ∧ e.unit = o.unit ∧ e.kind = .stop := by
  obtain ⟨curtailed, found⟩ := taken.record
  obtain ⟨stopped, latches, entry⟩ := beginStop_awaitsGate found rfl (by simp [State.newRecord, pump]) rfl rfl taken.named
    (by show (t.waterway (t.unit o.unit).waterway).spacing.isSome = true; rw [taken.home, taken.spaced]) .limit
  have entry : ∃ e ∈ ((t.beginStop h .limit).finish.waterway (t.unit o.unit).waterway).queue,
      e.handle = h ∧ e.unit = o.unit ∧ e.kind = .stop := entry
  rw [taken.home] at entry
  exact ⟨_, stopped, rfl, rfl, rfl, latches.trans taken.latches, entry⟩

end

/-- Settles O33: the order enters the table as in O32, and then its start arrives, or its machine is adopted and its inhibit looked at. -/
theorem placeTakesEffectAtOnce : Obligations.PlaceTakesEffectAtOnce := by
  intro s tag body o k h mode length offered judged come free lowest handle noBefore noAfter patient
  subst handle
  have carried := exec_place_admitted (tag := tag) mode length offered judged free lowest
  have now : s.fixStart o.start = s.plantTime := max_eq_right come
  refine ⟨fun busy => ?_, fun idle noDue generating spaced => ?_, fun orphan spaced noPump noGen p report adoptable => ?_,
    fun orphan spaced p report adoptable => ?_⟩
  · obtain ⟨found, latches⟩ := place_due (k := k) (bytes := requestFrame 1 tag body) judged come noBefore noAfter patient busy
    exact ⟨_, _, carried, found, rfl, now, rfl, latches⟩
  · obtain ⟨found, context, entry⟩ :=
      place_starts (k := k) (bytes := requestFrame 1 tag body) judged come noBefore noAfter idle noDue generating spaced
    exact ⟨_, _, carried, found, rfl, context, entry⟩
  all_goals
    have adopts := adopts_eq orphan come report adoptable
    obtain ⟨t, taken, result⟩ :=
      afterPlace_adopts (k := k) (bytes := requestFrame 1 tag body) noBefore noAfter spaced adopts
    obtain ⟨curtailed, found⟩ := taken.record
  · have clear : (s.waterway (s.unit o.unit).waterway).inhibits o.mode = false := by
      cases o.mode <;> simp [Waterway.inhibits, noPump, noGen]
    rw [clear, if_neg (by decide)] at result
    refine ⟨_, _, carried, by rw [result]; exact found, rfl, rfl, now, by rw [result]; exact taken.context, ?_⟩
    intro c generate record
    have right := check4_iff.1 (placed_targetRight judged) generate
    rw [record] at right
    obtain ⟨_, same, low, -⟩ := right
    cases same
    rw [result, taken.setpoint generate, adoptedSetpoint_eq report record low]
  · refine ⟨fun c generate inhibited record target power => ?_, fun pump inhibited => ?_, fun condensing => ?_⟩
    · have setpoint : s.adoptedSetpoint o.unit o.target = min o.target p.power.toNat := by
        rw [adoptedSetpoint_eq report record target.le]; omega
      obtain ⟨r, stopped, life, start, unseen, latches, stands⟩ := taken.unloads generate record (by rw [setpoint]; omega)
      rw [generate, Waterway.inhibits, if_pos inhibited] at result
      rw [← result] at stopped latches stands
      exact ⟨_, r, carried, stopped, life, start, unseen, latches, by rw [stands, setpoint]⟩
    · obtain ⟨r, stopped, life, start, unseen, latches, entry⟩ := taken.awaitsGate pump
      rw [pump, Waterway.inhibits, if_pos inhibited] at result
      rw [← result] at stopped latches entry
      exact ⟨_, r, carried, stopped, life, start, unseen, latches, entry⟩
    · have clear : (s.waterway (s.unit o.unit).waterway).inhibits o.mode = false := by
        rcases condensing with m | m <;> rw [m] <;> rfl
      rw [clear, if_neg (by decide)] at result
      exact ⟨_, _, carried, by rw [result]; exact found, rfl, by rw [result]; exact taken.context⟩

end Sys2Proof.Machine
end

section
/-! # AMEND (R56 to R59, R114) -/

namespace Sys2Proof.Machine

/-! ## The request and its judgement (R56) -/

/-- The checks of an AMEND from check A3 on (Table 3-2). -/
def State.judgeAmend (s : State) (h : Handle) (r : Order) (a : Amendment) : Option Result :=
  firstFailure
    [unlessHolds (s.permitsAll r a) .wrongState, unlessHolds (!a.namesWindow || !s.isLinked h r) .linked,
     s.judgeAmended a (s.amendedLegs h r a)]

theorem amendOrder_eq (s : State) (h : Handle) (r : Order) (a : Amendment) :
    s.amendOrder h r a = match s.judgeAmend h r a with
      | some e => .refused e
      | none => .ok (s.carryAmend a h r) [] := by
  unfold State.amendOrder State.judgeAmend
  cases firstFailure _ <;> rfl

@[simp] theorem frameEnded_judgeAmend (s : State) (bytes : List Byte) (h : Handle) (r : Order) (a : Amendment) :
    (s.frameEnded bytes).judgeAmend h r a = s.judgeAmend h r a := by
  obtain ⟨l, p, o, e⟩ := frameEnded_fields s bytes; rw [e]; rfl

section
variable {s : State} {tag : Byte} {body : List Byte} {h : Handle} {r : Order} {a : Amendment}

theorem exec_amend (mode : s.mode = .dispatch) (length : body.length = 19) (named : h = field body 0 2) :
    exec (.amend tag body) s = .next (s.delivered 3 tag 24 ((s.frameEnded (requestFrame 3 tag body)).withOrder h fun r =>
      withField (amendmentOf r.mode body) fun a => (s.frameEnded (requestFrame 3 tag body)).amendOrder h r a)) := by
  have carried := exec_carried (c := .amend tag body) rfl (s := s) (by rw [mode]; rfl) length
  rw [length] at carried
  rw [named]
  exact carried

theorem exec_amend_stale (mode : s.mode = .dispatch) (length : body.length = 19) (named : h = field body 0 2)
    (stale : s.order? h = none) : exec (.amend tag body) s = .next (s.answered 3 tag 24 .noSuchOrder [] s.taken) := by
  rw [exec_amend mode length named, withOrder_none ((frameEnded_order? ..).trans stale)]
  rfl

variable (mode : s.mode = .dispatch) (length : body.length = 19) (named : h = field body 0 2) (hr : s.order? h = some r)
include mode length named hr

theorem exec_amend_badField (bad : amendmentOf r.mode body = none) :
    exec (.amend tag body) s = .next (s.answered 3 tag 24 .badField [] s.taken) := by
  rw [exec_amend mode length named, withOrder_some ((frameEnded_order? ..).trans hr), bad]
  rfl

/-- An AMEND that a check fails is refused with its result. -/
theorem exec_amend_refused (offered : amendmentOf r.mode body = some a) {v : Result} (judged : s.judgeAmend h r a = some v) :
    exec (.amend tag body) s = .next (s.answered 3 tag 24 v [] s.taken) := by
  rw [exec_amend mode length named, withOrder_some ((frameEnded_order? ..).trans hr), offered, withField, amendOrder_eq,
    frameEnded_judgeAmend, judged]
  rfl

/-- An AMEND that passes is carried out (R58). -/
theorem exec_amend_accepted (offered : amendmentOf r.mode body = some a) (judged : s.judgeAmend h r a = none) :
    exec (.amend tag body) s =
      .next (s.answered 3 tag 24 .ok [] ((s.frameEnded (requestFrame 3 tag body)).carryAmend a h r)) := by
  rw [exec_amend mode length named, withOrder_some ((frameEnded_order? ..).trans hr), offered, withField, amendOrder_eq,
    frameEnded_judgeAmend, judged]
  rfl

end

/-! ## Checks A3 and A4 (Table 3-2) -/

section
variable {s : State} {h : Handle} {r : Order} {a : Amendment}

/-- An order that is STOPPING or has ended permits no amendment. -/
theorem permitsAll_ended (ended : r.life.isStopping = true ∨ r.life.live = false) : s.permitsAll r a = false := by
  have none : r.life.permits a = false := by
    revert ended
    cases r.life <;> simp [Life.isStopping, Life.live, Life.engaged, Life.permits]
  unfold State.permitsAll
  rw [none, Bool.false_and]

theorem permitsAll_single (single : r.partner = none) : s.permitsAll r a = r.life.permits a := by
  unfold State.permitsAll; rw [single]; exact Bool.and_true _

/-- A record takes part in a link when it names a successor, or another record names it as one (R13). -/
theorem isLinked_iff :
    s.isLinked h r = true ↔ r.successor.isSome = true ∨ ∃ k q, s.order? k = some q ∧ q.successor = some h := by
  simp [State.isLinked, State.predecessors, mem_orders, imp_iff_not_or, not_or]

/-- An amendment that the states permit, of no link, is judged by its re-check alone. -/
theorem judgeAmend_eq (permits : s.permitsAll r a = true) (free : a.namesWindow = false ∨ s.isLinked h r = false) :
    s.judgeAmend h r a = s.judgeAmended a (s.amendedLegs h r a) := by
  have passes : (!a.namesWindow || !s.isLinked h r) = true := by rcases free with e | e <;> rw [e] <;> simp
  unfold State.judgeAmend
  rw [permits, passes, unlessHolds_true, unlessHolds_true, firstFailure_none, firstFailure_none]
  cases s.judgeAmended a (s.amendedLegs h r a) <;> rfl

theorem amendedLegs_single (single : r.partner = none) : s.amendedLegs h r a = [(h, r)] := by
  unfold State.amendedLegs; rw [single]

/-- An amendment names target and ramp of a GENERATE order alone (Table 12-6). -/
theorem amendmentOf_power {m : Mode} {body : List Byte} (offered : amendmentOf m body = some a) (other : m ≠ .generate) :
    a.target = none ∧ a.ramp = none := by
  unfold amendmentOf at offered
  dsimp only at offered
  split at offered
  · next right =>
    obtain ⟨-, -, -, target, ramp, -⟩ := right
    have noTarget : (byteAt body 2).getLsbD 3 = false := by
      rw [← Bool.not_eq_true]; exact fun set => other (target set).1
    have noRamp : (byteAt body 2).getLsbD 4 = false := by
      rw [← Bool.not_eq_true]; exact fun set => other (ramp set).1
    cases offered
    rw [noTarget, noRamp]
    exact ⟨rfl, rfl⟩
  · cases offered

end

/-! ## A record with its new values (R58) -/

/-- The record carries every value that the amendment names, and is otherwise the same but for its link and what follows from a new
target: its planned flow and its derated flag. -/
structure Order.AmendedTo (r : Order) (a : Amendment) (r' : Order) : Prop where
  life : r'.life = r.life
  unit : r'.unit = r.unit
  mode : r'.mode = r.mode
  unseen : r'.unseen = r.unseen
  pairSense : r'.pairSense = r.pairSense
  start : r'.start = a.start.getD r.start
  finish : r'.finish = a.finish.getD r.finish
  tolerance : r'.tolerance = a.tolerance.getD r.tolerance
  cls : r'.cls = a.cls.getD r.cls
  power : r.mode = .generate → r'.target = a.target.getD r.target ∧ r'.ramp = a.ramp.getD r.ramp
  noPower : r.mode ≠ .generate → r'.target = r.target ∧ r'.ramp = r.ramp ∧ r'.plannedFlow = r.plannedFlow

section
variable {s : State} {r r' : Order} {a : Amendment}

theorem Order.AmendedTo.link (e : r.AmendedTo a r') (x : Option Handle) : r.AmendedTo a { r' with successor := x } :=
  { e with }

/-- A record of which the amendment names nothing. -/
theorem Order.AmendedTo.untouched (shared : a.namesShared = false) (power : r.mode = .generate → a.target = none ∧ a.ramp = none)
    (x : Option Handle) : r.AmendedTo a { r with successor := x } := by
  obtain ⟨⟨⟨start, finish⟩, cls⟩, tolerance⟩ : ((a.start = none ∧ a.finish = none) ∧ a.cls = none) ∧ a.tolerance = none := by
    simpa [Amendment.namesShared, Amendment.namesWindow] using shared
  refine ⟨rfl, rfl, rfl, rfl, rfl, by rw [start]; rfl, by rw [finish]; rfl, by rw [tolerance]; rfl, by rw [cls]; rfl,
    fun generate => ?_, fun _ => ⟨rfl, rfl, rfl⟩⟩
  rw [(power generate).1, (power generate).2]
  exact ⟨rfl, rfl⟩

/-- The start named lies ahead, so that check 5 leaves it as it is (R45, R57). -/
theorem amendedStart_ahead (ahead : ∀ n, a.start = some n → s.plantTime < n) : s.amendedStart r a = a.start.getD r.start := by
  unfold State.amendedStart State.fixStart
  cases e : a.start with
  | none => rfl
  | some n => exact max_eq_left (ahead n e).le

theorem amendRecord_amendedTo (ahead : ∀ n, a.start = some n → s.plantTime < n) : r.AmendedTo a (s.amendRecord r a) := by
  have start := amendedStart_ahead (r := r) ahead
  unfold State.amendRecord
  dsimp only
  split
  · next generate => exact ⟨rfl, rfl, rfl, rfl, rfl, start, rfl, rfl, rfl, fun _ => ⟨rfl, rfl⟩, fun other => absurd generate other⟩
  · next other => exact ⟨rfl, rfl, rfl, rfl, rfl, start, rfl, rfl, rfl, fun generate => absurd generate other, fun _ => ⟨rfl, rfl, rfl⟩⟩

/-- A new target of a GENERATE order gives it a new planned flow (R58). -/
theorem amendRecord_plannedFlow {n : Nat} (generate : r.mode = .generate) (target : a.target = some n) (new : n ≠ r.target) :
    (s.amendRecord r a).plannedFlow = s.flowOf r.unit .generate n := by
  have changes : a.changesTarget r = true := by simp [Amendment.changesTarget, target, new]
  unfold State.amendRecord
  rw [changes, target]
  simp [generate]

end

/-! ## A record written with its new values and its links (R58) -/

section
variable (s : State) (a : Amendment) (p : Handle × Order)

/-- A written amendment changes the table and the units alone. -/
theorem writeAmended_frame : s.writeAmended a p =
    { s with slots := (s.writeAmended a p).slots, units := (s.writeAmended a p).units } := by
  unfold State.writeAmended
  dsimp only
  rw [writeLinks_frame, modOrder_frame]
  split
  · rw [markSaturated_frame]
  · rfl

/-- A written amendment touches the indication of a unit alone (R32). -/
theorem unit_writeAmended (v : UnitNo) : ∃ sat, (s.writeAmended a p).unit v = { s.unit v with saturated := sat } := by
  unfold State.writeAmended
  dsimp only
  rw [writeLinks_frame]
  show ∃ sat, State.unit (State.modOrder _ _ _) v = _
  rw [modOrder_unit]
  split
  · exact ⟨_, unit_markSaturated ..⟩
  · exact ⟨_, rfl⟩

/-- What a handle names once an amendment is written. -/
theorem order?_writeAmended (k : Handle) : ∃ link : Order → Option Handle, (s.writeAmended a p).order? k =
    (if k = p.1 then (s.order? p.1).map fun _ => s.amendRecord p.2 a else s.order? k).map fun r =>
      { r with successor := link r } := by
  unfold State.writeAmended
  dsimp only
  rw [order?_writeLinks, order?_modOrder]
  have table : ∀ j, (if a.changesTarget p.2 then
      s.markSaturated (s.amendRecord p.2 a).unit (s.flowSaturates (s.amendRecord p.2 a).unit (s.amendRecord p.2 a).mode
        (s.amendRecord p.2 a).target) else s).order? j = s.order? j := fun j => by
    split
    · rw [markSaturated_frame]; rfl
    · rfl
  rw [table, table]
  exact ⟨_, rfl⟩

end

section
variable {s : State} {a : Amendment} {h : Handle} {r : Order}

theorem order?_writeAmended_self (hr : s.order? h = some r) :
    ∃ x, (s.writeAmended a (h, r)).order? h = some { s.amendRecord r a with successor := x } := by
  obtain ⟨link, e⟩ := order?_writeAmended s a (h, r) h
  exact ⟨_, by rw [e, if_pos rfl, hr]; rfl⟩

theorem order?_writeAmended_other {p : Handle × Order} (hr : s.order? h = some r) (other : h ≠ p.1) :
    ∃ x, (s.writeAmended a p).order? h = some { r with successor := x } := by
  obtain ⟨link, e⟩ := order?_writeAmended s a p h
  exact ⟨_, by rw [e, if_neg other, hr]; rfl⟩

/-! ## An amendment carried out (R58, R59) -/

/-- The records with their new values, before the setpoint is lowered and anything arrives. -/
def State.amendWritten (s : State) (a : Amendment) (h : Handle) (r : Order) : State :=
  (s.amendedLegs h r a).foldl (fun s p => s.writeAmended a p) { s with named := h :: r.partner.toList }

/-- Where no amended window delivers an arrival at once, an amendment is its records written and its setpoint lowered. -/
theorem carryAmend_eq {t : State} (written : (if a.target.isSome then (s.amendWritten a h r).lowerToTarget h
      else s.amendWritten a h r) = t)
    (still : ∀ p ∈ s.amendedLegs h r a, ∀ n, State.amendedArrival a { t with picks := n } p.1 = { t with picks := n }) :
    ∃ n, s.carryAmend a h r = { t with picks := n } := by
  obtain ⟨perm, picks⟩ := inFreeOrder_spec t ((s.amendedLegs h r a).map (·.1))
  have rest : ∀ hs : List Handle, (∀ k ∈ hs, k ∈ (s.amendedLegs h r a).map (·.1)) → ∀ n,
      hs.foldl (State.amendedArrival a) { t with picks := n } = { t with picks := n } := by
    intro hs
    induction hs with
    | nil => exact fun _ _ => rfl
    | cons k hs ih =>
      intro mem n
      obtain ⟨p, listed, rfl⟩ := List.mem_map.1 (mem k List.mem_cons_self)
      rw [List.foldl_cons, still p listed n]
      exact ih (fun j hj => mem j (List.mem_cons_of_mem _ hj)) n
  have carried : s.carryAmend a h r =
      (t.inFreeOrder ((s.amendedLegs h r a).map (·.1))).1.foldl (State.amendedArrival a)
        (t.inFreeOrder ((s.amendedLegs h r a).map (·.1))).2 := by
    rw [← written]; rfl
  rw [carried, picks, rest _ (fun k hk => perm.mem_iff.1 hk)]
  exact ⟨_, rfl⟩

theorem lowerToTarget_notRunning (hr : s.order? h = some r) (other : r.life ≠ .running) : s.lowerToTarget h = s := by
  unfold State.lowerToTarget
  rw [hr]
  dsimp only
  rw [if_neg fun e => other e.1]

/-- No arrival for a HELD record whose new start lies ahead (R58). -/
theorem amendedArrival_held (hr : s.order? h = some r) (held : r.life = .held)
    (ahead : a.start.isSome = true → r.start ≠ s.plantTime) : State.amendedArrival a s h = s := by
  unfold State.amendedArrival
  rw [hr]
  dsimp only
  rw [if_pos held, if_neg fun e => ahead e.1 e.2]

/-- No arrival for a record that is not HELD while its end is not amended (R58). -/
theorem amendedArrival_engaged (hr : s.order? h = some r) (engaged : r.life ≠ .held) (finish : a.finish = none) :
    State.amendedArrival a s h = s := by
  unfold State.amendedArrival
  rw [hr]
  dsimp only
  rw [if_neg engaged, finish, if_neg (by simp)]

/-- An amendment of HELD records whose new start lies ahead is its records written (R58). -/
theorem carryAmend_held (own : h ∈ (s.amendedLegs h r a).map (·.1)) (ahead : ∀ n, a.start = some n → s.plantTime < n)
    (now : (s.amendWritten a h r).plantTime = s.plantTime)
    (written : ∀ p ∈ s.amendedLegs h r a, ∃ r', (s.amendWritten a h r).order? p.1 = some r' ∧ p.2.AmendedTo a r' ∧
      p.2.life = .held) :
    ∃ n, s.carryAmend a h r = { s.amendWritten a h r with picks := n } := by
  refine carryAmend_eq ?_ fun p listed n => ?_
  · obtain ⟨p, listed, same⟩ := List.mem_map.1 own
    obtain ⟨r', found, amended, held⟩ := written p listed
    rw [same] at found
    rw [lowerToTarget_notRunning found (by rw [amended.life, held]; decide), ite_self]
  · obtain ⟨r', found, amended, held⟩ := written p listed
    refine amendedArrival_held (r := r') found (amended.life.trans held) fun named => ?_
    obtain ⟨m, new⟩ := Option.isSome_iff_exists.1 named
    rw [amended.start, new]
    show m ≠ (s.amendWritten a h r).plantTime
    rw [now]
    exact (ahead m new).ne'

end

end Sys2Proof.Machine
end

section
/-! # The outcomes of AMEND (R56 to R59, R114) -/

namespace Sys2Proof.Machine

/-! ## Records written -/

section
variable {s : State} {a : Amendment} {h : Handle} {r : Order}

/-- Records written change the table, the units and the named handles alone. -/
theorem amendWritten_frame (s : State) (a : Amendment) (h : Handle) (r : Order) :
    s.amendWritten a h r =
      { s with
        slots := (s.amendWritten a h r).slots, units := (s.amendWritten a h r).units, named := h :: r.partner.toList } := by
  have all : ∀ (legs : List (Handle × Order)) (s : State), legs.foldl (fun s p => s.writeAmended a p) s =
      { s with
        slots := (legs.foldl (fun s p => s.writeAmended a p) s).slots
        units := (legs.foldl (fun s p => s.writeAmended a p) s).units } := by
    intro legs
    induction legs with
    | nil => exact fun _ => rfl
    | cons p legs ih =>
      intro s
      rw [List.foldl_cons, ih, writeAmended_frame s]
  unfold State.amendWritten
  rw [all]

theorem plantTime_amendWritten : (s.amendWritten a h r).plantTime = s.plantTime := by rw [amendWritten_frame]

/-- A single record is written alone. -/
theorem amendWritten_single (single : r.partner = none) :
    s.amendWritten a h r = ({ s with named := h :: r.partner.toList } : State).writeAmended a (h, r) := by
  unfold State.amendWritten; rw [amendedLegs_single single]; rfl

theorem order?_amendWritten_single (hr : s.order? h = some r) (single : r.partner = none) :
    ∃ x, (s.amendWritten a h r).order? h = some { s.amendRecord r a with successor := x } := by
  rw [amendWritten_single single]
  exact order?_writeAmended_self (s := { s with named := h :: r.partner.toList }) hr

/-- The legs of a pair are amended together where the amendment names a field they share, the PUMP leg first, and otherwise the
named leg alone (R59). -/
theorem amendedLegs_pair {k g : Handle} {r q x : Order} (pair : s.IsPair k g r q) (leg : h = k ∨ h = g) (hx : s.order? h = some x) :
    s.amendedLegs h x a = if a.namesShared = true then [(k, r), (g, q)] else [(h, x)] := by
  unfold State.amendedLegs
  rcases leg with rfl | rfl
  · cases pair.pumpLeg.symm.trans hx
    simp [pair.pumpPartner, pair.genLeg, pair.pumpMode]
  · cases pair.genLeg.symm.trans hx
    simp [pair.genPartner, pair.pumpLeg, pair.genMode]

/-- Both legs of a pair have the values named, the GENERATE leg alone those of target and ramp (R59). -/
theorem amendWritten_pair {k g : Handle} {r q x : Order} (pair : s.IsPair k g r q) (leg : h = k ∨ h = g)
    (hx : s.order? h = some x) (ahead : ∀ n, a.start = some n → s.plantTime < n)
    (pumpNone : x.mode ≠ .generate → a.target = none ∧ a.ramp = none) :
    ∃ r' q', (s.amendWritten a h x).order? k = some r' ∧ (s.amendWritten a h x).order? g = some q' ∧
      r.AmendedTo a r' ∧ q.AmendedTo a q' := by
  let start : State := { s with named := h :: x.partner.toList }
  have pumpLeg : start.order? k = some r := pair.pumpLeg
  have genLeg : start.order? g = some q := pair.genLeg
  have apart := pair.distinct
  have legs := amendedLegs_pair (a := a) pair leg hx
  unfold State.amendWritten
  rw [legs]
  cases shared : a.namesShared
  · rw [if_neg (by decide)]
    show ∃ r' q', (start.writeAmended a (h, x)).order? k = some r' ∧ (start.writeAmended a (h, x)).order? g = some q' ∧ _
    rcases leg with rfl | rfl
    · cases pumpLeg.symm.trans hx
      obtain ⟨u, found⟩ := order?_writeAmended_self (a := a) pumpLeg
      obtain ⟨v, other⟩ := order?_writeAmended_other (a := a) (p := (h, r)) genLeg apart.symm
      exact ⟨_, _, found, other, (amendRecord_amendedTo (s := start) ahead).link u,
        .untouched shared (fun _ => pumpNone (by rw [pair.pumpMode]; decide)) v⟩
    · cases genLeg.symm.trans hx
      obtain ⟨u, found⟩ := order?_writeAmended_self (a := a) genLeg
      obtain ⟨v, other⟩ := order?_writeAmended_other (a := a) (p := (h, q)) pumpLeg apart
      exact ⟨_, _, other, found, .untouched shared (fun generate => by rw [pair.pumpMode] at generate; cases generate) v,
        (amendRecord_amendedTo (s := start) ahead).link u⟩
  · rw [if_pos rfl]
    show ∃ r' q', ((start.writeAmended a (k, r)).writeAmended a (g, q)).order? k = some r' ∧
      ((start.writeAmended a (k, r)).writeAmended a (g, q)).order? g = some q' ∧ _
    obtain ⟨u, first⟩ := order?_writeAmended_self (a := a) pumpLeg
    obtain ⟨v, waits⟩ := order?_writeAmended_other (a := a) (p := (k, r)) genLeg apart.symm
    obtain ⟨x, found⟩ := order?_writeAmended_other (s := start.writeAmended a (k, r)) (a := a) (p := (g, q)) first apart
    obtain ⟨link, second⟩ := order?_writeAmended (start.writeAmended a (k, r)) a (g, q) g
    rw [if_pos rfl, waits] at second
    have now : (start.writeAmended a (k, r)).plantTime = s.plantTime := by rw [writeAmended_frame]
    exact ⟨_, _, found, second, ((amendRecord_amendedTo (s := start) ahead).link u).link x,
      (amendRecord_amendedTo (s := start.writeAmended a (k, r)) (by rw [now]; exact ahead)).link _⟩

/-! ## A target lowered -/

theorem unit_amendWritten_single (single : r.partner = none) (v : UnitNo) :
    ∃ sat, (s.amendWritten a h r).unit v = { s.unit v with saturated := sat } := by
  rw [amendWritten_single single]
  exact unit_writeAmended { s with named := h :: r.partner.toList } a (h, r) v

theorem waterway_amendWritten (v : WaterwayNo) : (s.amendWritten a h r).waterway v = s.waterway v := by
  rw [amendWritten_frame]; rfl

/-- A setpoint above the target of its RUNNING GENERATE order is lowered to it (R58). -/
theorem lowerToTarget_lowers {p : Nat} (hr : s.order? h = some r) (running : r.life = .running) (generate : r.mode = .generate)
    (setpoint : (s.unit r.unit).setpoint = some p) (below : r.target < p) : s.lowerToTarget h = s.commitSetpoint r.unit r.target := by
  unfold State.lowerToTarget
  rw [hr]
  dsimp only
  rw [if_pos ⟨running, generate⟩, setpoint]
  dsimp only
  rw [if_pos below]

/-- An amendment that names the target of a RUNNING order alone, below its setpoint and under a gate that is SPACING: the record
is written and the setpoint lowered (R58, R114). -/
theorem carryAmend_lowers {p n : Nat} (hr : s.order? h = some r) (running : r.life = .running) (generate : r.mode = .generate)
    (single : r.partner = none) (spaced : (s.waterway (s.unit r.unit).waterway).spacing.isSome = true)
    (setpoint : (s.unit r.unit).setpoint = some p) (target : a.target = some n) (below : n < p) (new : n ≠ r.target)
    (start : a.start = none) (finish : a.finish = none) :
    ∃ r', (s.carryAmend a h r).order? h = some r' ∧ r'.target = n ∧ r'.life = .running ∧
      r'.plannedFlow = s.flowOf r.unit .generate n ∧ ((s.carryAmend a h r).unit r.unit).setpoint = some n := by
  have noStart : ∀ n, a.start = some n → s.plantTime < n := by simp [start]
  have amended := amendRecord_amendedTo (r := r) noStart
  have flow := amendRecord_plannedFlow (s := s) generate target new
  have lowered : (s.amendRecord r a).target = n := by rw [(amended.power generate).1, target]; rfl
  obtain ⟨x, found⟩ := order?_amendWritten_single (a := a) hr single
  generalize s.amendRecord r a = r' at *
  obtain ⟨sat, unit⟩ := unit_amendWritten_single (s := s) (a := a) (h := h) single r.unit
  have lowers := lowerToTarget_lowers found (amended.life.trans running) (amended.mode.trans generate)
    (p := p) (by rw [amended.unit, unit]; exact setpoint) (by rw [lowered]; exact below)
  rw [amended.unit, lowered] at lowers
  obtain ⟨same, low⟩ := commitSetpoint_spaced (s := s.amendWritten a h r) (u := r.unit) n
    (by rw [unit, waterway_amendWritten]; exact spaced)
  obtain ⟨c, stands⟩ := same.order h _ found
  generalize (s.amendWritten a h r).commitSetpoint r.unit n = t at *
  obtain ⟨m, carried⟩ := carryAmend_eq (s := s) (a := a) (h := h) (r := r) (t := t) (by rw [target]; exact lowers) (by
    rw [amendedLegs_single single]
    intro y listed m
    cases List.mem_singleton.1 listed
    exact amendedArrival_engaged (s := { t with picks := m }) stands
      (by rw [amended.life, running]; decide) finish)
  rw [carried]
  exact ⟨_, stands, lowered, amended.life.trans running, flow, low⟩

end

/-! ## The request -/

section
variable {s : State} {tag : Byte} {body : List Byte} {h : Handle} {r : Order} {a : Amendment} (mode : s.mode = .dispatch)
  (length : body.length = 19) (named : h = field body 0 2) (hr : s.order? h = some r) (offered : amendmentOf r.mode body = some a)
include mode length named hr offered

/-- Check A3: an order that is STOPPING or has ended (Table 3-2). -/
theorem amend_wrongState (ended : r.life.isStopping = true ∨ r.life.live = false) :
    exec (.amend tag body) s = .next (s.answered 3 tag 24 .wrongState [] s.taken) :=
  exec_amend_refused mode length named hr offered (by unfold State.judgeAmend; rw [permitsAll_ended ended]; rfl)

/-- Check A4: the window of a linked order (Table 3-2). -/
theorem amend_linked (held : r.life = .held) (single : r.partner = none) (window : a.start.isSome = true ∨ a.finish.isSome = true)
    (link : r.successor.isSome = true ∨ ∃ k q, s.order? k = some q ∧ q.successor = some h) :
    exec (.amend tag body) s = .next (s.answered 3 tag 24 .linked [] s.taken) := by
  have permits : s.permitsAll r a = true := by rw [permitsAll_single single, held]; rfl
  have names : a.namesWindow = true := by simpa [Amendment.namesWindow] using window
  exact exec_amend_refused mode length named hr offered
    (by unfold State.judgeAmend; rw [permits, names, isLinked_iff.2 link]; rfl)

/-- An AMEND of HELD records whose new start lies ahead leaves them as they are written (R58, R59). -/
theorem amend_writes (judged : s.judgeAmend h r a = none) (own : h ∈ (s.amendedLegs h r a).map (·.1))
    (ahead : ∀ n, a.start = some n → s.plantTime < n)
    (written : ∀ p ∈ s.amendedLegs h r a, p.2.life = .held ∧ ∃ r',
      ((s.frameEnded (requestFrame 3 tag body)).amendWritten a h r).order? p.1 = some r' ∧ p.2.AmendedTo a r') :
    ∃ t, exec (.amend tag body) s = .next (s.answered 3 tag 24 .ok [] t) ∧
      (∀ k, t.order? k = ((s.frameEnded (requestFrame 3 tag body)).amendWritten a h r).order? k) ∧
      t.latches = s.taken.latches ∧ t.startQueue = s.startQueue ∧ t.waterways = s.waterways := by
  have legs : (s.frameEnded (requestFrame 3 tag body)).amendedLegs h r a = s.amendedLegs h r a := by
    simp [State.amendedLegs]
  obtain ⟨n, carried⟩ := carryAmend_held (s := s.frameEnded (requestFrame 3 tag body)) (by rwa [legs])
    (by rwa [frameEnded_plantTime]) plantTime_amendWritten (by
      rw [legs]
      intro p hp
      obtain ⟨held, r', found, amended⟩ := written p hp
      exact ⟨r', found, amended, held⟩)
  refine ⟨_, exec_amend_accepted mode length named hr offered judged, fun k => by rw [carried]; rfl, ?_⟩
  rw [carried, amendWritten_frame]
  show (s.frameEnded (requestFrame 3 tag body)).latches = _ ∧ (s.frameEnded (requestFrame 3 tag body)).startQueue = _ ∧
    (s.frameEnded (requestFrame 3 tag body)).waterways = _
  refine ⟨by rw [frameEnded_eq], ?_⟩
  obtain ⟨l, p, o, e⟩ := frameEnded_fields s (requestFrame 3 tag body)
  rw [e]
  exact ⟨rfl, rfl⟩

/-- A single HELD order of no link, whose new start lies ahead, has the values named (R58). -/
theorem amend_held (held : r.life = .held) (single : r.partner = none) (free : s.isLinked h r = false)
    (ahead : ∀ n, a.start = some n → s.plantTime < n) (judged : s.judgeAmended a [(h, r)] = none) :
    ∃ t r', exec (.amend tag body) s = .next (s.answered 3 tag 24 .ok [] t) ∧ t.order? h = some r' ∧ r.AmendedTo a r' ∧
      t.latches = s.taken.latches ∧ t.startQueue = s.startQueue ∧ t.waterways = s.waterways := by
  have permits : s.permitsAll r a = true := by rw [permitsAll_single single, held]; rfl
  have legs := amendedLegs_single (s := s) (h := h) (a := a) single
  obtain ⟨x, found⟩ := order?_amendWritten_single (a := a)
    ((frameEnded_order? s (requestFrame 3 tag body) h).trans hr) single
  have amended := (amendRecord_amendedTo (s := s.frameEnded (requestFrame 3 tag body)) (r := r)
    (by rwa [frameEnded_plantTime])).link x
  obtain ⟨t, result, table, frame⟩ := amend_writes (tag := tag) mode length named hr offered
    (by rw [judgeAmend_eq permits (.inr free), legs, judged]) (by rw [legs]; simp) ahead (by
      rw [legs]
      intro p hp
      cases List.mem_singleton.1 hp
      exact ⟨held, _, found, amended⟩)
  exact ⟨t, _, result, (table h).trans found, amended, frame⟩

/-- A leg of a HELD pair of no link, whose new start lies ahead: both legs have the values named (R59). -/
theorem amend_heldPair {k g : Handle} {p q : Order} (pair : s.IsPair k g p q) (leg : h = k ∨ h = g) (pumpHeld : p.life = .held)
    (genHeld : q.life = .held) (free : s.isLinked h r = false) (ahead : ∀ n, a.start = some n → s.plantTime < n)
    (judged : s.judgeAmended a (s.amendedLegs h r a) = none) :
    ∃ t p' q', exec (.amend tag body) s = .next (s.answered 3 tag 24 .ok [] t) ∧ t.order? k = some p' ∧ t.order? g = some q' ∧
      p.AmendedTo a p' ∧ q.AmendedTo a q' ∧ t.latches = s.taken.latches := by
  have permits : s.permitsAll r a = true := by
    unfold State.permitsAll
    rcases leg with rfl | rfl
    · cases pair.pumpLeg.symm.trans hr
      rw [pumpHeld, pair.pumpPartner]; simp [pair.genLeg, genHeld, Life.permits]
    · cases pair.genLeg.symm.trans hr
      rw [genHeld, pair.genPartner]; simp [pair.pumpLeg, pumpHeld, Life.permits]
  have pair' : (s.frameEnded (requestFrame 3 tag body)).IsPair k g p q :=
    { pair with pumpLeg := (frameEnded_order? ..).trans pair.pumpLeg, genLeg := (frameEnded_order? ..).trans pair.genLeg }
  obtain ⟨p', q', pumpLeg, genLeg, pump, gen⟩ := amendWritten_pair pair' leg ((frameEnded_order? ..).trans hr)
    (by rwa [frameEnded_plantTime]) (amendmentOf_power offered)
  have both : ∀ j y, (j, y) = (k, p) ∨ (j, y) = (g, q) → y.life = .held ∧ ∃ y',
      ((s.frameEnded (requestFrame 3 tag body)).amendWritten a h r).order? j = some y' ∧ y.AmendedTo a y' := by
    rintro j y (e | e) <;> cases e
    · exact ⟨pumpHeld, p', pumpLeg, pump⟩
    · exact ⟨genHeld, q', genLeg, gen⟩
  have own : (h, r) = (k, p) ∨ (h, r) = (g, q) := by
    rcases leg with rfl | rfl
    · cases pair.pumpLeg.symm.trans hr; exact .inl rfl
    · cases pair.genLeg.symm.trans hr; exact .inr rfl
  have legs := amendedLegs_pair (a := a) pair leg hr
  obtain ⟨t, result, table, latches, -⟩ := amend_writes (tag := tag) mode length named hr offered
    (by rw [judgeAmend_eq permits (.inr free), judged])
    (by rw [legs]; rcases leg with rfl | rfl <;> split <;> simp) ahead (by
      rw [legs]
      rintro ⟨j, y⟩ hp
      refine both j y ?_
      split at hp
      · simpa using hp
      · rw [List.mem_singleton.1 hp]; exact own)
  exact ⟨t, p', q', result, (table k).trans pumpLeg, (table g).trans genLeg, pump, gen, latches⟩

/-- A target of a RUNNING order lowered below its setpoint, under a gate that is SPACING: the setpoint is lowered to it (R58,
R114). -/
theorem amend_lowers {p n : Nat} (running : r.life = .running) (generate : r.mode = .generate) (single : r.partner = none)
    (spaced : (s.waterway (s.unit r.unit).waterway).spacing.isSome = true) (setpoint : (s.unit r.unit).setpoint = some p)
    (target : a.target = some n) (below : n < p) (new : n ≠ r.target) (start : a.start = none) (finish : a.finish = none)
    (tolerance : a.tolerance = none) (cls : a.cls = none) (judged : s.judgeAmended a [(h, r)] = none) :
    ∃ t r', exec (.amend tag body) s = .next (s.answered 3 tag 24 .ok [] t) ∧ t.order? h = some r' ∧ r'.target = n ∧
      r'.life = .running ∧ r'.plannedFlow = s.flowOf r.unit .generate n ∧ (t.unit r.unit).setpoint = some n := by
  have permits : s.permitsAll r a = true := by
    rw [permitsAll_single single, running]; simp [Life.permits, start, tolerance, cls]
  have window : a.namesWindow = false := by simp [Amendment.namesWindow, start, finish]
  have accepted := exec_amend_accepted (tag := tag) mode length named hr offered
    (by rw [judgeAmend_eq permits (.inl window), amendedLegs_single single, judged])
  obtain ⟨r', found, lowered, stays, flow, low⟩ := carryAmend_lowers (s := s.frameEnded (requestFrame 3 tag body)) (a := a)
    ((frameEnded_order? ..).trans hr) running generate single (by rwa [frameEnded_unit, frameEnded_waterway])
    (by rwa [frameEnded_unit]) target below new start finish
  exact ⟨_, r', accepted, found, lowered, stays, flow.trans (frameEnded_flowOf ..), low⟩

end

/-- Settles O35: the checks refuse in their order; an accepted AMEND is its records written, of one order or of both legs, and then the
setpoint lowered. -/
theorem amendTaken : Obligations.AmendTaken := by
  intro s tag body h mode length named
  refine ⟨exec_amend_stale mode length named, fun r a hr => ⟨exec_amend_badField mode length named hr, fun offered => ⟨?_, ?_, ?_, ?_⟩,
    fun k g r q x a pair leg hx offered pumpHeld genHeld free ahead judged => ?_⟩⟩
  · exact amend_wrongState mode length named hr offered
  · exact amend_linked mode length named hr offered
  · intro held single last unnamed ahead judged
    have free : s.isLinked h r = false := by
      rw [← Bool.not_eq_true, isLinked_iff]
      rintro (own | ⟨k, q, hq, link⟩)
      · rw [last] at own; cases own
      · exact unnamed k q hq link
    obtain ⟨t, r', result, found, e, latches, queue, water⟩ :=
      amend_held (tag := tag) mode length named hr offered held single free ahead judged
    exact ⟨t, r', result, found, e.life.trans held, e.start, e.finish, e.tolerance, e.cls, e.unit, e.mode, e.power, e.unseen,
      latches, queue, water⟩
  · intro p n running generate single _ _ spaced _ setpoint target below new start finish tolerance cls judged
    exact amend_lowers mode length named hr offered running generate single spaced setpoint target below new start finish
      tolerance cls judged
  · have noLink : x.successor = none := by
      rcases leg with rfl | rfl
      · cases pair.pumpLeg.symm.trans hx; exact pair.pumpLink
      · cases pair.genLeg.symm.trans hx; exact pair.genLink
    have unlinked : s.isLinked h x = false := by
      rw [← Bool.not_eq_true, isLinked_iff]
      rintro (own | ⟨i, y, hy, link⟩)
      · rw [noLink] at own; cases own
      · rcases leg with rfl | rfl
        · exact (free i y hy).1 link
        · exact (free i y hy).2 link
    obtain ⟨t, r', q', result, pumpLeg, genLeg, e, d, latches⟩ :=
      amend_heldPair (tag := tag) mode length named hx offered pair leg pumpHeld genHeld unlinked ahead judged
    obtain ⟨target, ramp, flow⟩ := e.noPower (by rw [pair.pumpMode]; decide)
    obtain ⟨target', ramp'⟩ := d.power pair.genMode
    exact ⟨t, r', q', result, pumpLeg, genLeg, e.life.trans pumpHeld, d.life.trans genHeld, e.start, d.start, e.finish, d.finish,
      e.tolerance, d.tolerance, e.cls, d.cls, target, ramp, flow, target', ramp', e.pairSense, d.pairSense, e.unseen, d.unseen,
      latches⟩

end Sys2Proof.Machine
end

section
/-! # Rules of an event: changed records, latches, tasks in order, and the ending of an order that waits -/

namespace Sys2Proof.Machine

/-! ## What a change of the table leaves unchanged -/

section
variable (s : State) (h : Handle) (f : Order → Order)

@[simp] theorem modOrder_converter (c : ConverterNo) : (s.modOrder h f).converter c = s.converter c := by rw [modOrder_frame]; rfl
@[simp] theorem modOrder_startQueue : (s.modOrder h f).startQueue = s.startQueue := by rw [modOrder_frame]
@[simp] theorem modOrder_waterways : (s.modOrder h f).waterways = s.waterways := by rw [modOrder_frame]
@[simp] theorem modOrder_plantTime : (s.modOrder h f).plantTime = s.plantTime := by rw [modOrder_frame]
@[simp] theorem modOrder_retry : (s.modOrder h f).retry = s.retry := by rw [modOrder_frame]

/-- Two changes of one record are one change. -/
theorem modOrder_modOrder (g : Order → Order) : (s.modOrder h f).modOrder h g = s.modOrder h fun r => g (f r) := by
  cases hr : s.order? h with
  | none =>
    have same : ∀ f, s.modOrder h f = s := fun f => by unfold State.modOrder; rw [hr]
    rw [same, same, same]
  | some r =>
    have changed : (s.modOrder h f).order? h = some (f r) := by simp [hr]
    rw [modOrder_eq changed, modOrder_eq hr, modOrder_eq hr]
    simp [State.setSlot, State.slot]

/-- Cleared links change the table alone (R13). -/
theorem unlink_frame : s.unlink h = { s with slots := (s.unlink h).slots } := by
  unfold State.unlink; rw [modOrder_frame]; rfl

@[simp] theorem unlink_unit (u : UnitNo) : (s.unlink h).unit u = s.unit u := by rw [unlink_frame]; rfl
@[simp] theorem unlink_waterway (w : WaterwayNo) : (s.unlink h).waterway w = s.waterway w := by rw [unlink_frame]; rfl
@[simp] theorem unlink_converter (c : ConverterNo) : (s.unlink h).converter c = s.converter c := by rw [unlink_frame]; rfl
@[simp] theorem unlink_named : (s.unlink h).named = s.named := by rw [unlink_frame]
@[simp] theorem unlink_plantTime : (s.unlink h).plantTime = s.plantTime := by rw [unlink_frame]
@[simp] theorem unlink_linkOut : (s.unlink h).linkOut = s.linkOut := by rw [unlink_frame]
@[simp] theorem unlink_latches : (s.unlink h).latches = s.latches := by rw [unlink_frame]

/-- After the links of a record are cleared, no record names it and it names none (R13). -/
@[simp] theorem order?_unlink (k : Handle) : (s.unlink h).order? k =
    if k = h then (s.order? h).map fun r => { r with successor := none } else (s.order? k).map (Order.unlinkedFrom h) := by
  unfold State.unlink Order.unlinkedFrom
  rw [order?_modOrder]
  split
  · rw [order?_unlinkTo, Option.map_map]
    congr 1
    funext r
    by_cases own : r.successor = some h <;> simp [own]
  · rw [order?_unlinkTo]

end

/-! ## Latches (R189) -/

/-- An event sets its own latch and no other (R189). -/
@[simp] theorem latched_raise (s : State) (e x : EventKind) : (s.raise e).latched x = (s.latched x || decide (x = e)) := by
  have bit : e.bit.getLsbD x.index = decide (x = e) := by cases e <;> cases x <;> rfl
  unfold State.latched
  rw [raise_latches, BitVec.getLsbD_or, bit]

theorem latched_congr {s t : State} (same : t.latches = s.latches) (e : EventKind) : t.latched e = s.latched e := by
  unfold State.latched; rw [same]

@[simp] theorem modOrder_latched (s : State) (h : Handle) (f : Order → Order) (e : EventKind) :
    (s.modOrder h f).latched e = s.latched e := latched_congr (by simp) e

@[simp] theorem modUnit_latched (s : State) (u : UnitNo) (f : UnitBlock → UnitBlock) (e : EventKind) :
    (s.modUnit u f).latched e = s.latched e := rfl
@[simp] theorem modWaterway_latched (s : State) (w : WaterwayNo) (f : Waterway → Waterway) (e : EventKind) :
    (s.modWaterway w f).latched e = s.latched e := rfl

/-- A latch once set stays set within an event (R189, R191). -/
theorem kept_latched (e : EventKind) : KeptFreely fun s => s.latched e = true where
  raise s x p := by simp [p]
  order s h f p := by rw [modOrder_latched, p]
  unlinkTo _ _ p := p
  free s h p := by rw [freeOrder_frame]; exact p
  record _ _ _ p := p
  picks _ _ p := p
  leaveStart _ _ p := p
  joinStart _ _ p := p
  handOver _ _ _ _ p := p
  unit _ _ _ _ p := p
  send _ _ _ _ _ p := p
  contribution s u p := by unfold State.refreshContribution; split <;> exact p
  water _ _ _ _ p := p
  joinGate _ _ _ _ _ _ p := p
  converter _ _ _ _ p := p
  refresh s u p := by unfold State.refreshContribution; split <;> exact p
  waterItems _ _ _ _ _ p := p
  anyGauge _ _ _ p := p

/-! ## A record enters a state outside a request (R9) -/

/-- A record that has entered a state outside a request: its unseen flag is set (R9). -/
def Order.into (r : Order) (l : Life) : Order := { r with life := l, unseen := true }

@[simp] theorem Order.into_life (r : Order) (l : Life) : (r.into l).life = l := rfl
@[simp] theorem Order.into_unit (r : Order) (l : Life) : (r.into l).unit = r.unit := rfl
@[simp] theorem Order.into_mode (r : Order) (l : Life) : (r.into l).mode = r.mode := rfl
@[simp] theorem Order.into_partner (r : Order) (l : Life) : (r.into l).partner = r.partner := rfl
@[simp] theorem Order.into_successor (r : Order) (l : Life) : (r.into l).successor = r.successor := rfl
@[simp] theorem Order.into_start (r : Order) (l : Life) : (r.into l).start = r.start := rfl
@[simp] theorem Order.into_finish (r : Order) (l : Life) : (r.into l).finish = r.finish := rfl
@[simp] theorem Order.into_cls (r : Order) (l : Life) : (r.into l).cls = r.cls := rfl
@[simp] theorem Order.into_into (r : Order) (l m : Life) : (r.into l).into m = r.into m := rfl

section
variable {s : State} (free : s.named = [])
include free

/-- Where no request names the record, its unseen flag is set and the event raised (R9). -/
theorem enter_unnamed (h : Handle) (l : Life) (e : EventKind) :
    s.enter h l e = (s.modOrder h (·.into l)).raise e := by
  unfold State.enter State.note
  rw [modOrder_named, free, if_neg (by simp), modOrder_modOrder]
  rfl

/-- A record closed outside a request stays in the table unless its retirement is pending (R19, R83). -/
theorem closeOrder_unnamed {h : Handle} {r : Order} (hr : s.order? h = some r) (stays : r.retirePending = false) (e : Ending) :
    s.closeOrder h e = (s.modOrder h (·.into (e.life s.plantTime))).raise e.event := by
  unfold State.closeOrder
  rw [hr]
  dsimp only
  rw [if_neg (by simp [stays]), enter_unnamed free]

end

/-! ## Tasks in order -/

/-- The tasks are done in order, each with its own consequences before the next, in `n` steps at most. -/
inductive Settles : Nat → State → List Task → State → Prop
  | done {n : Nat} {s : State} : Settles n s [] s
  | step {n : Nat} {s s₁ s₂ : State} {t : Task} {ts us : List Task} (run : s.runTask t = (s₁, us))
      (rest : Settles n s₁ (us ++ ts) s₂) : Settles (n + 1) s (t :: ts) s₂

theorem Settles.settleWithin {n : Nat} {s t : State} {ts : List Task} (steps : Settles n s ts t) :
    ∀ m, State.settleWithin (n + m) ts s = t := by
  induction steps with
  | @done n s =>
    intro m
    cases n + m with
    | zero => rfl
    | succ _ => rfl
  | @step n s s₁ s₂ t ts us run rest ih =>
    intro m
    rw [show n + 1 + m = n + m + 1 by omega, State.settleWithin, run]
    exact ih m

/-- The steps of an event lie far within the bound (log entry 22). -/
theorem Settles.settle {s t : State} {ts : List Task} (steps : Settles 8 s ts t) : s.settle ts = t := steps.settleWithin 504

theorem Settles.finish {s t : State} {ts : List Task} (steps : Settles 8 s ts t) : Work.finish (s, ts) = t := steps.settle

/-! ## The ending of an order that is not engaged (R83) -/

/-- A record as its ending leaves it: in its last state, unseen, and without its own link when it fails (R13). -/
def Order.ended (r : Order) (e : Ending) (now : Nat) : Order :=
  { r.into (e.life now) with successor := if e.unlinks then none else r.successor }

theorem Order.ended_last {r : Order} (last : r.successor = none) (e : Ending) (now : Nat) :
    r.ended e now = r.into (e.life now) := by
  unfold Order.ended
  rw [last, ite_self, ← last]
  rfl

/-- Another record as the ending leaves it: a failure clears the links to the order (R13). -/
def Order.afterEnding (h : Handle) (e : Ending) (q : Order) : Order := if e.unlinks then q.unlinkedFrom h else q

@[simp] theorem Order.unlinkedFrom_life (h : Handle) (q : Order) : (q.unlinkedFrom h).life = q.life := by
  unfold Order.unlinkedFrom; split <;> rfl
@[simp] theorem Order.unlinkedFrom_unit (h : Handle) (q : Order) : (q.unlinkedFrom h).unit = q.unit := by
  unfold Order.unlinkedFrom; split <;> rfl
@[simp] theorem Order.afterEnding_life (h : Handle) (e : Ending) (q : Order) : (q.afterEnding h e).life = q.life := by
  unfold Order.afterEnding; split <;> simp
@[simp] theorem Order.afterEnding_unit (h : Handle) (e : Ending) (q : Order) : (q.afterEnding h e).unit = q.unit := by
  unfold Order.afterEnding; split <;> simp

/-- A record without a link is not touched by an ending. -/
theorem Order.afterEnding_last {q : Order} (last : q.successor = none) (h : Handle) (e : Ending) : q.afterEnding h e = q := by
  unfold Order.afterEnding Order.unlinkedFrom; simp [last]

theorem Ending.life_ne_due (e : Ending) (now : Nat) : e.life now ≠ .due := by cases e <;> simp [Ending.life]

/-- What an ending leaves of the table and the latches (R9, R13, R83). -/
structure State.EndsIn (s t : State) (h : Handle) (r : Order) (e : Ending) : Prop where
  record : t.order? h = some (r.ended e s.plantTime)
  others : ∀ k, k ≠ h → t.order? k = (s.order? k).map (Order.afterEnding h e)
  event : t.latched e.event = true
  plantTime : t.plantTime = s.plantTime
  named : t.named = s.named

section
variable {s t : State} {h : Handle} {r : Order} {e : Ending}

/-- An ending makes no order DUE. -/
theorem State.EndsIn.noDue (ends : s.EndsIn t h r e) {u : UnitNo}
    (noDue : ∀ k q, s.order? k = some q → q.unit = u → q.life = .due → k = h) :
    ∀ k q, t.order? k = some q → q.unit = u → q.life ≠ .due := by
  intro k q hq unit due
  by_cases same : k = h
  · subst same
    cases ends.record.symm.trans hq
    exact e.life_ne_due _ due
  · rw [ends.others k same] at hq
    obtain ⟨y, hy, rfl⟩ := Option.map_eq_some_iff.1 hq
    exact same (noDue k y hy (by simpa using unit) (by simpa using due))

/-- The table and the latches after the links of an order that fails are cleared, and its record closed. -/
theorem endsIn_closed (free : s.named = []) (hr : s.order? h = some r) (stays : r.retirePending = false)
    (e : Ending) :
    s.EndsIn ((if e.unlinks then s.unlink h else s).closeOrder h e) h r e := by
  obtain ⟨r', hr', stays', record⟩ : ∃ r', (if e.unlinks then s.unlink h else s).order? h = some r' ∧ r'.retirePending = false ∧
      r'.into (e.life s.plantTime) = r.ended e s.plantTime := by
    unfold Order.ended Order.into
    by_cases u : e.unlinks = true
    · exact ⟨{ r with successor := none }, by rw [if_pos u, order?_unlink, if_pos rfl, hr]; rfl, stays, by simp [u]⟩
    · exact ⟨r, by rw [if_neg u, hr], stays, by simp [u]⟩
  have time : (if e.unlinks then s.unlink h else s).plantTime = s.plantTime := by split <;> simp
  have names : (if e.unlinks then s.unlink h else s).named = s.named := by split <;> simp
  rw [closeOrder_unnamed (names.trans free) hr' stays', time]
  refine ⟨?_, fun k other => ?_, by simp, by simp [time], by simp [names]⟩
  · simp [hr', record]
  · rw [raise_order?, order?_modOrder, if_neg other]
    unfold Order.afterEnding
    split
    · rw [order?_unlink, if_neg other]
    · simp

/-- The ending of a HELD or DUE order is its record closed (R83). -/
theorem endOrder_waiting (hr : s.order? h = some r) (live : r.life.live = true) (waits : r.life.engaged = false) (e : Ending) :
    s.endOrder h e = ((if e.unlinks then s.unlink h else s).closeOrder h e, endTasks r false) := by
  have standing : r.life ≠ .running := by intro l; rw [l] at waits; cases waits
  unfold State.endOrder
  rw [hr]
  simp [live, waits, standing]

end

end Sys2Proof.Machine
end

section
/-! # Rules of an event: contributions under a gate that is SPACING, engagement, the ending of an engaged order -/

namespace Sys2Proof.Machine

/-! ## A contribution recomputed under a gate that is SPACING (R34, R36, R109) -/

/-- Only contributions and live net flows differ, and every other part of the state is the same. -/
structure State.OnlyFlows (s t : State) : Prop extends s.SameButFlow t where
  frame : t = { s with units := t.units, waterways := t.waterways }

namespace State.OnlyFlows

variable {s t v : State}

theorem refl (s : State) : s.OnlyFlows s :=
  ⟨⟨fun _ => rfl, fun _ => ⟨_, _, rfl⟩, fun _ => ⟨_, rfl⟩, rfl, rfl⟩, rfl⟩

theorem trans (a : s.OnlyFlows t) (b : t.OnlyFlows v) : s.OnlyFlows v where
  order k := (b.order k).trans (a.order k)
  unit u := by
    obtain ⟨q, sat, e⟩ := a.unit u
    obtain ⟨q', sat', e'⟩ := b.unit u
    exact ⟨q', sat', by rw [e', e]⟩
  waterway w := by
    obtain ⟨q, e⟩ := a.waterway w
    obtain ⟨q', e'⟩ := b.waterway w
    exact ⟨q', by rw [e', e]⟩
  latches := b.latches.trans a.latches
  linkOut := b.linkOut.trans a.linkOut
  frame := by rw [b.frame, a.frame]

theorem recompute {u : UnitNo} (spaced : (s.waterway (s.unit u).waterway).spacing.isSome = true) : s.OnlyFlows (s.recompute u) := by
  refine ⟨sameButFlow_recompute spaced, ?_⟩
  have fresh : s.refreshContribution u = { s with units := (s.refreshContribution u).units } := by
    unfold State.refreshContribution; split <;> rfl
  unfold State.recompute State.updateFlow
  split
  · rw [fresh]
  · rw [gateOpportunity_spaced, fresh]
    · rfl
    · rw [fresh]
      simp only [State.refreshFlow, waterway_modWaterway, if_true]
      exact spaced

variable (same : s.OnlyFlows t)
include same

theorem context (u : UnitNo) : (t.unit u).context = (s.unit u).context := by obtain ⟨_, _, e⟩ := same.unit u; rw [e]
theorem home (u : UnitNo) : (t.unit u).waterway = (s.unit u).waterway := by obtain ⟨_, _, e⟩ := same.unit u; rw [e]
theorem link (u : UnitNo) : (t.unit u).link = (s.unit u).link := by obtain ⟨_, _, e⟩ := same.unit u; rw [e]
theorem setpoint (u : UnitNo) : (t.unit u).setpoint = (s.unit u).setpoint := by obtain ⟨_, _, e⟩ := same.unit u; rw [e]
theorem timer (u : UnitNo) : (t.unit u).supervision = (s.unit u).supervision := by obtain ⟨_, _, e⟩ := same.unit u; rw [e]
theorem motion (u : UnitNo) : (t.unit u).motion = (s.unit u).motion := by obtain ⟨_, _, e⟩ := same.unit u; rw [e]
theorem spacing (w : WaterwayNo) : (t.waterway w).spacing = (s.waterway w).spacing := by obtain ⟨_, e⟩ := same.waterway w; rw [e]
theorem queue (w : WaterwayNo) : (t.waterway w).queue = (s.waterway w).queue := by obtain ⟨_, e⟩ := same.waterway w; rw [e]
theorem converter (c : ConverterNo) : t.converter c = s.converter c := by rw [same.frame]; rfl
theorem startQueue : t.startQueue = s.startQueue := by rw [same.frame]
theorem named : t.named = s.named := by rw [same.frame]
theorem plantTime : t.plantTime = s.plantTime := by rw [same.frame]
theorem latched (e : EventKind) : t.latched e = s.latched e := latched_congr same.latches e

theorem spaced {u : UnitNo} (h : (s.waterway (s.unit u).waterway).spacing.isSome = true) :
    (t.waterway (t.unit u).waterway).spacing.isSome = true := by rw [same.home, same.spacing, h]

end State.OnlyFlows

/-! ## Engagement outside a request (R65, R66) -/

section
variable {s : State} {h : Handle} {r : Order}

/-- The start queue with one entry more (R93). -/
def State.withStart (s : State) (e : StartEntry) : State := { s with startQueue := insertStart e s.startQueue }

@[simp] theorem withStart_order? (e : StartEntry) (k : Handle) : (s.withStart e).order? k = s.order? k := rfl
@[simp] theorem withStart_unit (e : StartEntry) (u : UnitNo) : (s.withStart e).unit u = s.unit u := rfl
@[simp] theorem withStart_waterway (e : StartEntry) (w : WaterwayNo) : (s.withStart e).waterway w = s.waterway w := rfl
@[simp] theorem withStart_latched (e : StartEntry) (x : EventKind) : (s.withStart e).latched x = s.latched x := rfl
@[simp] theorem mem_withStart (e y : StartEntry) : y ∈ (s.withStart e).startQueue ↔ y = e ∨ y ∈ s.startQueue := mem_insertStart

/-- While no converter is FREE an entry joins the start queue and is granted nothing (R94, R95). -/
theorem joinStartQueue_busy (busy : ∀ c, (s.converter c).state ≠ .free) (h : Handle) (r : Order) :
    s.joinStartQueue h r = s.withStart { handle := h, unit := r.unit, cls := r.cls, start := r.start } := by
  have walk : ∀ (es : List StartEntry) (a : State), (∀ c, (a.converter c).state ≠ .free) → es.foldl State.walkEntry a = a := by
    intro es a busy
    induction es with
    | nil => rfl
    | cons e es ih =>
      have none : a.chooseConverter e.unit = none := by
        have held : ∀ c, a.isFree c = false := fun c => by simpa [State.isFree] using busy c
        unfold State.chooseConverter
        simp [held]
      rw [List.foldl_cons, State.walkEntry, none]
      exact ih
  exact walk _ _ busy

/-- An engagement outside a request: the unit is ENGAGED, the order in its first phase, and its queue entry is made (R66). -/
theorem engage_unnamed (free : s.named = []) (h : Handle) (r : Order) :
    s.engage h r = ((((s.modUnit r.unit fun b => { b with context := .engaged }).modOrder h
      (·.into (.starting (s.firstPhase r)))).raise .orderChanged).modUnit r.unit fun b =>
        { b with motion := false }).makeEntry h r (s.firstPhase r) := by
  unfold State.engage
  dsimp only
  rw [setContext_engaged, enter_unnamed (s := s.modUnit r.unit _) free]

end

/-! ## A converter that rests (R97 to R99) -/

/-- A converter after its run: COOLING, or OUT where an out request stood (R97, R99). -/
def Converter.rested (x : Converter) : Converter :=
  { x with state := if x.outRequest = true then .out else .cooling x.coolDown, outRequest := false }

/-- The converter, and no other, runs for the order; its cool-down is above 0. -/
structure State.RunsFor (s : State) (c : ConverterNo) (h : Handle) : Prop where
  runs : ∃ u n, (s.converter c).state = .running h u n
  only : ∀ k v m, (s.converter k).state = .running h v m → k = c
  coolDown : 0 < (s.converter c).coolDown

section
variable {s : State} {c : ConverterNo} {h : Handle}

theorem State.RunsFor.serves (runs : s.RunsFor c h) (k : ConverterNo) : (s.converter k).serves h = decide (k = c) := by
  obtain ⟨u, n, state⟩ := runs.runs
  by_cases same : k = c
  · subst same; simp [Converter.serves, state]
  · rw [decide_eq_false same]
    unfold Converter.serves
    split
    · next j v m running =>
      by_contra serves
      obtain rfl : j = h := by simpa using serves
      exact same (runs.only k v m running)
    · rfl

/-- The run ends: its converter rests, and no entry is granted it (R97, R98). -/
theorem State.RunsFor.release (runs : s.RunsFor c h) :
    s.releaseConverter h = (s.modConverter c fun _ => (s.converter c).rested).raise .converterChange := by
  have found : s.converterOf h = some c := by
    have pick : ∀ c : ConverterNo, (allConverters.find? fun k => decide (k = c)) = some c := by decide
    unfold State.converterOf
    simp only [runs.serves]
    exact pick c
  have set : ∀ x y, (s.setConverter c x).setConverter c y = s.setConverter c y := by
    intro x y; simp [State.setConverter]
  unfold State.releaseConverter State.endRun State.startCooling State.setConverterState Converter.rested
  rw [found]
  dsimp only
  split
  · next out => simp [State.modConverter, set]
  · next rests =>
    rw [if_neg runs.coolDown.ne']
    have rests : (s.converter c).outRequest = false := by simpa using rests
    simp [State.modConverter, rests]

end

end Sys2Proof.Machine
end

section
/-! # Rules of an event: the ending of an engaged order (R83, Table 4-4) -/

namespace Sys2Proof.Machine

/-! ## What the parts of an ending leave unchanged -/

section
variable (s : State) (h : Handle) (e : Ending) (u : UnitNo) (c : Context)

/-- A closed record changes the table and the latches alone. -/
theorem closeOrder_frame : s.closeOrder h e = { s with slots := (s.closeOrder h e).slots, latches := (s.closeOrder h e).latches } := by
  unfold State.closeOrder
  split
  · rfl
  · split
    · unfold State.raiseFor; rw [freeOrder_frame]; split <;> rfl
    · unfold State.enter State.note
      split
      · rw [modOrder_frame]
      · rw [modOrder_modOrder, modOrder_frame]; rfl

@[simp] theorem closeOrder_unit (v : UnitNo) : (s.closeOrder h e).unit v = s.unit v := by rw [closeOrder_frame]; rfl
@[simp] theorem closeOrder_waterway (w : WaterwayNo) : (s.closeOrder h e).waterway w = s.waterway w := by rw [closeOrder_frame]; rfl
@[simp] theorem closeOrder_converter (k : ConverterNo) : (s.closeOrder h e).converter k = s.converter k := by
  rw [closeOrder_frame]; rfl
@[simp] theorem closeOrder_linkOut : (s.closeOrder h e).linkOut = s.linkOut := by rw [closeOrder_frame]

@[simp] theorem setContext_converter (k : ConverterNo) : (s.setContext u c).converter k = s.converter k := by
  rw [setContext_frame]; rfl
@[simp] theorem setContext_linkOut : (s.setContext u c).linkOut = s.linkOut := by rw [setContext_frame]
@[simp] theorem setContext_plantTime : (s.setContext u c).plantTime = s.plantTime := by rw [setContext_frame]
@[simp] theorem setContext_named : (s.setContext u c).named = s.named := by rw [setContext_frame]

/-- The unit whose context changes (R63, R92, R138, R149). -/
theorem unit_setContext (v : UnitNo) : (s.setContext u c).unit v =
    if u = v then
      { s.unit u with
        context := c
        lastConverter := if (s.unit u).context = .engaged ∧ c ≠ .engaged then none else (s.unit u).lastConverter
        motion := if (s.unit u).context = .engaged ∧ c ≠ .engaged then false else (s.unit u).motion
        link := if c = .locally then { (s.unit u).link with held := none } else (s.unit u).link }
    else s.unit v := by
  unfold State.setContext
  dsimp only
  split <;> simp

end

/-! ## The items released (R83) -/

/-- A unit without the working values of its order (R83). -/
def UnitBlock.released (b : UnitBlock) : UnitBlock :=
  { b with supervision := none, setpoint := none, ceiling := none, pendingSetpoint := none }

/-- What an order releases that is no PUMP leg: its queue entries, its converter, and its unit's working values (R83). -/
structure State.Releases (s a : State) (h : Handle) (r : Order) : Prop where
  order : ∀ k, a.order? k = s.order? k
  unit : ∀ v, a.unit v = if r.unit = v then (s.unit v).released else s.unit v
  waterway : ∀ w, a.waterway w =
    if (s.unit r.unit).waterway = w then { s.waterway w with queue := withoutGate h (s.waterway w).queue } else s.waterway w
  linkOut : a.linkOut = s.linkOut
  named : a.named = s.named
  plantTime : a.plantTime = s.plantTime
  held : r.life ≠ .starting .converterRun → ∀ c, a.converter c = s.converter c
  rested : ∀ c, r.life = .starting .converterRun → s.RunsFor c h →
    a.converter c = (s.converter c).rested ∧ a.latched .converterChange = true

section
variable {s : State} {h : Handle} {r : Order}

theorem releases_items (keeps : r.partner = none ∨ r.mode ≠ .pump)
    (rests : r.life = .starting .converterRun → ∃ c, s.RunsFor c h) : s.Releases (s.releaseItems h r) h r := by
  have leg : ¬ (r.mode = .pump ∧ r.isPairLeg = true) := by
    rintro ⟨pump, leg⟩
    rcases keeps with single | other
    · simp [Order.isPairLeg, single] at leg
    · exact other pump
  let left := (s.leaveStartQueue h).leaveGate (s.unit r.unit).waterway h
  have water : ∀ w, left.waterway w =
      if (s.unit r.unit).waterway = w then { s.waterway w with queue := withoutGate h (s.waterway w).queue } else s.waterway w := by
    intro w
    show (State.modWaterway _ _ _).waterway w = _
    rw [waterway_modWaterway]
    split
    · next same => subst same; rfl
    · rfl
  have unit : ∀ a : State, (∀ v, a.unit v = s.unit v) → ∀ v,
      (a.modUnit r.unit UnitBlock.released).unit v = if r.unit = v then (s.unit v).released else s.unit v := by
    intro a same v
    rw [unit_modUnit, same, same]
    split
    · next own => subst own; rfl
    · rfl
  by_cases run : r.life = .starting .converterRun
  · obtain ⟨c, runs⟩ := rests run
    have runs' : left.RunsFor c h := ⟨runs.runs, runs.only, runs.coolDown⟩
    have released : s.releaseItems h r = (State.raise .converterChange (left.modConverter c fun _ => (s.converter c).rested)).modUnit
        r.unit UnitBlock.released := by
      unfold State.releaseItems
      dsimp only
      rw [if_pos run, if_neg leg]
      exact congrArg (State.modUnit · r.unit _) runs'.release
    rw [released]
    refine ⟨fun _ => rfl, unit _ fun _ => rfl, water, rfl, rfl, rfl, fun other => absurd run other, fun k _ runs₂ => ?_⟩
    obtain ⟨u, n, state⟩ := runs₂.runs
    obtain rfl := runs.only k u n state
    exact ⟨by simp, (latched_raise _ _ _).trans (by simp)⟩
  · have released : s.releaseItems h r = left.modUnit r.unit UnitBlock.released := by
      unfold State.releaseItems
      dsimp only
      rw [if_neg run, if_neg leg]
      rfl
    rw [released]
    exact ⟨fun _ => rfl, unit _ fun _ => rfl, water, rfl, rfl, rfl, fun _ _ => rfl, fun _ running => absurd running run⟩

end

/-! ## The ending -/

/-- What the ending of an engaged order leaves that is no PUMP leg: its unit without the working values, in the context of Table 4-4,
its queue entries gone, its converter at rest (R83). -/
structure State.EndsEngaged (s t : State) (h : Handle) (r : Order) (e : Ending) : Prop where
  own : ∃ m l q sat, t.unit r.unit =
    { s.unit r.unit with
      context := e.context
      link := if e.context = .locally then { (s.unit r.unit).link with held := none } else (s.unit r.unit).link
      supervision := none, setpoint := none, ceiling := none, pendingSetpoint := none
      motion := m, lastConverter := l, contribution := q, saturated := sat }
  others : ∀ v, v ≠ r.unit → ∃ q sat, t.unit v = { s.unit v with contribution := q, saturated := sat }
  waterway : ∀ w, ∃ n, t.waterway w =
    { s.waterway w with
      queue := if (s.unit r.unit).waterway = w then withoutGate h (s.waterway w).queue else (s.waterway w).queue
      netFlow := n }
  linkOut : t.linkOut = s.linkOut
  held : r.life ≠ .starting .converterRun → ∀ c, t.converter c = s.converter c
  rested : ∀ c, r.life = .starting .converterRun → s.RunsFor c h →
    t.converter c = (s.converter c).rested ∧ t.latched .converterChange = true
  table : s.named = [] → r.retirePending = false → s.EndsIn t h r e

section
variable {s t : State} {h : Handle} {r : Order} {e : Ending}

theorem State.EndsEngaged.home (ends : s.EndsEngaged t h r e) (v : UnitNo) : (t.unit v).waterway = (s.unit v).waterway := by
  by_cases same : v = r.unit
  · subst same; obtain ⟨_, _, _, _, e⟩ := ends.own; rw [e]
  · obtain ⟨_, _, e⟩ := ends.others v same; rw [e]

theorem State.EndsEngaged.spacing (ends : s.EndsEngaged t h r e) (w : WaterwayNo) :
    (t.waterway w).spacing = (s.waterway w).spacing := by obtain ⟨_, e⟩ := ends.waterway w; rw [e]

/-- A gate that is SPACING is so after the ending. -/
theorem State.EndsEngaged.spaced (ends : s.EndsEngaged t h r e) {v : UnitNo}
    (spaced : (s.waterway (s.unit v).waterway).spacing.isSome = true) : (t.waterway (t.unit v).waterway).spacing.isSome = true := by
  rw [ends.home, ends.spacing, spaced]

/-- What the contributions have no part in stands when they are recomputed. -/
theorem State.EndsEngaged.afterFlows {a : State} (ends : s.EndsEngaged a h r e) (same : a.OnlyFlows t) : s.EndsEngaged t h r e where
  own := by
    obtain ⟨m, l, q, sat, own⟩ := ends.own
    obtain ⟨q', sat', unit⟩ := same.unit r.unit
    exact ⟨m, l, q', sat', by rw [unit, own]⟩
  others v other := by
    obtain ⟨q, sat, own⟩ := ends.others v other
    obtain ⟨q', sat', unit⟩ := same.unit v
    exact ⟨q', sat', by rw [unit, own]⟩
  waterway w := by
    obtain ⟨n, own⟩ := ends.waterway w
    obtain ⟨n', water⟩ := same.waterway w
    exact ⟨n', by rw [water, own]⟩
  linkOut := same.linkOut.trans ends.linkOut
  held other c := (same.converter c).trans (ends.held other c)
  rested c run runs := by
    rw [same.converter, same.latched]; exact ends.rested c run runs
  table free stays := by
    obtain ⟨record, others, event, time, names⟩ := ends.table free stays
    exact ⟨(same.order h).trans record, fun k other => (same.order k).trans (others k other), (same.latched _).trans event,
      same.plantTime.trans time, same.named.trans names⟩

/-- The ending of an engaged order that is no PUMP leg, while a RUNNING one has a gate that is SPACING (R83, Table 4-4). -/
theorem endOrder_engaged (hr : s.order? h = some r) (engaged : r.life.engaged = true) (keeps : r.partner = none ∨ r.mode ≠ .pump)
    (rests : r.life = .starting .converterRun → ∃ c, s.RunsFor c h)
    (spaced : r.life = .running → (s.waterway (s.unit r.unit).waterway).spacing.isSome = true) (e : Ending) :
    ∃ t, s.endOrder h e = (t, endTasks r (e.context == .idle)) ∧ s.EndsEngaged t h r e := by
  have live : r.life.live = true := by
    revert engaged; cases r.life <;> simp [Life.live, Life.engaged]
  have items := releases_items keeps rests
  generalize ha : s.releaseItems h r = a at items
  let b := (if e.unlinks then a.unlink h else a).closeOrder h e
  have unit : ∀ v, b.unit v = a.unit v := by intro v; simp only [b]; rw [closeOrder_unit]; split <;> simp
  have water : ∀ w, b.waterway w = a.waterway w := by intro w; simp only [b]; rw [closeOrder_waterway]; split <;> simp
  have converter : ∀ c, b.converter c = a.converter c := by intro c; simp only [b]; rw [closeOrder_converter]; split <;> simp
  have links : b.linkOut = a.linkOut := by simp only [b]; rw [closeOrder_linkOut]; split <;> simp
  have closed : s.EndsEngaged (b.setContext r.unit e.context) h r e := by
    refine ⟨?_, fun v other => ?_, fun w => ?_, ?_, fun other c => ?_, fun c run runs => ?_, fun free stays => ?_⟩
    · rw [unit_setContext, if_pos rfl, unit, items.unit, if_pos rfl]
      exact ⟨_, _, _, _, rfl⟩
    · rw [unit_setContext, if_neg other.symm, unit, items.unit, if_neg other.symm]
      exact ⟨_, _, rfl⟩
    · rw [setContext_waterway, water, items.waterway]
      split <;> exact ⟨_, rfl⟩
    · rw [setContext_linkOut, links, items.linkOut]
    · rw [setContext_converter, converter, items.held other]
    · obtain ⟨rest, latched⟩ := items.rested c run runs
      rw [setContext_converter, converter, rest]
      have kept := (kept_latched .converterChange).toKept
      refine ⟨rfl, kept.setContext _ _ (kept.closeOrder _ _ ?_)⟩
      split <;> [exact kept.unlink _ latched; exact latched]
    · obtain ⟨record, others, event, time, names⟩ :=
        endsIn_closed (items.named.trans free) ((items.order h).trans hr) stays e
      rw [items.plantTime] at record time
      refine ⟨(setContext_order? ..).trans record, fun k other => ?_, (kept_latched e.event).toKept.setContext _ _ event,
        (setContext_plantTime ..).trans time, (setContext_named ..).trans (names.trans items.named)⟩
      rw [setContext_order?, others k other, items.order]
  unfold State.endOrder
  rw [hr]
  dsimp only
  rw [if_pos live, if_pos engaged, if_pos engaged, ha, engaged, Bool.true_and]
  by_cases running : r.life = .running
  · rw [if_pos running]
    exact ⟨_, rfl, closed.afterFlows (.recompute (closed.spaced (spaced running)))⟩
  · rw [if_neg running]
    exact ⟨_, rfl, closed⟩

end

end Sys2Proof.Machine
end

section
/-! # The start arrival (R64 to R66, R73, R90) -/

namespace Sys2Proof.Machine

/-! ## Events of a mark taken as commands (R64, R67, R68, R74) -/

section
variable (s : State) (e : DueEvent)

@[simp] theorem takes_order? (h : Handle) : (s.takes e).order? h = s.order? h := rfl
@[simp] theorem takes_unit (u : UnitNo) : (s.takes e).unit u = s.unit u := rfl
@[simp] theorem takes_waterway (w : WaterwayNo) : (s.takes e).waterway w = s.waterway w := rfl
@[simp] theorem takes_converter (c : ConverterNo) : (s.takes e).converter c = s.converter c := rfl
@[simp] theorem takes_slot (k : SlotNo) : (s.takes e).slot k = s.slot k := rfl
@[simp] theorem takes_mode : (s.takes e).mode = s.mode := rfl
@[simp] theorem takes_named : (s.takes e).named = s.named := rfl
@[simp] theorem takes_plantTime : (s.takes e).plantTime = s.plantTime := rfl
@[simp] theorem takes_startQueue : (s.takes e).startQueue = s.startQueue := rfl
@[simp] theorem takes_linkOut : (s.takes e).linkOut = [] := rfl

variable {s} in
theorem State.IsPair.takes {h g : Handle} {r q : Order} (pair : s.IsPair h g r q) : (s.takes e).IsPair h g r q :=
  { pair with pumpLeg := pair.pumpLeg, genLeg := pair.genLeg }

variable {s e} in
/-- What is due has its effect, once (log entry 1). -/
theorem takeDue_quiet (due : e ∈ s.due) : s.quiet.takeDue e = e.effect (s.takes e) :=
  if_pos (show s.due.contains e = true by simpa using due)

end

section
variable {s : State} {h : Handle} {r : Order}

/-- An arrival is acted on in DISPATCH at its own instant (R166). -/
theorem arrives_now (mode : s.mode = .dispatch) (hr : s.order? h = some r) {at_ : Order → Option Nat}
    (now : at_ r = some s.plantTime) : s.arrives h at_ = true := by
  simp [State.arrives, State.isNow, mode, hr, now]

theorem exec_startArrival (due : DueEvent.startArrival h ∈ s.due) (mode : s.mode = .dispatch) (hr : s.order? h = some r)
    (now : r.start = s.plantTime) :
    exec (.startArrival h) s = .next ((s.takes (.startArrival h)).startArrival h).finish := by
  have acts := arrives_now (s := s.takes (.startArrival h)) (at_ := fun r => some r.start) mode hr (congrArg some now)
  rw [exec_event rfl, takeDue_quiet due, DueEvent.effect, if_pos acts]

/-! ## DUE, and the engagement test (R64, R65) -/

/-- The table and the latches once the order is DUE. -/
def State.madeDue (s : State) (h : Handle) : State :=
  (s.modOrder h (·.into .due)).raise .orderChanged

/-- A start arrival makes a HELD order DUE; its engagement test and its lateness test follow, and the latter finds nothing to do
(R64, R65, R67). -/
theorem startArrival_settles {t : State} (free : s.named = []) (hr : s.order? h = some r) (held : r.life = .held)
    (test : (s.madeDue h).runTask (.engagementOf h) = (t, [])) (passes : t.latenessTest h = (t, [])) :
    (s.startArrival h).finish = t := by
  have arrives : s.startArrival h = (s.madeDue h, [.engagementOf h, .lateness h]) := by
    unfold State.startArrival
    rw [hr]
    dsimp only
    rw [if_pos held, enter_unnamed free]
    rfl
  rw [arrives]
  exact finish_two test passes

/-- An order that is no longer DUE passes its lateness test (R67). -/
theorem latenessTest_notDue (hr : s.order? h = some r) (other : r.life ≠ .due) : s.latenessTest h = (s, []) :=
  latenessTest_passes hr fun due => absurd due other

@[simp] theorem order?_madeDue (k : Handle) : (s.madeDue h).order? k =
    if k = h then (s.order? h).map (·.into .due) else s.order? k := by
  simp [State.madeDue]
@[simp] theorem unit_madeDue (u : UnitNo) : (s.madeDue h).unit u = s.unit u := by simp [State.madeDue]
@[simp] theorem waterway_madeDue (w : WaterwayNo) : (s.madeDue h).waterway w = s.waterway w := by simp [State.madeDue]
@[simp] theorem converter_madeDue (c : ConverterNo) : (s.madeDue h).converter c = s.converter c := by simp [State.madeDue]
@[simp] theorem startQueue_madeDue : (s.madeDue h).startQueue = s.startQueue := by simp [State.madeDue]
@[simp] theorem waterways_madeDue : (s.madeDue h).waterways = s.waterways := by simp [State.madeDue]
@[simp] theorem linkOut_madeDue : (s.madeDue h).linkOut = s.linkOut := by simp [State.madeDue]
@[simp] theorem named_madeDue : (s.madeDue h).named = s.named := by simp [State.madeDue]
@[simp] theorem plantTime_madeDue : (s.madeDue h).plantTime = s.plantTime := by simp [State.madeDue]
@[simp] theorem latched_madeDue : (s.madeDue h).latched .orderChanged = true := by simp [State.madeDue]

/-- The engagement test of a DUE order on an isolated unit: it fails (R65, R90). -/
theorem engagementOf_isolated (free : s.named = []) (hr : s.order? h = some r) (due : r.life = .due) (single : r.partner = none)
    (last : r.successor = none) (stays : r.retirePending = false) (isolated : (s.unit r.unit).isolated = true) :
    ∃ t, s.runTask (.engagementOf h) = (t, []) ∧ s.EndsIn t h r (.failed .isolated) := by
  refine ⟨_, ?_, endsIn_closed free hr stays (.failed .isolated)⟩
  show s.engagementTestOf h = _
  unfold State.engagementTestOf
  rw [hr]
  dsimp only
  rw [if_pos due, if_pos isolated, endOrder_waiting hr (by rw [due]; rfl) (by rw [due]; rfl)]
  simp [endTasks, single, last]

/-- The engagement test of a DUE order on a unit that is not isolated (R65). -/
theorem engagementOf_engages (hr : s.order? h = some r) (due : r.life = .due) (notIsolated : (s.unit r.unit).isolated = false) :
    s.runTask (.engagementOf h) = (s.engageFirst r.unit, []) := by
  show s.engagementTestOf h = _
  unfold State.engagementTestOf
  rw [hr]
  dsimp only
  rw [if_pos due, if_neg (by simp [notIsolated])]

end

/-! ## The start arrival on an IDLE unit (R66, R73) -/

section
variable {s : State} {h : Handle} {r : Order}

/-- The state once the order whose start arrives on an IDLE unit is engaged, before its queue entry is made (R66). -/
def State.engagedFrom (s : State) (h : Handle) (r : Order) (p : StartPhase) : State :=
  (((s.modUnit r.unit fun b => { b with context := .engaged }).modOrder h
    (·.into (.starting p))).raise .orderChanged).modUnit r.unit fun b => { b with motion := false }

/-- The start arrival of a HELD order on a unit that is IDLE and has no DUE order: it engages (R64 to R66). -/
theorem startArrival_engages (free : s.named = []) (hr : s.order? h = some r) (held : r.life = .held)
    (runs : ∀ e, r.finish = some e → s.plantTime < e) (notIsolated : (s.unit r.unit).isolated = false)
    (idle : (s.unit r.unit).context = .idle) (noDue : ∀ k q, s.order? k = some q → q.unit = r.unit → q.life ≠ .due)
    {p : StartPhase} (phase : s.firstPhase r = p) {t : State}
    (entry : ((s.madeDue h).engagedFrom h r p).makeEntry h (r.into .due) p = t)
    (record : t.order? h = some (r.into (.starting p))) :
    (s.startArrival h).finish = t := by
  have due : (s.madeDue h).order? h = some (r.into .due) := by simp [hr]
  have first : (s.madeDue h).firstPhase (r.into .due) = p := by
    have running : ∀ g, ((s.madeDue h).order? g).any (·.life = .running) = (s.order? g).any (·.life = .running) := by
      intro g
      by_cases same : g = h
      · simp [same, hr, held]
      · simp [same]
    rw [← phase]
    unfold State.firstPhase
    simp only [Order.into_mode, Order.into_partner, running]
  have open_ : endReached r.finish s.plantTime = false := by
    cases f : r.finish with
    | none => rfl
    | some e => simpa [endReached] using runs e f
  have only : ∀ k q, (s.madeDue h).order? k = some q → q.unit = r.unit → q.life = .due → k = h := by
    intro k q hq unit life
    by_contra other
    rw [order?_madeDue, if_neg other] at hq
    exact noDue k q hq unit life
  refine startArrival_settles free hr held ?_ (latenessTest_notDue record (by simp))
  rw [engagementOf_engages due rfl (by simpa using notIsolated),
    engageFirst_single (by simpa using idle) due rfl rfl (by simpa using open_) only,
    engage_unnamed (by simpa using free), first]
  exact congrArg (·, []) entry

variable {p : StartPhase}

@[simp] theorem order?_engagedFrom (k : Handle) : (s.engagedFrom h r p).order? k =
    if k = h then (s.order? h).map (·.into (.starting p)) else s.order? k := by
  simp [State.engagedFrom]
@[simp] theorem unit_engagedFrom (u : UnitNo) : (s.engagedFrom h r p).unit u =
    if r.unit = u then { s.unit u with context := .engaged, motion := false } else s.unit u := by
  simp only [State.engagedFrom, unit_modUnit, raise_unit, modOrder_unit]
  split
  · next same => subst same; rfl
  · rfl
@[simp] theorem waterway_engagedFrom (w : WaterwayNo) : (s.engagedFrom h r p).waterway w = s.waterway w := by
  simp [State.engagedFrom]
@[simp] theorem waterways_engagedFrom : (s.engagedFrom h r p).waterways = s.waterways := by simp [State.engagedFrom]
@[simp] theorem converter_engagedFrom (c : ConverterNo) : (s.engagedFrom h r p).converter c = s.converter c := by
  simp [State.engagedFrom]
@[simp] theorem startQueue_engagedFrom : (s.engagedFrom h r p).startQueue = s.startQueue := by simp [State.engagedFrom]
@[simp] theorem latched_engagedFrom : (s.engagedFrom h r p).latched .orderChanged = true := (latched_raise _ _ _).trans (by simp)
@[simp] theorem linkOut_engagedFrom : (s.engagedFrom h r p).linkOut = s.linkOut := by simp [State.engagedFrom]

end

end Sys2Proof.Machine
end

section
/-! # The start arrival, case by case (R64 to R66, R73, R90, R93, R106) -/

namespace Sys2Proof.Machine

section
variable {s : State} {h : Handle} {r : Order} (free : s.named = []) (hr : s.order? h = some r) (held : r.life = .held)
include free hr held

/-- On an isolated unit the order fails (R65, R90). -/
theorem startArrival_isolated (single : r.partner = none) (last : r.successor = none) (stays : r.retirePending = false)
    (isolated : (s.unit r.unit).isolated = true) :
    (s.startArrival h).finish.order? h = some (r.into (.failed .isolated s.plantTime)) ∧
      (s.startArrival h).finish.latched .orderFailed = true := by
  obtain ⟨t, test, ends⟩ := engagementOf_isolated (s := s.madeDue h) (h := h) (r := r.into .due) (by simpa using free)
    (by simp [hr]) rfl single last stays (by simpa using isolated)
  have record := ends.record
  rw [Order.ended_last (r := r.into .due) last, plantTime_madeDue] at record
  rw [startArrival_settles free hr held test (latenessTest_notDue record (by simp [Ending.life]))]
  exact ⟨record, ends.event⟩

/-- On a unit that is not IDLE it stays DUE (R65, R67). -/
theorem startArrival_waits (now : r.start = s.plantTime) (runs : ∀ e, r.finish = some e → s.plantTime < e)
    (patient : ∀ d, r.tolerance = some d → 0 < d) (notIsolated : (s.unit r.unit).isolated = false)
    (busy : (s.unit r.unit).context ≠ .idle) : (s.startArrival h).finish = s.madeDue h := by
  have isDue : (s.madeDue h).order? h = some (r.into .due) := by simp [hr]
  have test := engagementOf_engages isDue rfl (by simpa using notIsolated)
  rw [engageFirst_busy (by simpa using busy)] at test
  refine startArrival_settles free hr held test (latenessTest_passes isDue fun _ => ⟨?_, ?_⟩)
  · show latenessReached r.start r.tolerance _ = false
    cases d : r.tolerance with
    | none => rfl
    | some n => simpa [latenessReached, now] using (patient n d).ne'
  · show endReached r.finish _ = false
    cases f : r.finish with
    | none => rfl
    | some e => simpa [endReached] using runs e f

variable (runs : ∀ e, r.finish = some e → s.plantTime < e) (notIsolated : (s.unit r.unit).isolated = false)
  (idle : (s.unit r.unit).context = .idle) (noDue : ∀ k q, s.order? k = some q → q.unit = r.unit → q.life ≠ .due)
include runs notIsolated idle noDue

/-- While no converter is FREE a PUMP or CONDENSE_P order waits for one (R66, R93). -/
theorem startArrival_queues (pumping : r.mode = .pump ∨ r.mode = .condenseP) (busy : ∀ c, (s.converter c).state ≠ .free) :
    (s.startArrival h).finish = ((s.madeDue h).engagedFrom h r .queuedConverter).withStart
      { handle := h, unit := r.unit, cls := r.cls, start := r.start } := by
  have phase : s.firstPhase r = .queuedConverter := by
    unfold State.firstPhase
    rcases pumping with m | m <;> rw [m] <;> rfl
  exact startArrival_engages free hr held runs notIsolated idle noDue phase
    (joinStartQueue_busy (by simpa using busy) h (r.into .due)) (by simp [hr])

/-- Under a gate that is SPACING an order whose first phase is AWAITING_GATE waits there (R66, R73, R106). -/
theorem startArrival_awaitsGate (phase : s.firstPhase r = .awaitingGate)
    (spaced : (s.waterway (s.unit r.unit).waterway).spacing.isSome = true) : ∃ t : State, (s.startArrival h).finish = t ∧
      t.order? h = some (r.into (.starting .awaitingGate)) ∧ (t.unit r.unit).context = .engaged ∧
      t.latched .orderChanged = true ∧
      ∀ e, e ∈ (t.waterway (s.unit r.unit).waterway).queue ↔ e ∈ (s.waterway (s.unit r.unit).waterway).queue ∨
        e = { handle := h, unit := r.unit, kind := .start, cls := r.cls,
              rank := (s.waterway (s.unit r.unit).waterway).nextRank } := by
  have joined := joinGate_spaced (s := (s.madeDue h).engagedFrom h r .awaitingGate) (r := r.into .due) (by simpa using spaced) h
    .start
  refine ⟨_, startArrival_engages free hr held runs notIsolated idle noDue phase joined (by simp [hr]), by simp [hr], by simp,
    by simp, fun e => ?_⟩
  simp [(insertGate_perm _ _).mem_iff, or_comm]

/-- The GENERATE leg of a PUMP leg that is not RUNNING waits for it without a queue entry (R66, R73). -/
theorem startArrival_pairHold (phase : s.firstPhase r = .pairHold) :
    (s.startArrival h).finish = (s.madeDue h).engagedFrom h r .pairHold :=
  startArrival_engages free hr held runs notIsolated idle noDue phase rfl (by simp [hr])

end

/-- The first phase of a GENERATE leg hangs on its PUMP leg (R73, Table 4-1). -/
theorem firstPhase_genLeg {s : State} {h g : Handle} {r q : Order} (pair : s.IsPair h g r q) :
    s.firstPhase q = if r.life = .running then .awaitingGate else .pairHold := by
  unfold State.firstPhase
  rw [pair.genMode, pair.genPartner]
  simp [Mode.pumpDirection, pair.pumpLeg]

/-- Settles O36: DUE, then the engagement test, which fails the order, finds its unit busy or engages it in its first phase. -/
theorem startArrivalTaken : Obligations.StartArrivalTaken := by
  refine ⟨fun s h r due mode free hr held now runs patient single last stays => ?_,
    fun s h g r q due mode free pair held now runs patient notIsolated idle noDue => ?_⟩
  · have taken := exec_startArrival due mode hr now
    have found : (s.takes (.startArrival h)).order? h = some r := hr
    have free : (s.takes (.startArrival h)).named = [] := free
    refine ⟨fun isolated => ⟨_, taken, startArrival_isolated free found held single last stays isolated⟩,
      fun notIsolated busy => ?_, fun notIsolated idle noDue => ⟨fun pumping noFree => ?_, fun generating spaced => ?_⟩⟩
    · rw [taken, startArrival_waits free found held now runs patient notIsolated busy, State.madeDue, modOrder_eq found]
      rfl
    · rw [startArrival_queues free found held runs notIsolated idle noDue pumping noFree] at taken
      exact ⟨_, taken, by simp [hr]; rfl, by simp, by simp, fun e => by rw [mem_withStart]; simp [or_comm]⟩
    · obtain ⟨t, result, facts⟩ := startArrival_awaitsGate free found held runs notIsolated idle noDue (by
        unfold State.firstPhase
        rw [single]
        rcases generating with m | m <;> rw [m] <;> rfl) spaced
      exact ⟨t, taken.trans (congrArg _ result), facts⟩
  · have taken := exec_startArrival due mode pair.genLeg now
    have found : (s.takes (.startArrival g)).order? g = some q := pair.genLeg
    have free : (s.takes (.startArrival g)).named = [] := free
    have phase : (s.takes (.startArrival g)).firstPhase q = if r.life = .running then .awaitingGate else .pairHold :=
      firstPhase_genLeg (pair.takes _)
    refine ⟨fun waits => ?_, fun running spaced => ?_⟩
    · rw [startArrival_pairHold free found held runs notIsolated idle noDue (phase.trans (if_neg waits))] at taken
      exact ⟨_, taken, by simp [pair.genLeg]; rfl, by simp, by simp; rfl, by simp, by simp⟩
    · obtain ⟨t, result, record, context, -, queue⟩ := startArrival_awaitsGate free found held runs notIsolated idle noDue
        (phase.trans (if_pos running)) spaced
      exact ⟨t, taken.trans (congrArg _ result), record, context, _, (queue _).2 (.inr rfl), rfl, rfl, rfl⟩

end Sys2Proof.Machine
end

section
/-! # The lateness arrival (R67, R82) -/

namespace Sys2Proof.Machine

/-! ## The lateness test (R67) -/

section
variable {s : State} {h : Handle} {r : Order}

theorem exec_latenessArrival {d : Nat} (due : DueEvent.latenessArrival h ∈ s.due) (mode : s.mode = .dispatch)
    (hr : s.order? h = some r) (tolerance : r.tolerance = some d) (now : r.start + d = s.plantTime) :
    exec (.latenessArrival h) s = .next ((s.takes (.latenessArrival h)).latenessTest h).finish := by
  have acts := arrives_now (s := s.takes (.latenessArrival h)) (at_ := Order.latenessTime) mode hr
    (by simp [Order.latenessTime, tolerance, now])
  rw [exec_event rfl, takeDue_quiet due, DueEvent.effect, if_pos acts]

/-- A DUE order whose time is over fails, unless an order in STARTING or RUNNING names it as its successor (R67). -/
theorem latenessTest_fails (free : s.named = []) (hr : s.order? h = some r) (due : r.life = .due) (stays : r.retirePending = false)
    (late : latenessReached r.start r.tolerance s.plantTime = true ∨ endReached r.finish s.plantTime = true)
    (notExempt : s.exemptFromLateness h = false) :
    ∃ t, s.latenessTest h = (t, endTasks r false) ∧ s.EndsIn t h r (.failed .late) := by
  refine ⟨_, ?_, endsIn_closed free hr stays (.failed .late)⟩
  unfold State.latenessTest
  rw [hr]
  dsimp only
  rw [if_pos ⟨due, late, by simp [notExempt]⟩, endOrder_waiting hr (by rw [due]; rfl) (by rw [due]; rfl)]

theorem latenessTest_exempt (hr : s.order? h = some r) (exempt : s.exemptFromLateness h = true) : s.latenessTest h = (s, []) := by
  unfold State.latenessTest
  rw [hr]
  dsimp only
  rw [if_neg fun fails => fails.2.2 exempt]

/-- No record names an order that has failed (R13). -/
theorem State.EndsIn.unnamed {t : State} {c : FailCause} (ends : s.EndsIn t h r (.failed c)) {k : Handle} {q : Order}
    (hq : t.order? k = some q) : q.successor ≠ some h := by
  by_cases same : k = h
  · subst same
    cases ends.record.symm.trans hq
    simp [Order.ended, Ending.unlinks]
  · rw [ends.others k same] at hq
    obtain ⟨y, -, rfl⟩ := Option.map_eq_some_iff.1 hq
    unfold Order.afterEnding Order.unlinkedFrom
    rw [if_pos (show (Ending.failed c).unlinks = true from rfl)]
    split
    · simp
    · assumption

/-! ## The partner of a leg that has ended (R82) -/

/-- The tasks of an ending of an order without a link (R67, R82). -/
theorem endTasks_last (last : r.successor = none) (toIdle : Bool) :
    endTasks r toIdle = (if toIdle then [.engagement r.unit] else []) ++ (r.partner.map Task.partnerEnded).toList := by
  unfold endTasks
  rw [last]
  cases r.partner <;> simp

/-- The HELD or DUE partner of a leg that has ended is DONE with cause PARTNER (R82). -/
theorem partnerEnded_waiting (free : s.named = []) (hr : s.order? h = some r) (waits : r.life = .held ∨ r.life = .due)
    (stays : r.retirePending = false) :
    ∃ t, s.runTask (.partnerEnded h) = (t, endTasks r false) ∧ s.EndsIn t h r (.done .partner) := by
  refine ⟨_, ?_, endsIn_closed free hr stays (.done .partner)⟩
  have ends : r.endsWithPartner = true := by unfold Order.endsWithPartner; rcases waits with l | l <;> rw [l]
  show s.treatPartner h = _
  unfold State.treatPartner
  rw [hr]
  dsimp only
  rw [if_pos ends, endOrder_waiting hr] <;> rcases waits with l | l <;> rw [l] <;> rfl

/-- A partner that is STOPPING or has ended, and awaits no stop, is not touched (R82). -/
theorem partnerEnded_stopped (hr : s.order? h = some r) (stopped : r.life.isStopping = true ∨ r.life.live = false)
    (none : r.awaited = none) : s.runTask (.partnerEnded h) = (s, []) := by
  have stays : r.endsWithPartner = false ∧ r.life.isStarting = false ∧ r.life ≠ .running := by
    revert stopped
    unfold Order.endsWithPartner
    cases r.life <;> simp [Life.isStopping, Life.isStarting, Life.live, Life.engaged]
  show s.treatPartner h = _
  unfold State.treatPartner State.beginStop
  rw [hr]
  dsimp only
  rw [none, if_neg (by simp [stays.1])]
  dsimp only
  rw [if_neg (by simp [stays.2])]

end

/-- A DUE leg that is late, and its HELD or DUE partner with it (R67, R82). -/
theorem latenessTest_pair {s : State} {h g : Handle} {r q : Order} (free : s.named = []) (pair : s.IsPair h g r q ∨ s.IsPair g h q r)
    (due : r.life = .due) (stays : r.retirePending = false) (none : r.awaited = none)
    (late : latenessReached r.start r.tolerance s.plantTime = true) (notExempt : s.exemptFromLateness h = false)
    (waits : q.life = .held ∨ q.life = .due) (stays' : q.retirePending = false) :
    ∃ t, (s.latenessTest h).finish = t ∧ t.order? h = some (r.into (.failed .late s.plantTime)) ∧
      t.order? g = some (q.into (.done .partner s.plantTime)) ∧ t.latched .orderFailed = true ∧ t.latched .orderDone = true := by
  obtain ⟨hr, hq, partner, partner', last, last', distinct⟩ : s.order? h = some r ∧ s.order? g = some q ∧ r.partner = some g ∧
      q.partner = some h ∧ r.successor = Option.none ∧ q.successor = Option.none ∧ g ≠ h := by
    rcases pair with p | p
    · exact ⟨p.pumpLeg, p.genLeg, p.pumpPartner, p.genPartner, p.pumpLink, p.genLink, p.distinct.symm⟩
    · exact ⟨p.genLeg, p.pumpLeg, p.genPartner, p.pumpPartner, p.genLink, p.pumpLink, p.distinct⟩
  obtain ⟨a, fails, leg⟩ := latenessTest_fails free hr due stays (.inl late) notExempt
  have legRecord := leg.record
  rw [Order.ended_last last] at legRecord
  have partnerRecord : a.order? g = some q := by rw [leg.others g distinct, hq, Option.map_some, Order.afterEnding_last last']
  obtain ⟨t, ends, other⟩ := partnerEnded_waiting (leg.named.trans free) partnerRecord waits stays'
  have otherRecord := other.record
  rw [Order.ended_last last', leg.plantTime] at otherRecord
  have record : t.order? h = some (r.into (.failed .late s.plantTime)) := by
    rw [other.others h distinct.symm, legRecord]
    exact congrArg some (Order.afterEnding_last (q := r.into _) last ..)
  have still := partnerEnded_stopped record (.inr rfl) none
  have failed := (kept_latched .orderFailed).toKept.runTask (.partnerEnded g) leg.event
  rw [ends] at failed
  rw [endTasks_last last', partner'] at ends
  refine ⟨t, ?_, record, otherRecord, failed, other.event⟩
  rw [fails, endTasks_last last, partner]
  exact Settles.finish (.step ends (.step still .done))

/-- Settles O38: the lateness test of the order, and for a leg the treatment of its partner. -/
theorem latenessArrivalTaken : Obligations.LatenessArrivalTaken := by
  refine ⟨fun s h r d due mode free hr tolerance now => ?_,
    fun s h g r q d due mode free pair tolerance now life stays none unnamed waits stays' => ?_⟩
  · have taken := exec_latenessArrival due mode hr tolerance now
    have found : (s.takes (.latenessArrival h)).order? h = some r := hr
    refine ⟨fun other => taken.trans (by rw [latenessTest_notDue found other]; rfl), fun life single last stays => ⟨fun alone => ?_,
      fun exempt => ?_⟩⟩
    · obtain ⟨t, fails, ends⟩ := latenessTest_fails (s := s.takes (.latenessArrival h)) free found life stays
        (.inl (by simp [latenessReached, tolerance, now])) (by
          rw [← Bool.not_eq_true, exemptFromLateness_iff]
          rintro ⟨k, q, hq, link, starting | running⟩
          · rw [(alone k q hq link).1] at starting; cases starting
          · exact (alone k q hq link).2 running)
      have record := ends.record
      rw [Order.ended_last last] at record
      rw [fails, endTasks_last last, single] at taken
      exact ⟨t, taken, record, ends.event, fun k q hq => ends.unnamed hq⟩
    · rw [taken, latenessTest_exempt found (exemptFromLateness_iff.2 exempt)]
      rfl
  · have hr : s.order? h = some r := by rcases pair with p | p <;> [exact p.pumpLeg; exact p.genLeg]
    have pair : (s.takes (.latenessArrival h)).IsPair h g r q ∨ (s.takes (.latenessArrival h)).IsPair g h q r :=
      pair.imp (·.takes _) (·.takes _)
    obtain ⟨t, result, facts⟩ := latenessTest_pair (s := s.takes (.latenessArrival h)) free pair life stays none
      (by simp [latenessReached, tolerance, now]) (by
        rw [← Bool.not_eq_true, exemptFromLateness_iff]
        rintro ⟨k, x, hx, link, -⟩
        exact unnamed k x hx link) waits stays'
    exact ⟨t, (exec_latenessArrival due mode hr tolerance now).trans (congrArg _ result), facts⟩

end Sys2Proof.Machine
end

section
/-! # The expiry of a supervision timer (R74, R83) -/

namespace Sys2Proof.Machine

section
variable {s : State} {u : UnitNo}

/-! ## A directive sent at once (R136, R138) -/

theorem ask_up (up : (s.unit u).link.state = .up) (none : (s.unit u).link.outstanding = none) (d : Directive) :
    s.ask u d = s.send u d := by
  unfold State.ask
  dsimp only
  rw [if_neg (by simp [up]), if_pos (by simp [none])]

@[simp] theorem ask_order? (d : Directive) (k : Handle) : (s.ask u d).order? k = s.order? k := by rw [ask_frame]; rfl
@[simp] theorem ask_waterway (d : Directive) (w : WaterwayNo) : (s.ask u d).waterway w = s.waterway w := by rw [ask_frame]; rfl
@[simp] theorem ask_converter (d : Directive) (c : ConverterNo) : (s.ask u d).converter c = s.converter c := by rw [ask_frame]; rfl
@[simp] theorem ask_named (d : Directive) : (s.ask u d).named = s.named := by rw [ask_frame]
@[simp] theorem ask_plantTime (d : Directive) : (s.ask u d).plantTime = s.plantTime := by rw [ask_frame]
@[simp] theorem ask_latched (d : Directive) (e : EventKind) : (s.ask u d).latched e = s.latched e :=
  latched_congr (by rw [ask_frame]) e

/-! ## The order fails by a timer -/

variable {h : Handle} {r : Order}

/-- An order that no converter serves and that has neither partner nor successor fails, and its unit is RECOVERING (R74, R83). -/
theorem endOrder_recovering (hr : s.order? h = some r) (engaged : r.life.engaged = true) (standing : r.life ≠ .running)
    (served : r.life ≠ .starting .converterRun) (single : r.partner = none) (last : r.successor = none) {c : FailCause}
    (context : (Ending.failed c).context = .recovering) :
    ∃ t, (s.endOrder h (.failed c)).finish = t ∧ s.EndsEngaged t h r (.failed c) := by
  obtain ⟨t, ends, facts⟩ := endOrder_engaged hr engaged (.inl single) (fun run => absurd run served)
    (fun run => absurd run standing) (.failed c)
  refine ⟨t, ?_, facts⟩
  rw [ends, endTasks_last last, single, context]
  rfl

/-- The expiry is the failure of the order, ABORT_START being asked for first in RUNUP (R74). -/
theorem supervisionExpired_fails (expired : (s.unit u).supervision = some 0) (engaged : s.engagedOrder u = some (h, r))
    {cause : FailCause}
    (phase : (r.life = .starting .runup ∧ cause = .startTimeout) ∨ (r.life = .starting .coasting ∧ cause = .stopTimeout) ∨
      ((∃ c, r.life = .stopping .rundown c) ∧ cause = .stopTimeout)) :
    s.supervisionExpired u =
      ((if r.life = .starting .runup then s.ask u .abortStart else s).endOrder h (.failed cause)).finish := by
  unfold State.supervisionExpired
  rw [if_pos expired, engaged]
  dsimp only
  rcases phase with ⟨life, rfl⟩ | ⟨life, rfl⟩ | ⟨⟨c, life⟩, rfl⟩ <;> simp [life]

end

/-- Settles O39: the order fails, and its unit is left without its working values. -/
theorem supervisionExpiryTaken : Obligations.SupervisionExpiryTaken := by
  intro s u h r due expired free engaged single last stays cause phase
  obtain ⟨hr, rfl, live⟩ := engagedOrder_some engaged
  have taken : exec (.supervisionTimerExpiry r.unit) s = .next ((s.takes (.supervision r.unit)).supervisionExpired r.unit) := by
    rw [exec_event rfl, takeDue_quiet due]
    rfl
  have taken := taken.trans (congrArg _ (supervisionExpired_fails (s := s.takes (.supervision r.unit)) expired engaged phase))
  have context : (Ending.failed cause).context = .recovering := by rcases phase with ⟨-, rfl⟩ | ⟨-, rfl⟩ | ⟨-, rfl⟩ <;> rfl
  have unserved : r.life ≠ .running ∧ r.life ≠ .starting .converterRun := by
    rcases phase with ⟨l, -⟩ | ⟨l, -⟩ | ⟨⟨_, l⟩, -⟩ <;> simp [l]
  generalize ha : (if r.life = .starting .runup then (s.takes (.supervision r.unit)).ask r.unit .abortStart
    else s.takes (.supervision r.unit)) = a at taken
  have order : a.order? h = some r := by rw [← ha]; split <;> simp [hr]
  have names : a.named = [] := by rw [← ha]; split <;> simp [free]
  have time : a.plantTime = s.plantTime := by rw [← ha]; split <;> simp
  obtain ⟨t, result, ends⟩ := endOrder_recovering order live unserved.1 unserved.2 single last context
  rw [result] at taken
  obtain ⟨record, -, event, -, -⟩ := ends.table names stays
  rw [Order.ended_last last, time] at record
  obtain ⟨_, _, _, _, unit⟩ := ends.own
  refine ⟨t, taken, record, event, by rw [unit]; exact context, by rw [unit], by rw [unit], by rw [unit], by rw [unit],
    fun runup up none => ?_, fun other => ?_⟩
  · rw [ends.linkOut, ← ha, if_pos runup, ask_up (by simpa using up) (by simpa using none), send_linkOut]
    simp
  · rw [ends.linkOut, ← ha, if_neg other]
    simp

end Sys2Proof.Machine
end

section
/-! # Requests on units: ISOLATE, RESTORE and HALT_UNIT (R89, R90, R111) -/

namespace Sys2Proof.Machine

/-! ## The requests -/

section
variable {s : State} {tag : Byte} {body : List Byte} {u : UnitNo} (length : body.length = 1) (named : byteAt body 0 = BitVec.ofNat 8 u)
include length named

theorem exec_isolate (mode : s.mode = .dispatch) :
    exec (.isolate tag body) s = .next (s.delivered 8 tag 6 ((s.frameEnded (requestFrame 8 tag body)).isolateUnit u)) := by
  have carried := exec_carried (c := .isolate tag body) rfl (s := s) (by rw [mode]; rfl) length
  simpa only [ownerOf, named, unitOf_some, withField, length] using carried

theorem exec_restore (mode : s.mode = .dispatch) :
    exec (.restore tag body) s = .next (s.delivered 9 tag 6 ((s.frameEnded (requestFrame 9 tag body)).restoreUnit u)) := by
  have carried := exec_carried (c := .restore tag body) rfl (s := s) (by rw [mode]; rfl) length
  simpa only [ownerOf, named, unitOf_some, withField, length] using carried

theorem exec_haltUnit :
    exec (.haltUnit tag body) s = .next (s.delivered 10 tag 6 ((s.frameEnded (requestFrame 10 tag body)).halt u)) := by
  have carried := exec_carried (c := .haltUnit tag body) rfl (s := s) (by cases s.mode <;> rfl) length
  simpa only [ownerOf, named, unitOf_some, withField, length] using carried

end

section
variable {s : State} {u : UnitNo}

/-- What an owner that writes one unit leaves (R176). -/
theorem answered_modUnit {kind : Nat} {tag : Byte} {n : Nat} {res : Result} {out bytes : List Byte} (f : UnitBlock → UnitBlock) :
    s.answered kind tag n res out ((s.frameEnded bytes).modUnit u f) =
      s.answered kind tag n res out (s.taken.setUnit u (f (s.unit u))) := by
  unfold State.modUnit
  rw [frameEnded_unit]
  exact answered_congr (by rw [frameEnded_eq]; rfl)

/-! ## ISOLATE (R90) -/

theorem isolateUnit_busy (busy : (s.unit u).context = .engaged ∨ (s.unit u).context = .recovering) :
    s.isolateUnit u = .refused .busy := if_pos busy

/-- The state with the unit isolated (R90). -/
def State.isolating (s : State) (u : UnitNo) : State := s.modUnit u fun b => { b with isolated := true }

section
variable (notEngaged : (s.unit u).context ≠ .engaged) (notRecovering : (s.unit u).context ≠ .recovering)
include notEngaged notRecovering

theorem isolateUnit_eq : s.isolateUnit u = .ok ((s.isolating u).engagementTest u).finish [] :=
  if_neg (by simp [notEngaged, notRecovering])

/-- Without a DUE order the flag alone is set. -/
theorem isolateUnit_noDue (noDue : ∀ k q, s.order? k = some q → q.unit = u → q.life ≠ .due) :
    s.isolateUnit u = .ok (s.isolating u) [] := by
  have idle : (s.isolating u).engagementTest u = (s.isolating u, []) := engagement_idle (s := s.isolating u) noDue
  rw [isolateUnit_eq notEngaged notRecovering, idle]
  rfl

end

/-- The one DUE order of a unit stands alone in its list. -/
theorem dueOrders_single {h : Handle} {r : Order} (hr : s.order? h = some r) (due : r.life = .due)
    (only : ∀ k q, s.order? k = some q → q.unit = r.unit → q.life = .due → k = h) :
    ∃ q rest, s.dueOrders r.unit = (h, q) :: rest := by
  have member : (h, r) ∈ s.dueOrders r.unit :=
    List.mem_filter.2 ⟨mem_chain.2 ⟨hr, rfl, by rw [due]; rfl⟩, by simp [due]⟩
  cases list : s.dueOrders r.unit with
  | nil => rw [list] at member; cases member
  | cons p rest =>
    have first : p ∈ s.dueOrders r.unit := by rw [list]; exact List.mem_cons_self
    obtain ⟨inChain, life⟩ := List.mem_filter.1 first
    obtain ⟨hp, unit, -⟩ := mem_chain.1 inChain
    obtain rfl := only p.1 p.2 hp unit (by simpa using life)
    exact ⟨p.2, rest, rfl⟩

/-- On an isolated unit the one DUE order fails (R65, R90). -/
theorem engagementTest_isolated {h : Handle} {r : Order} (free : s.named = []) (hr : s.order? h = some r) (due : r.life = .due)
    (single : r.partner = none) (last : r.successor = none) (stays : r.retirePending = false)
    (only : ∀ k q, s.order? k = some q → q.unit = r.unit → q.life = .due → k = h) (isolated : (s.unit r.unit).isolated = true) :
    ∃ t, (s.engagementTest r.unit).finish = t ∧ (t.unit r.unit).isolated = true ∧ s.EndsIn t h r (.failed .isolated) := by
  obtain ⟨q, rest, list⟩ := dueOrders_single hr due only
  have ends := endsIn_closed free hr stays (.failed .isolated)
  have fails := endOrder_waiting hr (by rw [due]; rfl) (by rw [due]; rfl) (.failed .isolated)
  have test : s.engagementTest r.unit = (((if (Ending.failed .isolated).unlinks then s.unlink h else s).closeOrder h
      (.failed .isolated)), [.engagement r.unit]) := by
    unfold State.engagementTest
    rw [if_pos isolated, list]
    dsimp only
    rw [fails, endTasks_last last, single]
    rfl
  have rests := engagement_idle (ends.noDue only)
  rw [test, finish_of_idle rests]
  exact ⟨_, rfl, by rw [closeOrder_unit]; split <;> simp [isolated], ends⟩

/-! ## HALT_UNIT (R89, R111) -/

/-- What a halt leaves: TO_STANDSTILL sent, the gate SPACING afresh, the unit RECOVERING. -/
structure State.Halts (s t : State) (u : UnitNo) : Prop where
  context : (t.unit u).context = .recovering
  outstanding : (t.unit u).link.outstanding = some .toStandstill
  sent : (u, .directive (s.unit u).link.toggle .toStandstill) ∈ t.linkOut
  spacing : (t.waterway (s.unit u).waterway).spacing = some (s.waterway (s.unit u).waterway).spacingTime

@[simp] theorem tellHalt_order? (k : Handle) : (s.tellHalt u).order? k = s.order? k := rfl
@[simp] theorem tellHalt_unit (v : UnitNo) : (s.tellHalt u).unit v = s.unit v := rfl
@[simp] theorem tellHalt_converter (c : ConverterNo) : (s.tellHalt u).converter c = s.converter c := rfl
@[simp] theorem tellHalt_named : (s.tellHalt u).named = s.named := rfl
@[simp] theorem tellHalt_plantTime : (s.tellHalt u).plantTime = s.plantTime := rfl

/-- A gate told of a halt is SPACING (R111). -/
theorem tellHalt_spacing (spaced : 0 < (s.waterway (s.unit u).waterway).spacingTime) :
    ((s.tellHalt u).waterway (s.unit u).waterway).spacing = some (s.waterway (s.unit u).waterway).spacingTime := by
  unfold State.tellHalt State.tripGate
  rw [waterway_modWaterway, if_pos rfl]
  exact if_neg spaced.ne'

/-- TO_STANDSTILL goes out at once on a link that is UP and awaits no acknowledgement (R136, R138). -/
theorem halts_ask {a : State} (link : (a.unit u).link = (s.unit u).link) (context : (a.unit u).context = .recovering)
    (spacing : (a.waterway (s.unit u).waterway).spacing = some (s.waterway (s.unit u).waterway).spacingTime)
    (up : (s.unit u).link.state = .up) (ready : (s.unit u).link.outstanding = none) : s.Halts (a.ask u .toStandstill) u := by
  rw [ask_up (by rw [link, up]) (by rw [link, ready])]
  exact ⟨by rw [unit_send, if_pos rfl]; exact context, by simp, by rw [send_linkOut, link]; simp, spacing⟩

section
variable (up : (s.unit u).link.state = .up) (ready : (s.unit u).link.outstanding = none)
  (spaced : 0 < (s.waterway (s.unit u).waterway).spacingTime)
include up ready spaced

/-- A halt of a unit that is not ENGAGED (R89). -/
theorem halt_turning (turning : (s.unit u).context = .orphan ∨ (s.unit u).context = .recovering) :
    ∃ t, s.halt u = .ok t [] ∧ s.Halts t u := by
  unfold State.halt
  rcases turning with context | context <;> rw [context]
  · have asked : (s.tellHalt u).ask u .toStandstill = (s.tellHalt u).send u .toStandstill := ask_up (by simpa) (by simpa) _
    dsimp only
    rw [asked]
    refine ⟨_, rfl, ⟨by simp [unit_setContext], by simp [unit_setContext], ?_, ?_⟩⟩
    · simp
    · rw [setContext_waterway]
      exact tellHalt_spacing spaced
  · exact ⟨_, rfl, halts_ask rfl context (tellHalt_spacing spaced) up ready⟩

/-- A halt of an ENGAGED unit: its order fails (R89). -/
theorem halt_engaged {h : Handle} {r : Order} (context : (s.unit u).context = .engaged) (engaged : s.engagedOrder u = some (h, r))
    (single : r.partner = none) (last : r.successor = none) (served : r.life ≠ .starting .converterRun) :
    ∃ t, s.halt u = .ok t [] ∧ s.Halts t u ∧
      (s.named = [] → r.retirePending = false → t.order? h = some (r.into (.failed .halted s.plantTime)) ∧
        t.latched .orderFailed = true) := by
  obtain ⟨hr, rfl, live⟩ := engagedOrder_some engaged
  have told := tellHalt_spacing spaced
  have found : (s.tellHalt r.unit).order? h = some r := hr
  obtain ⟨a, fails, ends⟩ := endOrder_engaged found live (.inl single) (fun run => absurd run served)
    (fun _ => by rw [tellHalt_unit, told]; rfl) (.failed .halted)
  obtain ⟨_, _, _, _, unit⟩ := ends.own
  refine ⟨a.ask r.unit .toStandstill, ?_, halts_ask (by rw [unit]; rfl) (by rw [unit]; rfl) ?_ up ready, fun free stays => ?_⟩
  · unfold State.halt State.haltEngaged
    rw [context, engaged]
    dsimp only
    rw [fails, endTasks_last last, single]
    rfl
  · rw [ends.spacing, told]
  · obtain ⟨record, -, event, -, -⟩ := ends.table free stays
    rw [Order.ended_last last] at record
    exact ⟨(ask_order? ..).trans record, (ask_latched ..).trans event⟩

end

end

/-- Settles O53: each request by the context of its unit. -/
theorem unitRequestsTaken : Obligations.UnitRequestsTaken := by
  refine ⟨fun s tag body u mode length named => ⟨fun busy => ?_, fun notEngaged notRecovering => ⟨fun noDue => ?_,
    fun h r free hr unit due single last stays only => ?_⟩, ?_⟩, fun s tag body u length named => ⟨fun away => ?_, fun idle => ?_,
    fun up ready spaced turning => ?_⟩⟩
  · rw [exec_isolate length named mode, isolateUnit_busy (by simpa using busy)]
    rfl
  · rw [exec_isolate length named mode,
      isolateUnit_noDue (by simpa using notEngaged) (by simpa using notRecovering) (by simpa using noDue)]
    exact congrArg _ (answered_modUnit _)
  · subst unit
    let a := s.frameEnded (requestFrame 8 tag body)
    obtain ⟨t, test, isolated, ends⟩ := engagementTest_isolated (s := a.isolating r.unit) (h := h) (r := r)
      (by simpa [a, State.isolating] using free) (by simpa [a, State.isolating] using hr) due single last stays
      (by simpa [a, State.isolating] using only) (by simp [State.isolating])
    have record := ends.record
    rw [Order.ended_last last,
      show (a.isolating r.unit).plantTime = s.plantTime from frameEnded_plantTime s (requestFrame 8 tag body)] at record
    rw [exec_isolate length named mode, isolateUnit_eq (by simpa using notEngaged) (by simpa using notRecovering), test]
    exact ⟨t, rfl, isolated, record, ends.event⟩
  · rw [exec_restore length named mode]
    exact congrArg _ (answered_modUnit _)
  · have refused : (s.frameEnded (requestFrame 10 tag body)).halt u = .refused .unitUnavailable := by
      unfold State.halt
      rw [frameEnded_unit]
      rcases away with c | c | c <;> rw [c]
    rw [exec_haltUnit length named, refused]
    rfl
  · have rests : (s.frameEnded (requestFrame 10 tag body)).halt u = .ok (s.frameEnded (requestFrame 10 tag body)) [] := by
      unfold State.halt
      rw [frameEnded_unit, idle]
    rw [exec_haltUnit length named, rests]
    exact congrArg _ (answered_frameEnded ..)
  · let a := s.frameEnded (requestFrame 10 tag body)
    have same : a.unit u = s.unit u := frameEnded_unit ..
    have water : a.waterway (a.unit u).waterway = s.waterway (s.unit u).waterway := by simp [a]
    obtain ⟨t, result, halts, fails⟩ : ∃ t, a.halt u = .ok t [] ∧ a.Halts t u ∧ ∀ h r, (s.unit u).context = .engaged →
        s.engagedOrder u = some (h, r) → s.named = [] → r.retirePending = false →
        t.order? h = some (r.into (.failed .halted s.plantTime)) ∧ t.latched .orderFailed = true := by
      have up : (a.unit u).link.state = .up := by rw [same, up]
      have ready : (a.unit u).link.outstanding = none := by rw [same, ready]
      have spaced : 0 < (a.waterway (a.unit u).waterway).spacingTime := by rw [water]; exact spaced
      rcases or_assoc.2 turning with unserved | ⟨context, h, r, engaged, single, last, served⟩
      · obtain ⟨t, result, halts⟩ := halt_turning up ready spaced (by rw [same]; exact unserved)
        exact ⟨t, result, halts, fun _ _ engaged => by rcases unserved with c | c <;> rw [c] at engaged <;> cases engaged⟩
      · have found : a.engagedOrder u = some (h, r) := by rw [← engaged]; simp [a, State.engagedOrder]
        obtain ⟨t, result, halts, fails⟩ := halt_engaged up ready spaced (by rw [same, context]) found single last served
        refine ⟨t, result, halts, fun k q _ same free stays => ?_⟩
        cases engaged.symm.trans same
        have facts := fails (by simpa [a] using free) stays
        rwa [show a.plantTime = s.plantTime from frameEnded_plantTime s (requestFrame 10 tag body)] at facts
    obtain ⟨context, outstanding, sent, spacing⟩ := halts
    rw [water, same] at spacing
    rw [same] at sent
    rw [exec_haltUnit length named, result]
    exact ⟨t, rfl, context, outstanding, sent, spacing, fails⟩

end Sys2Proof.Machine
end

section
/-! # The stop of a RUNNING order, outside a request and under a gate that is SPACING (R75, R76, R81) -/

namespace Sys2Proof.Machine

/-! ## What a stop begun leaves -/

/-- The stop of an order has begun: the record is in STOPPING, and beside it contributions, live net flows and a gate's queue
alone differ (R75, R76). -/
structure State.StopBegins (s t : State) (h : Handle) (r : Order) (p : StopPhase) (c : DoneCause) : Prop where
  record : t.order? h = some (r.into (.stopping p c))
  others : ∀ k, k ≠ h → t.order? k = s.order? k
  unit : ∀ v, ∃ q sat, t.unit v = { s.unit v with contribution := q, saturated := sat }
  spacing : ∀ w, (t.waterway w).spacing = (s.waterway w).spacing
  event : t.latched .orderChanged = true
  named : t.named = s.named
  plantTime : t.plantTime = s.plantTime

/-- The gate's queue holds the STOP entry of the order (R106). -/
def State.AwaitsStop (s t : State) (h : Handle) (r : Order) : Prop :=
  ∃ e ∈ (t.waterway (s.unit r.unit).waterway).queue, e.handle = h ∧ e.kind = .stop ∧ e.unit = r.unit

section
variable {s t : State} {h : Handle} {r : Order} {p : StopPhase} {c : DoneCause}

theorem State.StopBegins.home (stops : s.StopBegins t h r p c) (v : UnitNo) : (t.unit v).waterway = (s.unit v).waterway := by
  obtain ⟨_, _, e⟩ := stops.unit v; rw [e]

theorem State.StopBegins.spaced (stops : s.StopBegins t h r p c) {v : UnitNo}
    (spaced : (s.waterway (s.unit v).waterway).spacing.isSome = true) : (t.waterway (t.unit v).waterway).spacing.isSome = true := by
  rw [stops.home, stops.spacing, spaced]

/-- A STOP entry that joins a gate that is SPACING changes its queue alone (R107, R109). -/
theorem State.StopBegins.joins (stops : s.StopBegins t h r p c) (spaced : (s.waterway (s.unit r.unit).waterway).spacing.isSome = true) :
    s.StopBegins (t.joinGate h r .stop) h r p c ∧ s.AwaitsStop (t.joinGate h r .stop) h r := by
  have joined := exists_mem_joinGate (stops.spaced spaced) h .stop
  rw [stops.home] at joined
  refine ⟨?_, joined⟩
  rw [joinGate_spaced (stops.spaced spaced)]
  refine ⟨stops.record, stops.others, stops.unit, fun w => ?_, stops.event, stops.named, stops.plantTime⟩
  rw [waterway_modWaterway, ← stops.spacing]
  split
  · next same => subst same; rfl
  · rfl

section
variable (free : s.named = []) (hr : s.order? h = some r)
  (spaced : (s.waterway (s.unit r.unit).waterway).spacing.isSome = true)
include free hr spaced

/-- The record entered in STOPPING, and the contribution recomputed before a STOP entry joins (log entry 49). -/
theorem stopBegins_recomputed (p : StopPhase) (c : DoneCause) :
    s.StopBegins ((s.enter h (.stopping p c) .orderChanged).recompute r.unit) h r p c := by
  rw [enter_unnamed free]
  have same := State.OnlyFlows.recompute (s := (s.modOrder h (·.into (.stopping p c))).raise .orderChanged) (u := r.unit)
    (by simpa using spaced)
  refine ⟨(same.order h).trans (by simp [hr]), fun k other => (same.order k).trans (by simp [other]), fun v => ?_,
    fun w => (same.spacing w).trans (by simp), (same.latched _).trans (by simp), same.named.trans (by simp),
    same.plantTime.trans (by simp)⟩
  obtain ⟨q, sat, unit⟩ := same.unit v
  exact ⟨q, sat, unit.trans (by simp)⟩

variable (running : r.life = .running)
include running

/-- A RUNNING GENERATE order above Pmin unloads (R76, Table 4-3). -/
theorem stopEffect_unloads {p : Nat} {x : Capability} (generate : r.mode = .generate) (setpoint : (s.unit r.unit).setpoint = some p)
    (record : (s.unit r.unit).link.current = some x) (above : x.pmin < p) (c : DoneCause) :
    ∃ t, s.stopEffect h r c = (t, []) ∧ s.StopBegins t h r .unloading c := by
  have stops := stopBegins_recomputed free hr spaced .unloading c
  obtain ⟨_, _, unit⟩ := stops.unit r.unit
  have loaded := atPmin_of_above (u := r.unit) (by rw [unit]; exact setpoint) (by rw [unit]; exact record) above
  refine ⟨_, ?_, stops⟩
  unfold State.stopEffect
  rw [running]
  dsimp only
  rw [if_pos generate, if_pos generate, if_neg (by rw [Bool.not_eq_true]; exact loaded)]

/-- Any other RUNNING order waits at the gate with a STOP entry (R76, Table 4-3). -/
theorem stopEffect_awaitsGate (other : r.mode ≠ .generate) (c : DoneCause) :
    ∃ t, s.stopEffect h r c = (t, []) ∧ s.StopBegins t h r .awaitingGate c ∧ s.AwaitsStop t h r := by
  refine ⟨_, ?_, (stopBegins_recomputed free hr spaced .awaitingGate c).joins spaced⟩
  unfold State.stopEffect
  rw [running]
  dsimp only
  rw [if_neg other, if_neg other]

end

/-! ## When a stop begins (R75, R81) -/

theorem stopNow_running (hr : s.order? h = some r) (running : r.life = .running) (c : DoneCause) :
    s.stopNow h c = ((s.stopEffect h r c).1, (s.stopEffect h r c).2 ++ stopTasks r) := by
  unfold State.stopNow
  rw [hr]
  dsimp only
  rw [running]

/-- The stop of a RUNNING order that no GENERATE leg defers begins at once (R81). -/
theorem beginStop_atOnce (hr : s.order? h = some r) (running : r.life = .running) (undeferred : s.deferringLeg r = none)
    (c : DoneCause) : s.beginStop h c = ((s.stopEffect h r c).1, (s.stopEffect h r c).2 ++ stopTasks r) := by
  unfold State.beginStop
  rw [hr]
  dsimp only
  rw [if_pos (by simp [running]), undeferred]
  exact stopNow_running hr running c

/-- The stop of a RUNNING PUMP leg is awaited while its GENERATE leg turns (R81). -/
theorem beginStop_deferred {g : Handle} {q : Order} (pair : s.IsPair h g r q) (running : r.life = .running)
    (turns : q.life.onLine = true ∨ q.life.isStopping = true) {c : DoneCause} (noRecheck : c ≠ .capability) :
    s.beginStop h c = (s.modOrder h fun r => { r with awaited := some (r.awaited.getD c) }, []) := by
  have defers : s.deferringLeg r = some (g, q) := by
    unfold State.deferringLeg
    rw [pair.pumpMode, pair.pumpPartner]
    dsimp only
    rw [pair.genLeg]
    exact if_pos (by simpa using turns)
  unfold State.beginStop
  rw [pair.pumpLeg]
  dsimp only
  rw [if_pos (by simp [running]), defers]
  exact if_neg noRecheck

theorem deferringLeg_notPump (other : r.mode ≠ .pump) : s.deferringLeg r = none := by
  unfold State.deferringLeg
  split
  · next pump _ => exact absurd pump other
  · rfl

theorem deferringLeg_single (single : r.partner = none) : s.deferringLeg r = none := by
  unfold State.deferringLeg
  split
  · next partner => rw [single] at partner; cases partner
  · rfl

theorem deferringLeg_pair {g : Handle} {q : Order} (pumpPartner : r.partner = some g) (hq : s.order? g = some q)
    (stands : q.life.onLine = false ∧ q.life.isStopping = false) : s.deferringLeg r = none := by
  unfold State.deferringLeg
  split
  · next k partner =>
    cases pumpPartner.symm.trans partner
    rw [hq]
    exact if_neg (by simp [stands])
  · rfl

/-- The stop of an order without a link has the treatment of a GENERATE leg as its one consequence (R81, R82). -/
theorem stopTasks_last (last : r.successor = none) :
    stopTasks r = if r.mode = .pump then (r.partner.map Task.pumpStopped).toList else [] := by
  unfold stopTasks
  rw [last]
  cases r.mode <;> cases r.partner <;> rfl

end

/-! ## A setpoint and the records (R114) -/

/-- A setpoint set leaves a record that is not RUNNING, or has another target, as it stands (R114). -/
theorem order?_commitSetpoint {s : State} {u : UnitNo} {p : Nat} {k : Handle} {r : Order}
    (spaced : (s.waterway (s.unit u).waterway).spacing.isSome = true) (hr : s.order? k = some r)
    (keeps : r.life ≠ .running ∨ r.target ≠ p) : (s.commitSetpoint u p).order? k = some r := by
  let set := s.modUnit u fun b => { b with setpoint := some p }
  have cleared : (set.clearCurtailed u p).order? k = some r := by
    unfold State.clearCurtailed
    split
    · next h q engaged =>
      split
      · next now =>
        rw [order?_modOrder, if_neg ?_]
        · exact hr
        · rintro rfl
          cases hr.symm.trans (engagedOrder_some engaged).1
          rcases keeps with life | target
          · exact life now.1
          · exact target now.2
      · exact hr
    · exact hr
  have still := (State.SameButPower.modUnit (s := s) u (f := fun b => { b with setpoint := some p })
    fun _ => ⟨rfl, rfl, rfl⟩).trans (.clearCurtailed set u p)
  unfold State.commitSetpoint
  rw [ask_order?, (sameButFlow_recompute (still.spaced spaced)).order]
  exact cleared

end Sys2Proof.Machine
end

section
/-! # The end arrival (R68, R75, R78, R79, R81, R82, Table 4-2) -/

namespace Sys2Proof.Machine

/-! ## The arrival (Table 4-2) -/

section
variable {s : State} {h : Handle} {r : Order}

theorem exec_endArrival (due : DueEvent.endArrival h ∈ s.due) (mode : s.mode = .dispatch) (hr : s.order? h = some r)
    (now : r.finish = some s.plantTime) :
    exec (.endArrival h) s = .next ((s.takes (.endArrival h)).endArrival h).finish := by
  have acts := arrives_now (s := s.takes (.endArrival h)) (at_ := (·.finish)) mode hr now
  rw [exec_event rfl, takeDue_quiet due, DueEvent.effect, if_pos acts]

/-- A STOPPING or ended order is not touched (Table 4-2). -/
theorem endArrival_untouched (hr : s.order? h = some r) (past : r.life.isStopping = true ∨ r.life.live = false) :
    s.endArrival h = (s, []) := by
  have none : r.life ≠ .held ∧ r.life ≠ .due ∧ r.life.isStarting = false ∧ r.life ≠ .running := by
    revert past
    cases r.life <;> simp [Life.isStopping, Life.isStarting, Life.live, Life.engaged]
  obtain ⟨notHeld, notDue, notStarting, notRunning⟩ := none
  unfold State.endArrival State.endActive
  rw [hr]
  dsimp only
  rw [if_neg notHeld, if_neg notDue, if_neg (by simp [notStarting, notRunning])]

/-- A DUE order without partner and successor fails as LATE (Table 4-2). -/
theorem endArrival_due (free : s.named = []) (hr : s.order? h = some r) (due : r.life = .due) (single : r.partner = none)
    (last : r.successor = none) (stays : r.retirePending = false) :
    ∃ t, s.endArrival h = (t, []) ∧ s.EndsIn t h r (.failed .late) := by
  have leaves : s.leavesPump r = false := by unfold State.leavesPump; simp [single]
  refine ⟨_, ?_, endsIn_closed free hr stays (.failed .late)⟩
  unfold State.endArrival State.endActive
  rw [hr]
  dsimp only
  rw [if_neg (by simp [due]), if_pos due, leaves, endOrder_waiting hr (by rw [due]; rfl) (by rw [due]; rfl), endTasks_last last,
    single]
  rfl

/-- Without a waiting successor the stop of a RUNNING order begins (Table 4-2, R75). -/
theorem endArrival_stops (hr : s.order? h = some r) (running : r.life = .running) (last : r.successor = none) :
    s.endArrival h = s.beginStop h .windowEnd := by
  have leaves : s.leavesPump r = false := by unfold State.leavesPump; simp [running]
  have alone : s.waitingSuccessor r = none := by unfold State.waitingSuccessor; rw [last]
  unfold State.endArrival State.endActive
  rw [hr]
  dsimp only
  rw [if_neg (by simp [running]), if_neg (by simp [running]), if_pos (by simp [running]), alone, leaves]
  rfl

/-- With a HELD or DUE successor the machine is handed over (Table 4-2, R78, R79). -/
theorem endArrival_handsOver {b : Handle} {q : Order} (hr : s.order? h = some r) (link : r.successor = some b)
    (hq : s.order? b = some q) (waits : q.life = .held ∨ q.life = .due) (turns : r.life = .running ∨ ∃ p, r.life = .starting p) :
    s.endArrival h = (s.handOver h b r q, []) := by
  have next : s.waitingSuccessor r = some (b, q) := by
    unfold State.waitingSuccessor
    rw [link]
    dsimp only
    rw [hq, Option.bind_some, if_pos (by rcases waits with l | l <;> rw [l] <;> rfl)]
  have active : r.life ≠ .held ∧ r.life ≠ .due ∧ (r.life.isStarting || decide (r.life = .running)) = true := by
    rcases turns with l | ⟨p, l⟩ <;> rw [l] <;> simp [Life.isStarting]
  unfold State.endArrival State.endActive
  rw [hr]
  dsimp only
  rw [if_neg active.1, if_neg active.2.1, if_pos (by simpa using active.2.2), next]

/-! ## The records of a handover (R78, R79) -/

/-- The successor in the place of its predecessor (R78, R79). -/
def Order.tookOver (q r : Order) (now : Nat) : Order :=
  { q with
    life := r.life
    unseen := true
    attempts := if r.life = .running then q.attempts else r.attempts
    actualStart := if r.life = .running then some now else q.actualStart
    curtailed := if r.life = .running ∧ q.mode = .generate then r.curtailed else q.curtailed }

theorem handOverRecords_unnamed (free : s.named = []) (hr : s.order? h = some r) (stays : r.retirePending = false) (b : Handle) :
    s.handOverRecords h b r = (((s.modOrder h (·.into (.done .handover s.plantTime))).raise .orderDone).modOrder b
      (·.tookOver r s.plantTime)).raise .orderChanged := by
  unfold State.handOverRecords
  rw [closeOrder_unnamed free hr stays]
  dsimp only
  rw [enter_unnamed (by simpa using free), modOrder_modOrder]
  have time : ((s.modOrder h (·.into ((Ending.done .handover).life s.plantTime))).raise (Ending.done .handover).event).plantTime =
      s.plantTime := by simp
  rw [time]
  rfl

/-- The records stand as a handover leaves them, and of units and waterways those parts that the contributions have no part in. -/
structure State.HandedOver (s t : State) (h b : Handle) (r q : Order) : Prop where
  done : t.order? h = some (r.into (.done .handover s.plantTime))
  taken : ∃ c, t.order? b = some { q.tookOver r s.plantTime with curtailed := c }
  doneEvent : t.latched .orderDone = true
  changedEvent : t.latched .orderChanged = true
  context : (t.unit r.unit).context = (s.unit r.unit).context

theorem handedOver_records {b : Handle} {q : Order} (free : s.named = []) (hr : s.order? h = some r)
    (stays : r.retirePending = false) (hq : s.order? b = some q) (other : b ≠ h) :
    s.HandedOver (s.handOverRecords h b r) h b r q := by
  rw [handOverRecords_unnamed free hr stays]
  exact ⟨by simp [hr, other.symm], ⟨(q.tookOver r s.plantTime).curtailed, by simp [hq, other]⟩, by simp, by simp, by simp⟩

theorem handOverRecords_unit (free : s.named = []) (hr : s.order? h = some r) (stays : r.retirePending = false) (b : Handle)
    (u : UnitNo) : (s.handOverRecords h b r).unit u = s.unit u := by
  rw [handOverRecords_unnamed free hr stays]; simp

theorem handOverRecords_waterway (free : s.named = []) (hr : s.order? h = some r) (stays : r.retirePending = false) (b : Handle)
    (w : WaterwayNo) : (s.handOverRecords h b r).waterway w = s.waterway w := by
  rw [handOverRecords_unnamed free hr stays]; simp

theorem handOverRecords_converter (free : s.named = []) (hr : s.order? h = some r) (stays : r.retirePending = false) (b : Handle)
    (c : ConverterNo) : (s.handOverRecords h b r).converter c = s.converter c := by
  rw [handOverRecords_unnamed free hr stays]; simp

end

/-! ## The machine handed over (R78, R79) -/

section
variable {s a t : State} {h b : Handle} {r q : Order}

/-- A change of power keeps what a handover has left (R114). -/
theorem State.HandedOver.afterPower (handed : s.HandedOver a h b r q) (same : a.SameButPower t)
    (done : t.order? h = a.order? h) : s.HandedOver t h b r q where
  done := done.trans handed.done
  taken := by
    obtain ⟨c, record⟩ := handed.taken
    obtain ⟨c', record'⟩ := same.order b _ record
    exact ⟨c', record'⟩
  doneEvent := (latched_congr same.latches _).trans handed.doneEvent
  changedEvent := (latched_congr same.latches _).trans handed.changedEvent
  context := (same.context _).trans handed.context

/-- The setpoint of a GENERATE order is lowered to the target of its successor, or carried (R78, R124). -/
theorem handOverSetpoint_spaced {u : UnitNo} {target : Nat} (spaced : (a.waterway (a.unit u).waterway).spacing.isSome = true) :
    a.SameButPower (a.handOverSetpoint u target) ∧
      (∀ k r, a.order? k = some r → r.life ≠ .running → (a.handOverSetpoint u target).order? k = some r) ∧
      ∀ p, (a.unit u).setpoint = some p → ((a.handOverSetpoint u target).unit u).setpoint = some (min p target) := by
  unfold State.handOverSetpoint
  split
  · next p setpoint =>
    split
    · next lower =>
      obtain ⟨same, stands⟩ := commitSetpoint_spaced target spaced
      refine ⟨same, fun k r hr life => order?_commitSetpoint spaced hr (.inl life), fun p' setpoint' => ?_⟩
      cases setpoint.symm.trans setpoint'
      rw [stands, Nat.min_eq_right lower.le]
    · next carried =>
      have dropped := State.SameButPower.modUnit (s := a) u (f := fun b => { b with pendingSetpoint := none })
        fun _ => ⟨rfl, rfl, rfl⟩
      have fresh := State.OnlyFlows.recompute (dropped.spaced spaced)
      refine ⟨dropped.trans (.recompute (dropped.spaced spaced)), fun k r hr _ => (fresh.order k).trans hr, fun p' setpoint' => ?_⟩
      rw [fresh.setpoint, unit_modUnit, if_pos rfl]
      cases setpoint.symm.trans setpoint'
      rw [Nat.min_eq_left (not_lt.1 carried)]
      exact setpoint
  · next noSetpoint =>
    exact ⟨.recompute spaced, fun k r hr _ => ((State.OnlyFlows.recompute spaced).order k).trans hr,
      fun p setpoint => by rw [noSetpoint] at setpoint; cases setpoint⟩

/-- The converter that runs for the order runs for its successor (R79). -/
theorem converter_handOverQueues (c : ConverterNo) : (a.handOverQueues h b q).converter c = (a.converter c).handOver h b := by
  simp [State.handOverQueues, State.converter]

@[simp] theorem handOverQueues_order? (k : Handle) : (a.handOverQueues h b q).order? k = a.order? k := rfl
@[simp] theorem handOverQueues_unit (u : UnitNo) : (a.handOverQueues h b q).unit u = a.unit u := rfl
@[simp] theorem handOverQueues_latched (e : EventKind) : (a.handOverQueues h b q).latched e = a.latched e := rfl

section
variable (free : s.named = []) (hr : s.order? h = some r) (stays : r.retirePending = false) (hq : s.order? b = some q)
  (other : b ≠ h)
include free hr stays hq other

/-- The machine of a RUNNING order is handed over, with its setpoint lowered to the successor's target (R78). -/
theorem handOver_running (spaced : (s.waterway (s.unit r.unit).waterway).spacing.isSome = true) (running : r.life = .running) :
    s.HandedOver (s.handOver h b r q) h b r q ∧ ∀ p, r.mode = .generate → (s.unit r.unit).setpoint = some p →
      ((s.handOver h b r q).unit r.unit).setpoint = some (min p q.target) := by
  have records := handedOver_records free hr stays hq other
  have unit := handOverRecords_unit free hr stays b
  have spaced : ((s.handOverRecords h b r).waterway ((s.handOverRecords h b r).unit r.unit).waterway).spacing.isSome = true := by
    rw [unit, handOverRecords_waterway free hr stays, spaced]
  unfold State.handOver
  dsimp only
  rw [if_pos running]
  split
  · obtain ⟨same, standing, lowered⟩ := handOverSetpoint_spaced (u := r.unit) (target := q.target) spaced
    exact ⟨records.afterPower same ((standing h _ records.done (by simp)).trans records.done.symm),
      fun p _ setpoint => lowered p (by rw [unit]; exact setpoint)⟩
  · next notGenerate =>
    exact ⟨records.afterPower (.recompute spaced) ((State.OnlyFlows.recompute spaced).order h),
      fun p generate => absurd generate notGenerate⟩

/-- A start in flight is handed over, with its converter (R79). -/
theorem handOver_starting {p : StartPhase} (starting : r.life = .starting p) :
    s.HandedOver (s.handOver h b r q) h b r q ∧ ∀ c u n, (s.converter c).state = .running h u n →
      ((s.handOver h b r q).converter c).state = .running b u n := by
  have records := handedOver_records free hr stays hq other
  unfold State.handOver
  dsimp only
  rw [if_neg (by simp [starting])]
  refine ⟨⟨by simpa using records.done, by simpa using records.taken, by simpa using records.doneEvent,
    by simpa using records.changedEvent, by simpa using records.context⟩, fun c u n runs => ?_⟩
  rw [converter_handOverQueues, handOverRecords_converter free hr stays]
  unfold Converter.handOver
  rw [runs]
  exact congrArg (ConverterState.running · u n) (if_pos rfl)

end

end

end Sys2Proof.Machine
end

section
/-! # The end arrival of a pair's legs, and the end arrival case by case (R81, R82, Table 4-2) -/

namespace Sys2Proof.Machine

section
variable {s t : State} {h g : Handle} {r q : Order}

/-- The GENERATE leg of a stopped PUMP leg is DONE with cause PARTNER while it does not turn (R81, R82). -/
theorem pumpStopped_waiting (hq : s.order? g = some q) (generate : q.mode = .generate)
    (waits : q.life = .starting .pairHold ∨ q.life = .starting .awaitingGate) :
    ∃ t, s.runTask (.pumpStopped g) = (t, endTasks q true) ∧ s.EndsEngaged t g q (.done .partner) := by
  have phase : q.life.engaged = true ∧ q.life ≠ .starting .converterRun ∧ q.life ≠ .running ∧ q.endsWithPartner = true := by
    unfold Order.endsWithPartner
    rcases waits with l | l <;> rw [l] <;> simp [Life.engaged, earlyStart, generate]
  obtain ⟨engaged, served, standing, early⟩ := phase
  obtain ⟨t, ends, facts⟩ := endOrder_engaged hq engaged (.inr (by simp [generate])) (fun run => absurd run served)
    (fun run => absurd run standing) (.done .partner)
  refine ⟨t, ?_, facts⟩
  show s.treatGenerateLeg g = _
  unfold State.treatGenerateLeg
  rw [hq]
  dsimp only
  rw [if_pos early, ends]
  rfl

/-- An entry of another order stays in a queue that an ending leaves (R83). -/
theorem State.EndsEngaged.keepsEntry {e : Ending} (ends : s.EndsEngaged t g q e) {w : WaterwayNo} {x : GateEntry}
    (entry : x ∈ (s.waterway w).queue) (other : x.handle ≠ g) : x ∈ (t.waterway w).queue := by
  obtain ⟨n, water⟩ := ends.waterway w
  rw [water]
  dsimp only
  split
  · exact List.mem_filter.2 ⟨entry, by simpa using other⟩
  · exact entry

/-- The order that has ended has no entry at its gate (R83). -/
theorem State.EndsEngaged.noEntry {e : Ending} (ends : s.EndsEngaged t g q e) :
    ∀ x ∈ (t.waterway (s.unit q.unit).waterway).queue, x.handle ≠ g := by
  intro x entry
  obtain ⟨n, water⟩ := ends.waterway (s.unit q.unit).waterway
  rw [water, if_pos rfl] at entry
  simpa using (List.mem_filter.1 entry).2

/-- A RUNNING PUMP leg stops while its GENERATE leg waits for it or for the gate: that leg is DONE with cause PARTNER (R81, R82). -/
theorem endArrival_pumpLeg (free : s.named = []) (pair : s.IsPair h g r q) (running : r.life = .running)
    (waits : q.life = .starting .pairHold ∨ q.life = .starting .awaitingGate) (none : r.awaited = none)
    (stays : q.retirePending = false) (spaced : (s.waterway (s.unit r.unit).waterway).spacing.isSome = true)
    (noDue : ∀ k x, s.order? k = some x → x.unit = q.unit → x.life ≠ .due) :
    ∃ t, (s.endArrival h).finish = t ∧ t.order? h = some (r.into (.stopping .awaitingGate .windowEnd)) ∧ s.AwaitsStop t h r ∧
      t.order? g = some (q.into (.done .partner s.plantTime)) ∧ (t.unit q.unit).context = .idle ∧
      (∀ e ∈ (t.waterway (s.unit q.unit).waterway).queue, e.handle ≠ g) ∧ t.latched .orderDone = true := by
  have stands : q.life.onLine = false ∧ q.life.isStopping = false := by rcases waits with l | l <;> rw [l] <;> exact ⟨rfl, rfl⟩
  obtain ⟨a, effect, stops, e, entry, handle, kind, unit⟩ :=
    stopEffect_awaitsGate free pair.pumpLeg spaced running (by simp [pair.pumpMode]) .windowEnd
  have genLeg : a.order? g = some q := (stops.others g pair.distinct.symm).trans pair.genLeg
  obtain ⟨t, treated, ends⟩ := pumpStopped_waiting genLeg pair.genMode waits
  have table := ends.table (stops.named.trans free) stays
  have pumpLeg : t.order? h = some (r.into (.stopping .awaitingGate .windowEnd)) := by
    rw [table.others h pair.distinct, stops.record]
    exact congrArg some (Order.afterEnding_last (q := r.into _) pair.pumpLink ..)
  have idle := engagement_idle (s := t) (u := q.unit) (table.noDue fun k x hx unit due => by
    by_contra other
    by_cases pump : k = h
    · subst pump
      cases stops.record.symm.trans hx
      cases due
    · exact noDue k x ((stops.others k pump).symm.trans hx) unit due)
  have still := partnerEnded_stopped pumpLeg (.inl rfl) none
  rw [endTasks_last pair.genLink, pair.genPartner] at treated
  refine ⟨t, ?_, pumpLeg, ⟨e, ends.keepsEntry entry (by rw [handle]; exact pair.distinct), handle, kind, unit⟩,
    ?_, ?_, ?_, table.event⟩
  · rw [endArrival_stops pair.pumpLeg running pair.pumpLink,
      beginStop_atOnce pair.pumpLeg running (deferringLeg_pair pair.pumpPartner pair.genLeg stands), effect,
      stopTasks_last pair.pumpLink, if_pos pair.pumpMode, pair.pumpPartner]
    exact Settles.finish (.step treated (.step idle (.step still .done)))
  · rw [table.record, Order.ended_last pair.genLink, stops.plantTime]
    rfl
  · obtain ⟨_, _, _, _, own⟩ := ends.own
    rw [own]
    rfl
  · rw [← stops.home]
    exact ends.noEntry

end

section
variable {s : State} {h : Handle} {r : Order} (free : s.named = []) (hr : s.order? h = some r)
  (spaced : (s.waterway (s.unit r.unit).waterway).spacing.isSome = true) (running : r.life = .running) (last : r.successor = none)
include free hr spaced running last

/-- A RUNNING GENERATE order above Pmin unloads at its end (R75, R76). -/
theorem endArrival_unloads {p : Nat} {x : Capability} (generate : r.mode = .generate) (setpoint : (s.unit r.unit).setpoint = some p)
    (record : (s.unit r.unit).link.current = some x) (above : x.pmin < p) :
    ∃ t, s.endArrival h = (t, []) ∧ s.StopBegins t h r .unloading .windowEnd := by
  obtain ⟨t, effect, stops⟩ := stopEffect_unloads free hr spaced running generate setpoint record above .windowEnd
  refine ⟨t, ?_, stops⟩
  rw [endArrival_stops hr running last, beginStop_atOnce hr running (deferringLeg_notPump (by simp [generate])), effect,
    stopTasks_last last, if_neg (by simp [generate])]
  rfl

/-- Any other single RUNNING order waits at the gate with a STOP entry (R75, R76). -/
theorem endArrival_awaitsGate (other : r.mode ≠ .generate) (single : r.partner = none) :
    ∃ t, s.endArrival h = (t, []) ∧ s.StopBegins t h r .awaitingGate .windowEnd ∧ s.AwaitsStop t h r := by
  obtain ⟨t, effect, stops⟩ := stopEffect_awaitsGate free hr spaced running other .windowEnd
  refine ⟨t, ?_, stops⟩
  rw [endArrival_stops hr running last, beginStop_atOnce hr running (deferringLeg_single single), effect, stopTasks_last last, single]
  simp

end

/-- Settles O37: the rows of Table 4-2, the handover and the legs of a pair. -/
theorem endArrivalTaken : Obligations.EndArrivalTaken := by
  refine ⟨fun s h r due mode free hr now single stays => ?_, fun s h g r q mode free pair => ⟨fun due now running =>
    ⟨fun turns => ?_, fun waits none stays spaced noDue => ?_⟩, fun p c due now running spaced setpoint record above => ?_⟩⟩
  · have taken := exec_endArrival due mode hr now
    have found : (s.takes (.endArrival h)).order? h = some r := hr
    have free : (s.takes (.endArrival h)).named = [] := free
    refine ⟨fun life last => ?_, fun past => ?_, fun spaced => ⟨fun running last => ⟨fun p c generate setpoint record above => ?_,
      fun other => ?_⟩, fun b q link other hq waits turns => ?_⟩⟩
    · obtain ⟨t, fails, ends⟩ := endArrival_due free found life single last stays
      have record := ends.record
      rw [Order.ended_last last] at record
      rw [fails] at taken
      exact ⟨t, taken, record, ends.event⟩
    · rw [taken, endArrival_untouched found past]
      rfl
    · obtain ⟨t, unloads, stops⟩ := endArrival_unloads free found spaced running last generate setpoint record above
      rw [unloads] at taken
      exact ⟨t, taken, stops.event, stops.record⟩
    · obtain ⟨t, awaits, stops, entry⟩ := endArrival_awaitsGate free found spaced running last other single
      rw [awaits] at taken
      exact ⟨t, taken, stops.event, stops.record, entry⟩
    · have successor : (s.takes (.endArrival h)).order? b = some q := hq
      rw [endArrival_handsOver found link successor waits turns] at taken
      obtain ⟨handed, power, converter⟩ : (s.takes (.endArrival h)).HandedOver ((s.takes (.endArrival h)).handOver h b r q) h b r q ∧
          (r.life = .running → ∀ p, r.mode = .generate → (s.unit r.unit).setpoint = some p →
            (((s.takes (.endArrival h)).handOver h b r q).unit r.unit).setpoint = some (min p q.target)) ∧
          ∀ c u n, r.life = .starting .converterRun → (s.converter c).state = .running h u n →
            (((s.takes (.endArrival h)).handOver h b r q).converter c).state = .running b u n := by
        rcases turns with running | ⟨p, starting⟩
        · obtain ⟨handed, power⟩ := handOver_running free found stays successor other spaced running
          exact ⟨handed, fun _ => power, fun _ _ _ run => by rw [running] at run; cases run⟩
        · obtain ⟨handed, converter⟩ := handOver_starting free found stays successor other starting
          exact ⟨handed, fun run => (by rw [starting] at run; cases run), fun c u n _ => converter c u n⟩
      obtain ⟨c, successorRecord⟩ := handed.taken
      exact ⟨_, _, taken, handed.done, successorRecord, rfl, rfl, rfl, handed.doneEvent, handed.changedEvent, handed.context,
        fun running => ⟨if_pos running, power running⟩,
        fun c u n run state => ⟨if_neg (by simp [run]), converter c u n run state⟩⟩
  · have taken := exec_endArrival due mode pair.pumpLeg now
    have found := pair.takes (.endArrival h)
    rw [endArrival_stops found.pumpLeg running found.pumpLink, beginStop_deferred found running (by
      rcases turns with l | l | l <;> [(rw [l]; exact .inl rfl); (rw [l]; exact .inl rfl); exact .inr l]) (by simp),
      modOrder_eq found.pumpLeg] at taken
    exact taken
  · obtain ⟨t, result, facts⟩ := endArrival_pumpLeg (s := s.takes (.endArrival h)) free (pair.takes _) running waits none stays spaced
      noDue
    exact ⟨t, (exec_endArrival due mode pair.pumpLeg now).trans (congrArg _ result), facts⟩
  · have taken := exec_endArrival due mode pair.genLeg now
    obtain ⟨t, unloads, stops⟩ := endArrival_unloads (s := s.takes (.endArrival g)) free pair.genLeg spaced running pair.genLink
      pair.genMode setpoint record above
    rw [unloads] at taken
    exact ⟨t, taken, stops.record, (stops.others h pair.distinct).trans pair.pumpLeg⟩

end Sys2Proof.Machine
end

section
/-! # A STATE report of an ENGAGED unit: how it is received and judged (R84 to R87, R140, Table 4-5) -/

namespace Sys2Proof.Machine

/-! ## The first engaged order in slot order (R11) -/

/-- The engaged order of a unit is the one in the lowest slot. -/
theorem engagedOrder_iff {s : State} {u : UnitNo} {h : Handle} {r : Order} :
    s.engagedOrder u = some (h, r) ↔ s.order? h = some r ∧ r.unit = u ∧ r.life.engaged = true ∧
      ∀ k q, s.order? k = some q → q.unit = u → q.life.engaged = true → slotOf h ≤ slotOf k := by
  have first : ∀ {h r}, s.engagedOrder u = some (h, r) →
      ∀ k q, s.order? k = some q → q.unit = u → q.life.engaged = true → slotOf h ≤ slotOf k := by
    intro h r found k q hq unit engaged
    obtain ⟨-, before, after, split, none⟩ := List.find?_eq_some_iff_append.1 found
    have sorted := orders_slots s
    rw [split] at sorted
    have member := mem_orders.2 hq
    rw [split] at member
    rcases List.mem_append.1 member with earlier | rest
    · exact absurd (none _ earlier) (by simp [unit, engaged])
    · rcases List.mem_cons.1 rest with same | later
      · cases same; exact le_rfl
      · exact ((List.pairwise_cons.1 (List.pairwise_append.1 sorted).2.1).1 _ later).le
  refine ⟨fun found => ?_, fun ⟨hr, unit, engaged, lowest⟩ => ?_⟩
  · obtain ⟨hr, unit, engaged⟩ := engagedOrder_some found
    exact ⟨hr, unit, engaged, first found⟩
  · cases found : s.engagedOrder u with
    | none => exact absurd (List.find?_eq_none.1 found _ (mem_orders.2 hr)) (by simp [unit, engaged])
    | some x =>
      obtain ⟨hx, unit', engaged'⟩ := engagedOrder_some (h := x.1) (r := x.2) found
      have slot : slotOf x.1 = slotOf h :=
        le_antisymm (first (h := x.1) (r := x.2) found h r hr unit engaged) (lowest _ _ hx unit' engaged')
      have row := (slot_of_order? hx).symm.trans ((congrArg s.slot slot).trans (slot_of_order? hr))
      have same : x.1 / 64 = h / 64 ∧ x.2 = r := by simpa using row
      have modulo : x.1 % 64 = h % 64 := congrArg Fin.val slot
      have handle : x.1 = h := by
        calc x.1 = 64 * (x.1 / 64) + x.1 % 64 := (Nat.div_add_mod ..).symm
          _ = 64 * (h / 64) + h % 64 := by rw [same.1, modulo]
          _ = h := Nat.div_add_mod ..
      exact congrArg some (Prod.ext handle same.2)

/-- The engaged order keeps its place when its own record alone is changed. -/
theorem engagedOrder_changed {s t : State} {u : UnitNo} {h : Handle} {r r' : Order} (engaged : s.engagedOrder u = some (h, r))
    (record : t.order? h = some r') (others : ∀ k, k ≠ h → t.order? k = s.order? k) (unit : r'.unit = u)
    (live : r'.life.engaged = true) : t.engagedOrder u = some (h, r') := by
  obtain ⟨-, -, -, lowest⟩ := engagedOrder_iff.1 engaged
  refine engagedOrder_iff.2 ⟨record, unit, live, fun k q hq own engaged => ?_⟩
  by_cases same : k = h
  · rw [same]
  · exact lowest k q ((others k same).symm.trans hq) own engaged

/-! ## The report received (R139, R140) -/

/-- A gate that hears of a trip or a halt starts its spacing afresh (R111). -/
theorem waterway_tripGate (s : State) (v w : WaterwayNo) : ∃ n, (s.tripGate v).waterway w = { s.waterway w with spacing := n } ∧
    (n = (s.waterway w).spacing ∨ n = if (s.waterway w).spacingTime = 0 then none else some (s.waterway w).spacingTime) := by
  unfold State.tripGate
  rw [waterway_modWaterway]
  split
  · next same => subst same; exact ⟨_, rfl, .inr rfl⟩
  · exact ⟨_, rfl, .inl rfl⟩

/-- The state as a report is judged: the gate has heard of a trip, and the report is stored (R85, R140, log entry 10). -/
def State.told (s : State) (u : UnitNo) (p : Report) : State :=
  (if startsTrip (s.unit u).link.lastReport p then (s.validFrame u).tripGate ((s.validFrame u).unit u).waterway
    else s.validFrame u).storeReport u p

section
variable (s : State) (u : UnitNo) (p : Report)

theorem told_frame : s.told u p = { s with units := (s.told u p).units, waterways := (s.told u p).waterways } := by
  unfold State.told; split <;> rfl

@[simp] theorem told_order? (k : Handle) : (s.told u p).order? k = s.order? k := by rw [told_frame]; rfl
@[simp] theorem told_engagedOrder (v : UnitNo) : (s.told u p).engagedOrder v = s.engagedOrder v := by rw [told_frame]; rfl
@[simp] theorem told_converter (c : ConverterNo) : (s.told u p).converter c = s.converter c := by rw [told_frame]; rfl
@[simp] theorem told_named : (s.told u p).named = s.named := by rw [told_frame]
@[simp] theorem told_plantTime : (s.told u p).plantTime = s.plantTime := by rw [told_frame]
@[simp] theorem told_retry : (s.told u p).retry = s.retry := by rw [told_frame]
@[simp] theorem told_linkOut : (s.told u p).linkOut = s.linkOut := by rw [told_frame]
@[simp] theorem told_supervision : (s.told u p).supervision = s.supervision := by rw [told_frame]

@[simp] theorem told_unit (v : UnitNo) : (s.told u p).unit v =
    if u = v then
      { s.unit u with link := { (s.unit u).link with heard := true, silent := false, lastReport := some p, sinceUp := true } }
    else s.unit v := by
  have stored : ∀ a : State, (∀ v, a.unit v = (s.validFrame u).unit v) → (a.storeReport u p).unit v =
      if u = v then
        { s.unit u with link := { (s.unit u).link with heard := true, silent := false, lastReport := some p, sinceUp := true } }
      else s.unit v := by
    intro a same
    unfold State.storeReport State.modLink
    rw [unit_modUnit, same, same]
    unfold State.validFrame State.modLink
    simp only [unit_modUnit, if_true]
    split <;> rfl
  unfold State.told
  split
  · exact stored _ fun _ => rfl
  · exact stored _ fun _ => rfl

/-- A trip starts the spacing of the gate afresh, and touches nothing else of a waterway (R85, R111). -/
theorem told_waterway (w : WaterwayNo) : ∃ n, (s.told u p).waterway w = { s.waterway w with spacing := n } ∧
    (n = (s.waterway w).spacing ∨ n = if (s.waterway w).spacingTime = 0 then none else some (s.waterway w).spacingTime) := by
  unfold State.told
  split
  · exact waterway_tripGate (s.validFrame u) ((s.validFrame u).unit u).waterway w
  · exact ⟨_, rfl, .inl rfl⟩

variable {s u p}

theorem told_spaced {w : WaterwayNo} (spaced : (s.waterway w).spacing.isSome = true) (time : 0 < (s.waterway w).spacingTime) :
    ((s.told u p).waterway w).spacing.isSome = true := by
  obtain ⟨n, water, rfl | rfl⟩ := told_waterway s u p w <;> rw [water]
  · exact spaced
  · simp [time.ne']

theorem told_headFor (v : UnitNo) : (s.told u p).headFor v = s.headFor v := by
  have home : ((s.told u p).unit v).waterway = (s.unit v).waterway := by
    rw [told_unit]; split <;> [(next same => rw [same]); rfl]
  obtain ⟨n, water, -⟩ := told_waterway s u p (s.unit v).waterway
  unfold State.headFor
  rw [home, water]

end

section
variable {s : State} {u : UnitNo} {p : Report} {h : Handle} {r : Order} (present : (s.unit u).present = true)
  (context : (s.unit u).context = .engaged) (up : (s.unit u).link.state = .up) (since : (s.unit u).link.sinceUp = true)
  (engaged : s.engagedOrder u = some (h, r))
include present context up since engaged

/-- The report of an ENGAGED unit is judged by the Order Table, delivered to the Flow Calculator, its consequences carried through,
and counted as a frame error when it is out of phase (R84, R140). -/
theorem exec_stateReport {w : Work} {outOfPhase : Bool} (judged : (s.quiet.told u p).judgeReport h r p = (w, outOfPhase)) :
    exec (.stateReport u p) s = .next
      (if outOfPhase then ((w.1.recompute u).settle w.2).frameError u else (w.1.recompute u).settle w.2) := by
  have taken : (s.quiet.told u p).takeReport u p (!(s.unit u).link.sinceUp) = (w, outOfPhase) := by
    have still : ((s.quiet.told u p).unit u).context = .engaged := by rw [told_unit, if_pos rfl]; exact context
    unfold State.takeReport
    rw [since, if_neg (by simp), if_pos still, told_engagedOrder, show s.quiet.engagedOrder u = some (h, r) from engaged]
    exact judged
  have received : s.quiet.reportReceived u p =
      if outOfPhase then ((w.1.recompute u).settle w.2).frameError u else (w.1.recompute u).settle w.2 := by
    unfold State.told at taken
    unfold State.reportReceived
    dsimp only
    rw [show (s.quiet.unit u).link.sinceUp = (s.unit u).link.sinceUp from rfl]
    rw [taken]
  show Host.Outcome.next (s.quiet.fromPresent u fun s => s.stateReceived u p) = _
  unfold State.fromPresent State.stateReceived
  rw [if_pos (show (s.quiet.unit u).present = true from present)]
  dsimp only
  rw [show (s.quiet.unit u).link.state = .up from up]
  exact congrArg _ received

end

end Sys2Proof.Machine
end

section
/-! # A judged report: endings, starts completed, and what the unit then contributes (R69 to R73, R83 to R86, R97) -/

namespace Sys2Proof.Machine

/-! ## The judgement of a report (R84 to R87, Table 4-5) -/

section
variable {s : State} {h : Handle} {r : Order} {p : Report}

/-- LOCAL control, a trip and a dropped machine fail the order, in that order (R84 to R86). -/
theorem judgeReport_fails (tells : p.place = .locally ∨ p.state = .tripped ∨
      (p.state = .standstill ∧ turning r.life r.mode (s.unit r.unit).motion = true)) :
    s.judgeReport h r p = (s.endOrder h (.failed (if p.place = .locally then .localControl else if p.state = .tripped then .trip
      else .dropped)), false) := by
  unfold State.judgeReport
  by_cases atPanel : p.place = .locally
  · rw [if_pos atPanel, if_pos atPanel]
  · rw [if_neg atPanel, if_neg atPanel]
    by_cases tripped : p.state = .tripped
    · rw [if_pos tripped, if_pos tripped]
    · rw [if_neg tripped, if_neg tripped, if_pos (by simpa [atPanel, tripped] using tells)]

section
variable (remote : p.place = .remote) (runs : p.state ≠ .tripped)
  (stands : p.state = .standstill → turning r.life r.mode (s.unit r.unit).motion = false)
include remote runs stands

/-- Any other report that advances the phase of the order is acted on (Table 4-5). -/
theorem judgeReport_advances (verdict : phaseVerdict r.life r.mode p.state = .advances) :
    s.judgeReport h r p = (s.advancePhase h r, false) := by
  unfold State.judgeReport
  rw [if_neg (by simp [remote]), if_neg runs, if_neg fun dropped => by simp [stands dropped.1] at dropped, verdict]

/-- A report out of phase is ignored, and to be counted (R87). -/
theorem judgeReport_outOfPhase (verdict : phaseVerdict r.life r.mode p.state = .outOfPhase) :
    s.judgeReport h r p = ((s, []), true) := by
  unfold State.judgeReport
  rw [if_neg (by simp [remote]), if_neg runs, if_neg fun dropped => by simp [stands dropped.1] at dropped, verdict]

end

/-! ## The order ends (R83) -/

/-- The ending of the order of a unit without DUE orders, when its report has told of it, and the contribution recomputed. -/
theorem ends_settled (free : s.named = []) (hr : s.order? h = some r) (engaged : r.life.engaged = true)
    (single : r.partner = none) (last : r.successor = none) (stays : r.retirePending = false)
    (rests : r.life = .starting .converterRun → ∃ c, s.RunsFor c h)
    (spaced : (s.waterway (s.unit r.unit).waterway).spacing.isSome = true)
    (noDue : ∀ k q, s.order? k = some q → q.unit = r.unit → q.life ≠ .due) (e : Ending) :
    ∃ t, ((s.endOrder h e).1.recompute r.unit).settle (s.endOrder h e).2 = t ∧ s.EndsEngaged t h r e := by
  obtain ⟨a, ends, left⟩ := endOrder_engaged hr engaged (.inl single) rests (fun _ => spaced) e
  have facts := left.afterFlows (.recompute (left.spaced spaced))
  have idle := engagement_idle (s := a.recompute r.unit) ((facts.table free stays).noDue fun k q hq unit due =>
    absurd due (noDue k q hq unit))
  refine ⟨_, ?_, facts⟩
  rw [ends, endTasks_last last, single]
  split
  · exact Settles.settle (.step idle .done)
  · exact Settles.settle .done

/-! ## The contribution of a unit (R33, R34) -/

/-- A recomputed unit has the contribution of Table 2-1. -/
theorem contribution_recompute {u : UnitNo} {q : Int} {sat : Bool} (spaced : (s.waterway (s.unit u).waterway).spacing.isSome = true)
    (computed : s.contributionOf u = some (q, sat)) : ((s.recompute u).unit u).contribution = q := by
  have fresh : ((s.refreshContribution u).unit u).contribution = q := by
    unfold State.refreshContribution
    rw [computed]
    simp
  have still := (sameButFlow_refreshContribution s u).waterway (s.unit u).waterway
  unfold State.recompute State.updateFlow
  split
  · exact fresh
  · rw [gateOpportunity_spaced]
    · exact fresh
    · obtain ⟨_, water⟩ := still
      unfold State.refreshFlow
      rw [waterway_modWaterway, if_pos rfl, water]
      exact spaced

section
variable {u : UnitNo} {c : Capability} (present : (s.unit u).present = true) (lit : (s.unit u).context ≠ .dark)
  (told : (s.unit u).link.lastReport = some p) (record : (s.unit u).link.current = some c)
include present lit told record

theorem contributionOf_condensing (condensing : p.state = .condensingG) : s.contributionOf u = some (0, false) := by
  unfold State.contributionOf
  simp [present, lit, told, record, condensing]

theorem contributionOf_pumping {x : PumpTable} (pumping : p.state = .pumping) (table : c.pump = some x) :
    s.contributionOf u = some (-(x.pumpFlow (s.headFor u) : Int), false) := by
  unfold State.contributionOf
  simp [present, lit, told, record, pumping, table]

theorem contributionOf_generating {n : Nat} (generating : p.state = .generating) (setpoint : s.runningSetpoint u = some n) :
    s.contributionOf u = some ((c.genFlow n (s.headFor u) : Int), c.genSaturates n (s.headFor u)) := by
  unfold State.contributionOf
  simp [present, lit, told, record, generating, setpoint]

end

end

/-! ## A start completed (R69 to R71) -/

/-- The order in RUNNING, its supervision stopped (R69 to R71). -/
def State.started (s : State) (h : Handle) (r : Order) : State :=
  State.stopSupervision
    ((s.modOrder h fun q => { q with life := .running, actualStart := some s.plantTime, unseen := true }).raise .orderChanged)
    r.unit

section
variable {s : State} {h : Handle} {r : Order}

@[simp] theorem started_order? (k : Handle) : (s.started h r).order? k =
    if k = h then (s.order? h).map fun q => { q with life := .running, actualStart := some s.plantTime, unseen := true }
    else s.order? k := by
  show (State.modUnit _ _ _).order? k = _
  simp
@[simp] theorem started_unit (u : UnitNo) : (s.started h r).unit u =
    if r.unit = u then { s.unit u with supervision := none } else s.unit u := by
  unfold State.started State.stopSupervision
  simp only [unit_modUnit, raise_unit, modOrder_unit]
  split
  · next same => subst same; rfl
  · rfl
@[simp] theorem started_waterway (w : WaterwayNo) : (s.started h r).waterway w = s.waterway w := by
  simp [State.started, State.stopSupervision]
@[simp] theorem started_converter (c : ConverterNo) : (s.started h r).converter c = s.converter c := by
  simp [State.started, State.stopSupervision]
@[simp] theorem started_linkOut : (s.started h r).linkOut = s.linkOut := by simp [State.started, State.stopSupervision]
@[simp] theorem started_named : (s.started h r).named = s.named := by simp [State.started, State.stopSupervision]
@[simp] theorem started_latched (e : EventKind) : (s.started h r).latched e = (s.latched e || decide (e = .orderChanged)) := by
  simp [State.started, State.stopSupervision]

theorem started_spaced {v : UnitNo} (spaced : (s.waterway (s.unit v).waterway).spacing.isSome = true) :
    ((s.started h r).waterway ((s.started h r).unit v).waterway).spacing.isSome = true := by
  rw [started_waterway, started_unit]
  split <;> exact spaced

variable (free : s.named = [])
include free

theorem completeStart_other (other : r.mode ≠ .generate) :
    s.completeStart h r = ((s.started h r).recompute r.unit).releasePairHold r := by
  unfold State.completeStart
  dsimp only
  rw [enter_unnamed (by simpa using free), modOrder_modOrder, if_neg other]
  rfl

theorem completeStart_generate (generate : r.mode = .generate) :
    s.completeStart h r = ((s.started h r).modUnit r.unit fun b => { b with ceiling := none }).commitSetpoint r.unit
      ((s.started h r).capTime r.unit (·.pmin)) := by
  unfold State.completeStart
  dsimp only
  rw [enter_unnamed (by simpa using free), modOrder_modOrder, if_pos generate]
  rfl

end

theorem releasePairHold_single {s : State} {r : Order} (single : r.partner = none) : s.releasePairHold r = s := by
  unfold State.releasePairHold
  split
  · next partner => rw [single] at partner; cases partner
  · rfl

end Sys2Proof.Machine
end

section
/-! # A judged report of a single order, phase by phase (R69 to R73, R84, R97, Table 4-5) -/

namespace Sys2Proof.Machine

/-- A report whose judgement leaves no task. -/
theorem settle_nil (s : State) : s.settle [] = s := Settles.settle .done

/-! ## SYNCED_P ends the converter run (R70, R97, log entry 12) -/

/-- The machine is synchronous: the motion mark is set, and the converter rests (R97, log entry 12). -/
def State.reached (s : State) (u : UnitNo) (c : ConverterNo) : State :=
  ((s.markMotion u).modConverter c fun _ => (s.converter c).rested).raise .converterChange

section
variable {s : State} {u : UnitNo} {c : ConverterNo}

@[simp] theorem reached_order? (k : Handle) : (s.reached u c).order? k = s.order? k := rfl
@[simp] theorem reached_unit (v : UnitNo) : (s.reached u c).unit v = if u = v then { s.unit u with motion := true } else s.unit v := by
  unfold State.reached State.markMotion
  rw [raise_unit, modConverter_unit, unit_modUnit]
@[simp] theorem reached_waterway (w : WaterwayNo) : (s.reached u c).waterway w = s.waterway w := rfl
@[simp] theorem reached_converter : (s.reached u c).converter c = (s.converter c).rested := by simp [State.reached]
@[simp] theorem reached_named : (s.reached u c).named = s.named := rfl
@[simp] theorem reached_plantTime : (s.reached u c).plantTime = s.plantTime := rfl
@[simp] theorem reached_latched : (s.reached u c).latched .converterChange = true := (latched_raise _ _ _).trans (by simp)

theorem reached_spaced {v : UnitNo} (spaced : (s.waterway (s.unit v).waterway).spacing.isSome = true) :
    ((s.reached u c).waterway ((s.reached u c).unit v).waterway).spacing.isSome = true := by
  rw [reached_waterway, reached_unit]
  split
  · next same => subst same; exact spaced
  · exact spaced

end

/-- What a machine that has become synchronous shows, whatever its mode (R70, R97). -/
structure State.Synced (s t : State) (u : UnitNo) (c : ConverterNo) : Prop where
  motion : (t.unit u).motion = true
  context : (t.unit u).context = (s.unit u).context
  rested : t.converter c = (s.converter c).rested
  event : t.latched .converterChange = true

section
variable {s : State} {h : Handle} {r : Order} {c : ConverterNo}

theorem synced_eq (runs : s.RunsFor c h) : s.synced h r =
    if r.mode = .pump then ((s.reached r.unit c).modOrder h fun q => { q with life := .starting .awaitingGate }).joinGate h r .start
    else (s.reached r.unit c).completeStart h r := by
  have marked : (s.markMotion r.unit).RunsFor c h := ⟨runs.runs, runs.only, runs.coolDown⟩
  unfold State.synced
  rw [marked.release]
  rfl

variable (runs : s.RunsFor c h) (hr : s.order? h = some r) (spaced : (s.waterway (s.unit r.unit).waterway).spacing.isSome = true)
include runs hr spaced

/-- A PUMP order waits at the gate for its water-up (R70). -/
theorem synced_pump (pump : r.mode = .pump) : ∃ t, (s.synced h r).recompute r.unit = t ∧ s.Synced t r.unit c ∧
    t.order? h = some { r with life := .starting .awaitingGate } ∧
    ∃ e ∈ (t.waterway (s.unit r.unit).waterway).queue, e.handle = h ∧ e.unit = r.unit ∧ e.kind = .start := by
  let waiting := (s.reached r.unit c).modOrder h fun q => { q with life := .starting .awaitingGate }
  have spaced₁ : (waiting.waterway (waiting.unit r.unit).waterway).spacing.isSome = true := by
    simpa [waiting] using reached_spaced (u := r.unit) (c := c) spaced
  have joined := joinGate_spaced spaced₁ h .start
  obtain ⟨e, entry, handle, kind, unit⟩ := exists_mem_joinGate spaced₁ h .start
  have spaced₂ : ((waiting.joinGate h r .start).waterway ((waiting.joinGate h r .start).unit r.unit).waterway).spacing.isSome =
      true := by
    rw [joined, modWaterway_unit, waterway_modWaterway, if_pos rfl]
    exact spaced₁
  have same := State.OnlyFlows.recompute spaced₂
  rw [synced_eq runs, if_pos pump]
  refine ⟨_, rfl, ⟨?_, ?_, ?_, ?_⟩, ?_, e, ?_, handle, unit, kind⟩
  · rw [same.motion, joined]; simp [waiting]
  · rw [same.context, joined]; simp [waiting]
  · rw [same.converter, joined]; simp [waiting]
  · rw [same.latched, joined]; simp [waiting]
  · rw [same.order, joined]; simp [waiting, hr]
  · rw [same.queue]
    simpa [waiting] using entry

/-- A CONDENSE_P order is RUNNING (R70). -/
theorem synced_condenseP (free : s.named = []) (condense : r.mode = .condenseP) (single : r.partner = none) :
    ∃ t, (s.synced h r).recompute r.unit = t ∧ s.Synced t r.unit c ∧ t.latched .orderChanged = true ∧
      (t.unit r.unit).supervision = none ∧
      t.order? h = some { r with life := .running, actualStart := some s.plantTime, unseen := true } := by
  have spaced₁ := started_spaced (h := h) (r := r) (reached_spaced (u := r.unit) (c := c) spaced)
  have once := State.OnlyFlows.recompute spaced₁
  have same := once.trans (.recompute (once.spaced spaced₁))
  rw [synced_eq runs, if_neg (by simp [condense]), completeStart_other (by simpa using free) (by simp [condense]),
    releasePairHold_single single]
  refine ⟨_, rfl, ⟨?_, ?_, ?_, ?_⟩, ?_, ?_, ?_⟩
  · rw [same.motion]; simp
  · rw [same.context]; simp
  · rw [same.converter]; simp
  · rw [same.latched]; simp
  · rw [same.latched]; simp
  · rw [same.timer]; simp
  · rw [same.order]; simp [hr]

end

/-! ## The running state completes a start (R69, R71) -/

/-- What a completed start shows, whatever its mode (R69 to R71). -/
structure State.Runs (s t : State) (h : Handle) (r : Order) : Prop where
  record : t.order? h = some { r with life := .running, actualStart := some s.plantTime, unseen := true }
  timer : (t.unit r.unit).supervision = none
  context : (t.unit r.unit).context = (s.unit r.unit).context
  event : t.latched .orderChanged = true

section
variable {s : State} {h : Handle} {r : Order} (free : s.named = []) (hr : s.order? h = some r)
  (spaced : (s.waterway (s.unit r.unit).waterway).spacing.isSome = true)
include free hr spaced

/-- A PUMP or CONDENSE_G order without a partner is RUNNING, its unit contributing by the report (R69, R71, R33). -/
theorem completeStart_settled (other : r.mode ≠ .generate) (single : r.partner = none) :
    ∃ t, (s.completeStart h r).recompute r.unit = t ∧ s.Runs t h r ∧
      (∀ q sat, ((s.started h r).recompute r.unit).contributionOf r.unit = some (q, sat) → (t.unit r.unit).contribution = q) := by
  have spaced₁ := started_spaced (h := h) (r := r) spaced
  have once := State.OnlyFlows.recompute spaced₁
  have same := once.trans (.recompute (once.spaced spaced₁))
  rw [completeStart_other free other, releasePairHold_single single]
  refine ⟨_, rfl, ⟨?_, ?_, ?_, ?_⟩, fun q sat => contribution_recompute (once.spaced spaced₁)⟩
  · rw [same.order]; simp [hr]
  · rw [same.timer]; simp
  · rw [same.context]; simp
  · rw [same.latched]; simp

end

end Sys2Proof.Machine
end

section
/-! # A judged report: the start of a GENERATE order, and the coasting (R69, R72) -/

namespace Sys2Proof.Machine

/-! ## What a directive asked for and a recomputed contribution leave -/

section
variable {s t : State}

theorem ask_lastReport (s : State) (u : UnitNo) (d : Directive) (v : UnitNo) :
    ((s.ask u d).unit v).link.lastReport = (s.unit v).link.lastReport := by
  have changed : ∀ f : UnitBlock → UnitBlock, (∀ b, (f b).link.lastReport = b.link.lastReport) →
      ((s.modUnit u f).unit v).link.lastReport = (s.unit v).link.lastReport := by
    intro f hf
    rw [unit_modUnit]
    split
    · next same => subst same; exact hf _
    · rfl
  unfold State.ask
  dsimp only
  split
  · rfl
  · split
    · rw [unit_send]
      split
      · next same => subst same; rfl
      · rfl
    · split
      · split
        · rfl
        · exact changed _ fun _ => rfl
      · exact changed _ fun _ => rfl

section
variable (s : State) (u : UnitNo) (d : Directive) (v : UnitNo)

theorem ask_present : ((s.ask u d).unit v).present = (s.unit v).present := by obtain ⟨_, _, e, -⟩ := ask_unit s u d v; rw [e]
theorem ask_context : ((s.ask u d).unit v).context = (s.unit v).context := by obtain ⟨_, _, e, -⟩ := ask_unit s u d v; rw [e]
theorem ask_home : ((s.ask u d).unit v).waterway = (s.unit v).waterway := by obtain ⟨_, _, e, -⟩ := ask_unit s u d v; rw [e]
theorem ask_setpoint : ((s.ask u d).unit v).setpoint = (s.unit v).setpoint := by obtain ⟨_, _, e, -⟩ := ask_unit s u d v; rw [e]
theorem ask_timer : ((s.ask u d).unit v).supervision = (s.unit v).supervision := by obtain ⟨_, _, e, -⟩ := ask_unit s u d v; rw [e]
theorem ask_current : ((s.ask u d).unit v).link.current = (s.unit v).link.current := by
  obtain ⟨_, _, e, current⟩ := ask_unit s u d v; rw [e]; exact current
theorem ask_headFor : (s.ask u d).headFor v = s.headFor v := by unfold State.headFor; rw [ask_home, ask_waterway]

end

@[simp] theorem ask_engagedOrder (u : UnitNo) (d : Directive) (v : UnitNo) : (s.ask u d).engagedOrder v = s.engagedOrder v := by
  rw [ask_frame]; rfl

theorem State.OnlyFlows.present (same : s.OnlyFlows t) (u : UnitNo) : (t.unit u).present = (s.unit u).present := by
  obtain ⟨_, _, e⟩ := same.unit u; rw [e]

theorem State.OnlyFlows.engagedOrder (same : s.OnlyFlows t) (u : UnitNo) : t.engagedOrder u = s.engagedOrder u := by
  rw [same.frame]; rfl

theorem State.OnlyFlows.headFor (same : s.OnlyFlows t) (u : UnitNo) : t.headFor u = s.headFor u := by
  obtain ⟨_, water⟩ := same.waterway (s.unit u).waterway
  unfold State.headFor
  rw [same.home, water]

/-- A setpoint other than the target leaves the curtailed flag as it stands (R114). -/
theorem commitSetpoint_otherTarget {u : UnitNo} {p : Nat} {h : Handle} {r : Order} (engaged : s.engagedOrder u = some (h, r))
    (other : r.target ≠ p) :
    s.commitSetpoint u p = ((s.modUnit u fun b => { b with setpoint := some p }).recompute u).ask u (.setPower p) := by
  have kept : (s.modUnit u fun b => { b with setpoint := some p }).clearCurtailed u p =
      s.modUnit u fun b => { b with setpoint := some p } := by
    unfold State.clearCurtailed
    rw [show (s.modUnit u fun b => { b with setpoint := some p }).engagedOrder u = some (h, r) from engaged]
    exact if_neg fun now => other now.2
  unfold State.commitSetpoint
  rw [kept]

end

/-! ## A GENERATE order becomes RUNNING (R69, R113) -/

/-- The Ramp Controller has the unit, with a setpoint of its own (R69). -/
def State.ramped (s : State) (h : Handle) (r : Order) (p : Nat) : State :=
  ((s.started h r).modUnit r.unit fun b => { b with ceiling := none }).modUnit r.unit fun b => { b with setpoint := some p }

section
variable {s : State} {h : Handle} {r : Order} {p : Nat}

@[simp] theorem ramped_order? (k : Handle) : (s.ramped h r p).order? k = (s.started h r).order? k := by
  unfold State.ramped; simp only [modUnit_order?]
@[simp] theorem ramped_unit (u : UnitNo) : (s.ramped h r p).unit u =
    if r.unit = u then { s.unit u with supervision := none, ceiling := none, setpoint := some p } else s.unit u := by
  unfold State.ramped
  simp only [unit_modUnit, started_unit]
  split
  · next same => subst same; simp
  · rfl
@[simp] theorem ramped_waterway (w : WaterwayNo) : (s.ramped h r p).waterway w = s.waterway w := by
  unfold State.ramped; simp only [modUnit_waterway, started_waterway]
@[simp] theorem ramped_latched (e : EventKind) : (s.ramped h r p).latched e = (s.started h r).latched e := by
  unfold State.ramped; simp only [modUnit_latched]
@[simp] theorem ramped_linkOut : (s.ramped h r p).linkOut = s.linkOut := by
  unfold State.ramped; simp only [modUnit_linkOut, started_linkOut]

theorem ramped_spaced {v : UnitNo} (spaced : (s.waterway (s.unit v).waterway).spacing.isSome = true) :
    ((s.ramped h r p).waterway ((s.ramped h r p).unit v).waterway).spacing.isSome = true := by
  rw [ramped_waterway, ramped_unit]
  split <;> exact spaced

/-- A GENERATE order is RUNNING at Pmin, and SET_POWER is asked for (R69, R113, R124). -/
theorem completeStart_generates {c : Capability} (free : s.named = []) (engaged : s.engagedOrder r.unit = some (h, r))
    (spaced : (s.waterway (s.unit r.unit).waterway).spacing.isSome = true) (generate : r.mode = .generate)
    (record : (s.unit r.unit).link.current = some c) (other : c.pmin ≠ r.target) :
    ∃ t, (s.completeStart h r).recompute r.unit = t ∧ s.Runs t h r ∧ (t.unit r.unit).setpoint = some c.pmin ∧
      (∀ p, (s.unit r.unit).present = true → (s.unit r.unit).context ≠ .dark → (s.unit r.unit).link.lastReport = some p →
        p.state = .generating → (t.unit r.unit).contribution = c.genFlow c.pmin (s.headFor r.unit)) ∧
      ((s.unit r.unit).link.state = .up → (s.unit r.unit).link.outstanding = none →
        t.linkOut = s.linkOut ++ [(r.unit, .directive (s.unit r.unit).link.toggle (.setPower c.pmin))]) := by
  have hr := (engagedOrder_some engaged).1
  let running : Order := { r with life := .running, actualStart := some s.plantTime, unseen := true }
  have runs : ((s.started h r).modUnit r.unit fun b => { b with ceiling := none }).engagedOrder r.unit = some (h, running) :=
    engagedOrder_changed engaged (by simp [hr, running]) (fun k other => by simp [other]) rfl rfl
  have pmin : (s.started h r).capTime r.unit (·.pmin) = c.pmin := by
    unfold State.capTime; rw [started_unit, if_pos rfl]; simp [record]
  have spaced₁ := ramped_spaced (h := h) (r := r) (p := c.pmin) spaced
  have fresh := State.OnlyFlows.recompute spaced₁
  have spaced₂ := (State.SameButPower.ask ((s.ramped h r c.pmin).recompute r.unit) r.unit (.setPower c.pmin)).spaced
    (fresh.spaced spaced₁)
  have same := State.OnlyFlows.recompute spaced₂
  have completed : s.completeStart h r = ((s.ramped h r c.pmin).recompute r.unit).ask r.unit (.setPower c.pmin) := by
    rw [completeStart_generate free generate, pmin, commitSetpoint_otherTarget runs other.symm]
    rfl
  rw [completed]
  refine ⟨_, rfl, ⟨?_, ?_, ?_, ?_⟩, ?_, fun p present lit told generating => contribution_recompute spaced₂
    (sat := c.genSaturates c.pmin (s.headFor r.unit)) ?_, fun up ready => ?_⟩
  · rw [same.order, ask_order?, fresh.order]; simp [hr]
  · rw [same.timer, ask_timer, fresh.timer]; simp
  · rw [same.context, ask_context, fresh.context]; simp
  · rw [same.latched, ask_latched, fresh.latched]; simp
  · rw [same.setpoint, ask_setpoint, fresh.setpoint]; simp
  · have head : (((s.ramped h r c.pmin).recompute r.unit).ask r.unit (.setPower c.pmin)).headFor r.unit = s.headFor r.unit := by
      rw [ask_headFor, fresh.headFor]; unfold State.headFor; simp
    rw [← head]
    refine contributionOf_generating (p := p) ?_ ?_ ?_ ?_ generating ?_
    · rw [ask_present, fresh.present]; simp [present]
    · rw [ask_context, fresh.context]; simp [lit]
    · rw [ask_lastReport, fresh.link]; simp [told]
    · rw [ask_current, fresh.link]; simp [record]
    · have order : (s.ramped h r c.pmin).engagedOrder r.unit = some (h, running) := runs
      unfold State.runningSetpoint
      rw [ask_engagedOrder, fresh.engagedOrder, order, ask_setpoint, fresh.setpoint]
      dsimp only
      rw [if_pos ⟨rfl, generate⟩, ramped_unit, if_pos rfl]
  · have sent := fresh.link r.unit
    rw [same.linkOut, ask_up (by rw [sent]; simp [up]) (by rw [sent]; simp [ready]), send_linkOut, fresh.linkOut, sent]
    simp

end

end Sys2Proof.Machine
end

section
/-! # A judged report: the coasting, the legs of a pair, and a report out of phase (R72, R73, R81, R82, R87) -/

namespace Sys2Proof.Machine

/-! ## STANDSTILL ends the coasting (R72) -/

section
variable {s : State} {h : Handle} {r : Order}

theorem coasted_fails (spent : s.retry = false ∨ 2 ≤ r.attempts) : s.coasted h r = s.endOrder h (.failed .converter) :=
  if_neg fun ⟨retry, attempts⟩ => by
    rcases spent with off | spent
    · rw [off] at retry; cases retry
    · exact absurd attempts (not_lt.2 spent)

/-- With a retry left the order waits for a converter again (R72, R93). -/
theorem coasted_retries (hr : s.order? h = some r) (retry : s.retry = true) (attempts : r.attempts < 2)
    (busy : ∀ c, (s.converter c).state ≠ .free) (spaced : (s.waterway (s.unit r.unit).waterway).spacing.isSome = true) :
    ∃ t, ((s.coasted h r).1.recompute r.unit).settle (s.coasted h r).2 = t ∧
      t.order? h = some { r with life := .starting .queuedConverter } ∧ (t.unit r.unit).supervision = none ∧
      { handle := h, unit := r.unit, cls := r.cls, start := r.start } ∈ t.startQueue := by
  let waiting := (s.stopSupervision r.unit).modOrder h fun q => { q with life := .starting .queuedConverter }
  have queued : s.coasted h r = (waiting.withStart { handle := h, unit := r.unit, cls := r.cls, start := r.start }, []) := by
    unfold State.coasted
    rw [if_pos ⟨retry, attempts⟩]
    exact congrArg (·, []) (joinStartQueue_busy (s := waiting) (by simpa [waiting, State.stopSupervision] using busy) h r)
  have same := State.OnlyFlows.recompute (s := waiting.withStart { handle := h, unit := r.unit, cls := r.cls, start := r.start })
    (u := r.unit) (by simpa [waiting, State.stopSupervision] using spaced)
  rw [queued]
  refine ⟨_, settle_nil _, ?_, ?_, ?_⟩
  · rw [same.order]; simp [waiting, State.stopSupervision, hr]
  · rw [same.timer]; simp [waiting, State.stopSupervision]
  · rw [same.startQueue]; simp

/-! ## A report that advances its phase (Table 4-5) -/

theorem advancePhase_converterRun (life : r.life = .starting .converterRun) : s.advancePhase h r = (s.synced h r, []) := by
  unfold State.advancePhase; rw [life]
theorem advancePhase_coasting (life : r.life = .starting .coasting) : s.advancePhase h r = s.coasted h r := by
  unfold State.advancePhase; rw [life]
theorem advancePhase_runup (life : r.life = .starting .runup) : s.advancePhase h r = (s.completeStart h r, []) := by
  unfold State.advancePhase; rw [life]
theorem advancePhase_rundown {c : DoneCause} (life : r.life = .stopping .rundown c) :
    s.advancePhase h r = s.endOrder h (.done c) := by
  unfold State.advancePhase; rw [life]

/-- The running state completes a RUNUP (Table 4-5). -/
theorem verdictInRunup_running {m : Mode} {st : MachineState} (running : isRunningState m st = true) :
    verdictInRunup m st = .advances := by
  revert running; cases m <;> cases st <;> decide

/-! ## A frame error short of a burst (R141) -/

theorem frameError_counts {u : UnitNo} (below : (s.unit u).link.frameErrors + 1 < s.supervision.burstCount) :
    s.frameError u = s.modLink u fun l => { l with frameErrors := l.frameErrors + 1 } := by
  unfold State.frameError
  refine if_neg (not_le.2 ?_)
  unfold State.modLink
  rw [unit_modUnit, if_pos rfl]
  exact below

theorem State.OnlyFlows.supervision {t : State} (same : s.OnlyFlows t) : t.supervision = s.supervision := by rw [same.frame]

/-! ## A PUMP leg becomes RUNNING (R73) -/

/-- An entry that joins a gate that is SPACING leaves every spacing as it stands. -/
theorem spacing_joinGate (spaced : (s.waterway (s.unit r.unit).waterway).spacing.isSome = true) (kind : EntryKind) (w : WaterwayNo) :
    ((s.joinGate h r kind).waterway w).spacing = (s.waterway w).spacing := by
  rw [joinGate_spaced spaced, waterway_modWaterway]
  split
  · next same => subst same; rfl
  · rfl

section
variable {g : Handle} {q : Order} (free : s.named = []) (pair : s.IsPair h g r q)
  (spaced : (s.waterway (s.unit r.unit).waterway).spacing.isSome = true)
include free pair spaced

/-- The GENERATE leg leaves PAIR_HOLD and waits at its gate (R73, log entry 48). -/
theorem completeStart_pumpLeg (holds : q.life = .starting .pairHold)
    (spaced' : (s.waterway (s.unit q.unit).waterway).spacing.isSome = true) :
    ∃ t, (s.completeStart h r).recompute r.unit = t ∧
      t.order? h = some { r with life := .running, actualStart := some s.plantTime, unseen := true } ∧
      t.order? g = some { q with life := .starting .awaitingGate } ∧
      ∃ e ∈ (t.waterway (s.unit q.unit).waterway).queue, e.handle = g ∧ e.unit = q.unit ∧ e.kind = .start := by
  have spaced₁ := started_spaced (h := h) (r := r) spaced
  have fresh := State.OnlyFlows.recompute spaced₁
  let waiting := ((s.started h r).recompute r.unit).modOrder g fun q => { q with life := .starting .awaitingGate }
  have genLeg : ((s.started h r).recompute r.unit).order? g = some q := by
    rw [fresh.order]; simp [pair.distinct.symm, pair.genLeg]
  have completed : s.completeStart h r = waiting.joinGate g q .start := by
    rw [completeStart_other free (by simp [pair.pumpMode])]
    unfold State.releasePairHold
    rw [pair.pumpMode, pair.pumpPartner]
    dsimp only
    rw [genLeg]
    exact if_pos holds
  have home : (waiting.unit q.unit).waterway = (s.unit q.unit).waterway := by
    simp only [waiting, modOrder_unit]; rw [fresh.home, started_unit]; split <;> [(next same => exact absurd same pair.units); rfl]
  have atGate : (waiting.waterway (waiting.unit q.unit).waterway).spacing.isSome = true := by
    rw [home]; simp only [waiting, modOrder_waterway]; rw [fresh.spacing, started_waterway, spaced']
  have joined := joinGate_spaced atGate g .start
  obtain ⟨e, entry, handle, kind, unit⟩ := exists_mem_joinGate atGate g .start
  have same := State.OnlyFlows.recompute (s := waiting.joinGate g q .start) (u := r.unit) (by
    rw [spacing_joinGate atGate, joined, modWaterway_unit]
    simpa [waiting] using fresh.spaced spaced₁)
  rw [completed]
  refine ⟨_, rfl, ?_, ?_, e, ?_, handle, unit, kind⟩
  · rw [same.order, joined]; simp [waiting, pair.distinct, fresh.order, pair.pumpLeg]
  · rw [same.order, joined]; simp [waiting, genLeg]
  · rw [same.queue, ← home]; exact entry

end

/-! ## The end of a GENERATE leg stops its PUMP leg (R82) -/

theorem pumpStopped_ended {g : Handle} {q : Order} (hq : s.order? g = some q) (ended : q.life.live = false) :
    s.runTask (.pumpStopped g) = (s, []) := by
  have late : q.endsWithPartner = false := by
    revert ended
    unfold Order.endsWithPartner
    cases q.life <;> simp [Life.live, Life.engaged]
  show s.treatGenerateLeg g = _
  unfold State.treatGenerateLeg
  rw [hq]
  exact if_neg (by simp [late])

/-- The stop of a RUNNING PUMP leg begins, with the cause awaited or else PARTNER (R81, R82). -/
theorem partnerEnded_running {g : Handle} {q : Order} (free : s.named = []) (hr : s.order? h = some r) (pump : r.mode = .pump)
    (partner : r.partner = some g) (last : r.successor = none) (running : r.life = .running) (hq : s.order? g = some q)
    (ended : q.life.live = false) (spaced : (s.waterway (s.unit r.unit).waterway).spacing.isSome = true) :
    ∃ t, s.runTask (.partnerEnded h) = (t, [.pumpStopped g]) ∧
      t.order? h = some { r.into (.stopping .awaitingGate (r.awaited.getD .partner)) with awaited := none } ∧
      (∀ k, k ≠ h → t.order? k = s.order? k) ∧ s.AwaitsStop t h r := by
  have early : r.endsWithPartner = false := by unfold Order.endsWithPartner; rw [running]
  have treated : s.runTask (.partnerEnded h) = match r.awaited with
      | some c => (s.modOrder h fun r => { r with awaited := none }).stopNow h c
      | none => s.beginStop h .partner := by
    show s.treatPartner h = _
    unfold State.treatPartner
    rw [hr]
    exact if_neg (by simp [early])
  have tasks : stopTasks r = [.pumpStopped g] := by rw [stopTasks_last last, if_pos pump, partner]; rfl
  cases awaited : r.awaited with
  | none =>
    obtain ⟨t, effect, stops, entry⟩ := stopEffect_awaitsGate free hr spaced running (by simp [pump]) .partner
    have stands : q.life.onLine = false ∧ q.life.isStopping = false := by
      revert ended; cases q.life <;> simp [Life.live, Life.engaged, Life.onLine, Life.isStopping]
    refine ⟨t, ?_, stops.record.trans ?_, stops.others, entry⟩
    · rw [treated, awaited]
      dsimp only
      rw [beginStop_atOnce hr running (deferringLeg_pair partner hq stands), effect, tasks]
      rfl
    · exact congrArg (fun a => some { r.into (.stopping .awaitingGate .partner) with awaited := a }) awaited
  | some c =>
    have hr' : (s.modOrder h fun r => { r with awaited := none }).order? h = some { r with awaited := none } := by simp [hr]
    obtain ⟨t, effect, stops, entry⟩ := stopEffect_awaitsGate (r := { r with awaited := none }) (by simpa using free) hr'
      (by simpa using spaced) running (by simp [pump]) c
    refine ⟨t, ?_, stops.record, fun k other => (stops.others k other).trans (by simp [other]), by
      simpa [State.AwaitsStop] using entry⟩
    rw [treated, awaited]
    dsimp only
    rw [stopNow_running hr' running, effect]
    exact congrArg (t, ·) tasks

/-- A GENERATE leg ends, and its RUNNING PUMP leg stops with it (R82, R83). -/
theorem genLeg_ends {g : Handle} {q : Order} (free : s.named = []) (pair : s.IsPair h g r q) (running : r.life = .running)
    (engaged : q.life.engaged = true) (served : q.life ≠ .starting .converterRun) (stays : q.retirePending = false)
    (spaced : (s.waterway (s.unit r.unit).waterway).spacing.isSome = true)
    (spaced' : (s.waterway (s.unit q.unit).waterway).spacing.isSome = true)
    (noDue : ∀ k x, s.order? k = some x → x.unit = q.unit → x.life ≠ .due) (e : Ending) :
    ∃ t, ((s.endOrder g e).1.recompute q.unit).settle (s.endOrder g e).2 = t ∧
      t.order? g = some (q.into (e.life s.plantTime)) ∧
      t.order? h = some { r.into (.stopping .awaitingGate (r.awaited.getD .partner)) with awaited := none } ∧
      s.AwaitsStop t h r := by
  obtain ⟨a, ends, left⟩ := endOrder_engaged pair.genLeg engaged (.inr (by simp [pair.genMode])) (fun run => absurd run served)
    (fun _ => spaced') e
  have facts := left.afterFlows (.recompute (left.spaced spaced'))
  have table := facts.table free stays
  have idle := engagement_idle (s := a.recompute q.unit) (table.noDue fun k x hx unit due => absurd due (noDue k x hx unit))
  have genLeg : (a.recompute q.unit).order? g = some (q.into (e.life s.plantTime)) := by
    rw [table.record, Order.ended_last pair.genLink]
  have pumpLeg : (a.recompute q.unit).order? h = some r := by
    rw [table.others h pair.distinct, pair.pumpLeg, Option.map_some, Order.afterEnding_last pair.pumpLink]
  have dead : (q.into (e.life s.plantTime)).life.live = false := by cases e <;> rfl
  obtain ⟨t, partner, record, others, entry⟩ := partnerEnded_running (table.named.trans free) pumpLeg pair.pumpMode pair.pumpPartner
    pair.pumpLink running genLeg dead (facts.spaced spaced)
  have genLeg' := (others g pair.distinct.symm).trans genLeg
  have last := pumpStopped_ended genLeg' dead
  refine ⟨t, ?_, genLeg', record, ?_⟩
  · rw [ends, endTasks_last pair.genLink, pair.genPartner]
    split
    · exact Settles.settle (.step idle (.step partner (.step last .done)))
    · exact Settles.settle (.step partner (.step last .done))
  · unfold State.AwaitsStop at entry
    rwa [facts.home] at entry

end

end Sys2Proof.Machine
end

section
/-! # Reports of engaged orders, case by case (R69 to R73, R77, R81 to R87, R97) -/

namespace Sys2Proof.Machine

/-! ## The state as the report of an order is judged -/

/-- The state as the report of an order is judged, nothing having been sent yet (R140). -/
def State.judged (s : State) (r : Order) (p : Report) : State := s.quiet.told r.unit p

section
variable (s : State) (r : Order) (p : Report)

@[simp] theorem judged_unit (v : UnitNo) : (s.judged r p).unit v =
    if r.unit = v then
      { s.unit r.unit with
        link := { (s.unit r.unit).link with heard := true, silent := false, lastReport := some p, sinceUp := true } }
    else s.unit v := told_unit ..
@[simp] theorem judged_order? (k : Handle) : (s.judged r p).order? k = s.order? k := told_order? ..
@[simp] theorem judged_engagedOrder (u : UnitNo) : (s.judged r p).engagedOrder u = s.engagedOrder u := told_engagedOrder ..
@[simp] theorem judged_converter (c : ConverterNo) : (s.judged r p).converter c = s.converter c := told_converter ..
@[simp] theorem judged_named : (s.judged r p).named = s.named := told_named ..
@[simp] theorem judged_plantTime : (s.judged r p).plantTime = s.plantTime := told_plantTime ..
@[simp] theorem judged_retry : (s.judged r p).retry = s.retry := told_retry ..
@[simp] theorem judged_linkOut : (s.judged r p).linkOut = [] := told_linkOut ..
@[simp] theorem judged_supervision : (s.judged r p).supervision = s.supervision := told_supervision ..
theorem judged_headFor (v : UnitNo) : (s.judged r p).headFor v = s.headFor v := told_headFor (s := s.quiet) v

theorem judged_home (v : UnitNo) : ((s.judged r p).unit v).waterway = (s.unit v).waterway := by
  rw [judged_unit]; split <;> [(next same => rw [same]); rfl]

variable {s r p}

theorem judged_spaced {v : UnitNo} (spaced : (s.waterway (s.unit v).waterway).spacing.isSome = true)
    (time : 0 < (s.waterway (s.unit v).waterway).spacingTime) :
    ((s.judged r p).waterway ((s.judged r p).unit v).waterway).spacing.isSome = true := by
  rw [judged_home]
  exact told_spaced (s := s.quiet) spaced time

theorem State.IsPair.judged {h g : Handle} {r q o : Order} (pair : s.IsPair h g r q) : (s.judged o p).IsPair h g r q :=
  { pair with pumpLeg := (judged_order? ..).trans pair.pumpLeg, genLeg := (judged_order? ..).trans pair.genLeg }

theorem State.RunsFor.judged {c : ConverterNo} {h : Handle} (runs : s.RunsFor c h) : (s.judged r p).RunsFor c h :=
  ⟨by simpa using runs.runs, by simpa using runs.only, by simpa using runs.coolDown⟩

/-- A report that advances the phase of its order (Table 4-5). -/
theorem judged_advances {h : Handle} (remote : p.place = .remote) (runs : p.state ≠ .tripped)
    (stands : p.state = .standstill → turning r.life r.mode (s.unit r.unit).motion = false)
    (verdict : phaseVerdict r.life r.mode p.state = .advances) :
    (s.judged r p).judgeReport h r p = ((s.judged r p).advancePhase h r, false) :=
  judgeReport_advances remote runs (by rw [judged_unit, if_pos rfl]; exact stands) verdict

/-- A report that tells of a failure (R84 to R86). -/
theorem judged_fails {h : Handle} (tells : p.place = .locally ∨ p.state = .tripped ∨
      (p.state = .standstill ∧ turning r.life r.mode (s.unit r.unit).motion = true)) :
    (s.judged r p).judgeReport h r p = ((s.judged r p).endOrder h (.failed (if p.place = .locally then .localControl
      else if p.state = .tripped then .trip else .dropped)), false) :=
  judgeReport_fails (by rw [judged_unit, if_pos rfl]; exact tells)

end

/-! ## A report of a single order -/

/-- The ENGAGED unit of an order whose report is about to come, its link UP and its gate SPACING. -/
structure State.Reports (s : State) (h : Handle) (r : Order) : Prop where
  present : (s.unit r.unit).present = true
  context : (s.unit r.unit).context = .engaged
  up : (s.unit r.unit).link.state = .up
  since : (s.unit r.unit).link.sinceUp = true
  engaged : s.engagedOrder r.unit = some (h, r)
  spaced : (s.waterway (s.unit r.unit).waterway).spacing.isSome = true
  time : 0 < (s.waterway (s.unit r.unit).waterway).spacingTime
  noDue : ∀ k q, s.order? k = some q → q.unit = r.unit → q.life ≠ .due

namespace State.Reports

variable {s : State} {h : Handle} {r : Order} {p : Report} (ready : s.Reports h r)
include ready

theorem record : (s.judged r p).order? h = some r := (judged_order? ..).trans (engagedOrder_some ready.engaged).1
theorem live : r.life.engaged = true := (engagedOrder_some ready.engaged).2.2
theorem gate : ((s.judged r p).waterway ((s.judged r p).unit r.unit).waterway).spacing.isSome = true :=
  judged_spaced ready.spaced ready.time
theorem noneDue : ∀ k q, (s.judged r p).order? k = some q → q.unit = r.unit → q.life ≠ .due := by
  simpa using ready.noDue

/-- A report that fits its phase is carried through without a frame error. -/
theorem exec_inPhase {w : Work} (judged : (s.judged r p).judgeReport h r p = (w, false)) :
    exec (.stateReport r.unit p) s = .next ((w.1.recompute r.unit).settle w.2) := by
  rw [exec_stateReport ready.present ready.context ready.up ready.since ready.engaged judged]
  exact congrArg _ (if_neg Bool.false_ne_true)

/-- The order ends by its report. -/
theorem ends (free : s.named = []) (single : r.partner = none) (last : r.successor = none) (stays : r.retirePending = false)
    (rests : r.life = .starting .converterRun → ∃ c, s.RunsFor c h) {e : Ending}
    (judged : (s.judged r p).judgeReport h r p = ((s.judged r p).endOrder h e, false)) :
    ∃ t, exec (.stateReport r.unit p) s = .next t ∧ (s.judged r p).EndsEngaged t h r e ∧
      t.order? h = some (r.into (e.life s.plantTime)) ∧ t.latched e.event = true := by
  have free : (s.judged r p).named = [] := (judged_named ..).trans free
  obtain ⟨t, settled, facts⟩ := ends_settled free ready.record ready.live single last stays
    (fun run => (rests run).imp fun _ runs => runs.judged) ready.gate ready.noneDue e
  have table := facts.table free stays
  have record := table.record
  rw [Order.ended_last last, judged_plantTime] at record
  exact ⟨t, (ready.exec_inPhase judged).trans (congrArg _ settled), facts, record, table.event⟩

/-- A report that leaves no task. -/
theorem moves {a : State} (judged : (s.judged r p).judgeReport h r p = ((a, []), false)) :
    exec (.stateReport r.unit p) s = .next (a.recompute r.unit) :=
  (ready.exec_inPhase judged).trans (congrArg _ (settle_nil _))

/-- LOCAL control, a trip, a dropped machine and a coasting without a retry fail the order (R72, R84 to R86). -/
theorem fails (free : s.named = []) (single : r.partner = none) (last : r.successor = none) (stays : r.retirePending = false)
    (served : r.life ≠ .starting .converterRun) {cause : FailCause} {context : Context}
    (tells : (p.place = .locally ∧ cause = .localControl ∧ context = .locally) ∨
      (p.place = .remote ∧ p.state = .tripped ∧ cause = .trip ∧ context = .recovering) ∨
      (p.place = .remote ∧ p.state = .standstill ∧ cause = .dropped ∧ context = .idle ∧
        turning r.life r.mode (s.unit r.unit).motion = true) ∨
      (p.place = .remote ∧ p.state = .standstill ∧ r.life = .starting .coasting ∧ (s.retry = false ∨ 2 ≤ r.attempts) ∧
        cause = .converter ∧ context = .idle)) :
    ∃ t : State, exec (.stateReport r.unit p) s = .next t ∧ t.order? h = some (r.into (.failed cause s.plantTime)) ∧
      (t.unit r.unit).context = context ∧ t.latched .orderFailed = true ∧ (t.unit r.unit).setpoint = none ∧
      (t.unit r.unit).supervision = none := by
  obtain ⟨judged, rfl⟩ : (s.judged r p).judgeReport h r p = ((s.judged r p).endOrder h (.failed cause), false) ∧
      (Ending.failed cause).context = context := by
    rcases tells with ⟨place, rfl, rfl⟩ | ⟨place, state, rfl, rfl⟩ | ⟨place, state, rfl, rfl, turns⟩ |
      ⟨place, state, life, spent, rfl, rfl⟩
    · exact ⟨by rw [judged_fails (.inl place), if_pos place], rfl⟩
    · exact ⟨by rw [judged_fails (.inr (.inl state)), if_neg (by simp [place]), if_pos state], rfl⟩
    · exact ⟨by rw [judged_fails (.inr (.inr ⟨state, turns⟩)), if_neg (by simp [place]), if_neg (by simp [state])], rfl⟩
    · refine ⟨?_, rfl⟩
      rw [judged_advances place (by simp [state]) (fun _ => by rw [life]; rfl) (by rw [life, state]; rfl),
        advancePhase_coasting life, coasted_fails (by simpa using spent)]
  obtain ⟨t, result, facts, record, event⟩ := ready.ends free single last stays (fun run => absurd run served) judged
  obtain ⟨_, _, _, _, own⟩ := facts.own
  exact ⟨t, result, record, by rw [own], event, by rw [own], by rw [own]⟩

end State.Reports

end Sys2Proof.Machine
end

section
/-! # Reports that move an order on (R69 to R73, R77, R81, R82, R87, R97) -/

namespace Sys2Proof.Machine

namespace State.Reports

variable {s : State} {h : Handle} {r : Order} {p : Report} (ready : s.Reports h r)
include ready

/-! ## In CONVERTER_RUN (R70, R97) -/

section
variable {c : ConverterNo} (runs : s.RunsFor c h) (life : r.life = .starting .converterRun)
include runs life

/-- LOCAL control, a trip and a dropped machine fail the order, and its converter rests (R84 to R86, R97). -/
theorem fails_onConverter (free : s.named = []) (single : r.partner = none) (last : r.successor = none)
    (stays : r.retirePending = false)
    (tells : p.place = .locally ∨ p.state = .tripped ∨ (p.state = .standstill ∧ (s.unit r.unit).motion = true)) :
    ∃ (t : State) (q : Order), exec (.stateReport r.unit p) s = .next t ∧ t.order? h = some q ∧
      q = { r with life := q.life, unseen := true } ∧
      q.life = .failed (if p.place = .locally then .localControl else if p.state = .tripped then .trip else .dropped)
        s.plantTime ∧
      (t.unit r.unit).context = (if p.place = .locally then .locally else if p.state = .tripped then .recovering else .idle) ∧
      t.converter c = (s.converter c).rested ∧ t.latched .orderFailed = true ∧ t.latched .converterChange = true := by
  obtain ⟨t, result, facts, record, event⟩ := ready.ends free single last stays (fun _ => ⟨c, runs⟩)
    (judged_fails (by rw [life]; exact tells))
  obtain ⟨rest, change⟩ := facts.rested c life runs.judged
  obtain ⟨_, _, _, _, own⟩ := facts.own
  refine ⟨t, _, result, record, rfl, rfl, ?_, rest.trans (by rw [judged_converter]), event, change⟩
  rw [own]
  dsimp only
  split
  · rfl
  · split <;> rfl

/-- SYNCED_P ends the converter run (R70, R97). -/
theorem synchronises (free : s.named = []) (single : r.partner = none) (remote : p.place = .remote) (state : p.state = .syncedP)
    (mode : r.mode = .pump ∨ r.mode = .condenseP) :
    ∃ t : State, exec (.stateReport r.unit p) s = .next t ∧ (t.unit r.unit).motion = true ∧
      (t.unit r.unit).context = .engaged ∧ t.converter c = (s.converter c).rested ∧ t.latched .converterChange = true ∧
      (r.mode = .pump → t.order? h = some { r with life := .starting .awaitingGate } ∧
        ∃ e ∈ (t.waterway (s.unit r.unit).waterway).queue, e.handle = h ∧ e.unit = r.unit ∧ e.kind = .start) ∧
      (r.mode = .condenseP → t.latched .orderChanged = true ∧ (t.unit r.unit).supervision = none ∧
        t.order? h = some { r with life := .running, actualStart := some s.plantTime, unseen := true }) := by
  have judged := judged_advances (s := s) (h := h) remote (by simp [state]) (by simp [state]) (by rw [life, state]; rfl)
  rw [advancePhase_converterRun life] at judged
  have result := ready.moves judged
  have engaged : ((s.judged r p).unit r.unit).context = .engaged := by rw [judged_unit, if_pos rfl]; exact ready.context
  rcases mode with pump | condense
  · obtain ⟨t, moved, ⟨motion, context, rest, change⟩, record, entry⟩ := synced_pump runs.judged ready.record ready.gate pump
    rw [moved] at result
    rw [judged_home] at entry
    exact ⟨t, result, motion, context.trans engaged, rest.trans (by rw [judged_converter]), change, fun _ => ⟨record, entry⟩,
      fun other => by rw [pump] at other; cases other⟩
  · obtain ⟨t, moved, ⟨motion, context, rest, change⟩, event, timer, record⟩ :=
      synced_condenseP runs.judged ready.record ready.gate ((judged_named ..).trans free) condense single
    rw [moved] at result
    rw [judged_plantTime] at record
    exact ⟨t, result, motion, context.trans engaged, rest.trans (by rw [judged_converter]), change,
      fun other => (by rw [condense] at other; cases other), fun _ => ⟨event, timer, record⟩⟩

end

/-! ## In RUNUP (R69, R71) -/

omit ready in
/-- The running state of an order in RUNUP completes its start. -/
theorem judged_runup (remote : p.place = .remote) (life : r.life = .starting .runup) (running : isRunningState r.mode p.state = true)
    (moves : p.state ≠ .tripped ∧ p.state ≠ .standstill) :
    (s.judged r p).judgeReport h r p = (((s.judged r p).completeStart h r, []), false) := by
  rw [judged_advances remote moves.1 (fun stands => absurd stands moves.2) (by rw [life]; exact verdictInRunup_running running),
    advancePhase_runup life]

theorem completes {c : Capability} (free : s.named = []) (single : r.partner = none) (record : (s.unit r.unit).link.current = some c)
    (remote : p.place = .remote) (life : r.life = .starting .runup)
    (running : (r.mode = .pump ∧ p.state = .pumping) ∨ (r.mode = .condenseG ∧ p.state = .condensingG)) :
    ∃ t : State, exec (.stateReport r.unit p) s = .next t ∧
      t.order? h = some { r with life := .running, actualStart := some s.plantTime, unseen := true } ∧
      (t.unit r.unit).supervision = none ∧ (t.unit r.unit).context = .engaged ∧ t.latched .orderChanged = true ∧
      (r.mode = .condenseG → (t.unit r.unit).contribution = 0) ∧
      ∀ x, r.mode = .pump → c.pump = some x → (t.unit r.unit).contribution = -(x.pumpFlow (s.headFor r.unit) : Int) := by
  have free : (s.judged r p).named = [] := (judged_named ..).trans free
  have judged : (s.judged r p).judgeReport h r p = (((s.judged r p).completeStart h r, []), false) := by
    refine judged_runup remote life ?_ ?_ <;> rcases running with ⟨m, st⟩ | ⟨m, st⟩ <;> simp [m, st, isRunningState]
  obtain ⟨t, moved, ⟨order, timer, context, event⟩, flow⟩ := completeStart_settled free ready.record ready.gate
    (by rcases running with ⟨m, -⟩ | ⟨m, -⟩ <;> simp [m]) single
  have result := ready.moves judged
  rw [moved] at result
  rw [judged_plantTime] at order
  have fresh := State.OnlyFlows.recompute (started_spaced (s := s.judged r p) (h := h) (r := r) ready.gate)
  have present : ((((s.judged r p).started h r).recompute r.unit).unit r.unit).present = true := by
    rw [fresh.present]; simp [ready.present]
  have lit : ((((s.judged r p).started h r).recompute r.unit).unit r.unit).context ≠ .dark := by
    rw [fresh.context]; simp [ready.context]
  have told : ((((s.judged r p).started h r).recompute r.unit).unit r.unit).link.lastReport = some p := by
    rw [fresh.link]; simp
  have current : ((((s.judged r p).started h r).recompute r.unit).unit r.unit).link.current = some c := by
    rw [fresh.link]; simp [record]
  have head : (((s.judged r p).started h r).recompute r.unit).headFor r.unit = s.headFor r.unit := by
    rw [fresh.headFor, ← judged_headFor s r p r.unit]; unfold State.headFor; simp
  refine ⟨t, result, order, timer, context.trans (by simp [ready.context]), event, fun condense => ?_, fun x pump table => ?_⟩
  · rcases running with ⟨m, -⟩ | ⟨-, st⟩
    · rw [condense] at m; cases m
    · exact flow 0 false (contributionOf_condensing present lit told current st)
  · rcases running with ⟨-, st⟩ | ⟨m, -⟩
    · rw [← head]
      exact flow _ false (contributionOf_pumping present lit told current st table)
    · rw [pump] at m; cases m

theorem generates {c : Capability} (free : s.named = []) (record : (s.unit r.unit).link.current = some c) (remote : p.place = .remote)
    (state : p.state = .generating) (mode : r.mode = .generate) (life : r.life = .starting .runup) (other : c.pmin ≠ r.target) :
    ∃ t : State, exec (.stateReport r.unit p) s = .next t ∧
      t.order? h = some { r with life := .running, actualStart := some s.plantTime, unseen := true } ∧
      (t.unit r.unit).setpoint = some c.pmin ∧ (t.unit r.unit).supervision = none ∧ (t.unit r.unit).context = .engaged ∧
      (t.unit r.unit).contribution = c.genFlow c.pmin (s.headFor r.unit) ∧
      ((s.unit r.unit).link.outstanding = none →
        t.linkOut = [(r.unit, .directive (s.unit r.unit).link.toggle (.setPower c.pmin))]) := by
  have judged : (s.judged r p).judgeReport h r p = (((s.judged r p).completeStart h r, []), false) :=
    judged_runup remote life (by simp [mode, state, isRunningState]) (by simp [state])
  obtain ⟨t, moved, ⟨order, timer, context, -⟩, setpoint, flow, sent⟩ := completeStart_generates (c := c) (s := s.judged r p)
    ((judged_named ..).trans free) ((judged_engagedOrder ..).trans ready.engaged) ready.gate mode (by simp [record]) other
  have result := ready.moves judged
  rw [moved] at result
  rw [judged_plantTime] at order
  refine ⟨t, result, order, setpoint, timer, context.trans (by simp [ready.context]), ?_, fun none => ?_⟩
  · rw [flow p (by simp [ready.present]) (by simp [ready.context]) (by simp) state, judged_headFor]
  · simpa using sent (by simp [ready.up]) (by simp [none])

/-! ## Other phases -/

/-- STANDSTILL ends a rundown (R77). -/
theorem rundown_ends (free : s.named = []) (single : r.partner = none) (last : r.successor = none) (stays : r.retirePending = false)
    {c : DoneCause} (remote : p.place = .remote) (state : p.state = .standstill) (life : r.life = .stopping .rundown c) :
    ∃ t : State, exec (.stateReport r.unit p) s = .next t ∧ t.order? h = some (r.into (.done c s.plantTime)) ∧
      (t.unit r.unit).context = .idle ∧ t.latched .orderDone = true := by
  have judged := judged_advances (s := s) (h := h) remote (by simp [state]) (fun _ => by rw [life]; rfl) (by rw [life, state]; rfl)
  rw [advancePhase_rundown life] at judged
  obtain ⟨t, result, facts, record, event⟩ := ready.ends free single last stays (fun run => by rw [life] at run; cases run) judged
  obtain ⟨_, _, _, _, own⟩ := facts.own
  exact ⟨t, result, record, by rw [own]; rfl, event⟩

/-- STANDSTILL ends a coasting with a retry left (R72). -/
theorem coasting_retries (busy : ∀ c, (s.converter c).state ≠ .free) (remote : p.place = .remote) (state : p.state = .standstill)
    (life : r.life = .starting .coasting) (retry : s.retry = true) (attempts : r.attempts < 2) :
    ∃ t : State, exec (.stateReport r.unit p) s = .next t ∧ t.order? h = some { r with life := .starting .queuedConverter } ∧
      (t.unit r.unit).supervision = none ∧
      { handle := h, unit := r.unit, cls := r.cls, start := r.start } ∈ t.startQueue := by
  have judged := judged_advances (s := s) (h := h) remote (by simp [state]) (fun _ => by rw [life]; rfl) (by rw [life, state]; rfl)
  rw [advancePhase_coasting life] at judged
  obtain ⟨t, moved, facts⟩ := coasted_retries ready.record (by simpa using retry) attempts (by simpa using busy) ready.gate
  exact ⟨t, (ready.exec_inPhase judged).trans (congrArg _ moved), facts⟩

/-- PUMPING of a RUNNING GENERATE order is out of phase: ignored, and counted as a frame error (R87, R139). -/
theorem outOfPhase (remote : p.place = .remote) (state : p.state = .pumping) (mode : r.mode = .generate) (life : r.life = .running)
    (below : (s.unit r.unit).link.frameErrors + 1 < s.supervision.burstCount) :
    ∃ t : State, exec (.stateReport r.unit p) s = .next t ∧ t.order? h = some r ∧ (t.unit r.unit).context = .engaged ∧
      (t.unit r.unit).link.frameErrors = (s.unit r.unit).link.frameErrors + 1 := by
  have judged : (s.judged r p).judgeReport h r p = ((s.judged r p, []), true) :=
    judgeReport_outOfPhase remote (by simp [state]) (by simp [state]) (by rw [life, mode, state]; rfl)
  have same := State.OnlyFlows.recompute (ready.gate (p := p))
  have counted : ((s.judged r p).recompute r.unit).frameError r.unit = _ :=
    frameError_counts (by rw [same.link, same.supervision]; simpa using below)
  have result := exec_stateReport ready.present ready.context ready.up ready.since ready.engaged judged
  rw [if_pos rfl, settle_nil, counted] at result
  refine ⟨_, result, ?_, ?_, ?_⟩
  · unfold State.modLink; rw [modUnit_order?, same.order, ready.record]
  · unfold State.modLink; rw [unit_modUnit, if_pos rfl]; dsimp only; rw [same.context]; simp [ready.context]
  · unfold State.modLink; rw [unit_modUnit, if_pos rfl]; dsimp only; rw [same.link]; simp

end State.Reports

end Sys2Proof.Machine
end

section
/-! # Reports of the legs of a pair, and of engaged orders together (R73, R81, R82) -/

namespace Sys2Proof.Machine

section
variable {s : State} {h g : Handle} {r q : Order} {p : Report} (free : s.named = []) (pair : s.IsPair h g r q)
  (pump : s.Reports h r) (gen : s.Reports g q)
include free pair pump gen

/-- A PUMP leg that becomes RUNNING releases its GENERATE leg from PAIR_HOLD (R73). -/
theorem report_pumpLeg_runs (remote : p.place = .remote) (state : p.state = .pumping) (life : r.life = .starting .runup)
    (holds : q.life = .starting .pairHold) :
    ∃ t : State, exec (.stateReport r.unit p) s = .next t ∧
      t.order? h = some { r with life := .running, actualStart := some s.plantTime, unseen := true } ∧
      t.order? g = some { q with life := .starting .awaitingGate } ∧
      ∃ e ∈ (t.waterway (s.unit q.unit).waterway).queue, e.handle = g ∧ e.unit = q.unit ∧ e.kind = .start := by
  have judged : (s.judged r p).judgeReport h r p = (((s.judged r p).completeStart h r, []), false) :=
    State.Reports.judged_runup remote life (by simp [pair.pumpMode, state, isRunningState]) (by simp [state])
  obtain ⟨t, moved, pumpLeg, genLeg, entry⟩ := completeStart_pumpLeg ((judged_named s r p).trans free) pair.judged pump.gate holds
    (judged_spaced gen.spaced gen.time)
  have result := pump.moves judged
  rw [moved] at result
  rw [judged_plantTime] at pumpLeg
  rw [judged_home] at entry
  exact ⟨t, result, pumpLeg, genLeg, entry⟩

/-- The end of a GENERATE leg begins the stop of its RUNNING PUMP leg (R81, R82). -/
theorem report_genLeg_ends (stays : q.retirePending = false) (running : r.life = .running) {e : Ending}
    (served : q.life ≠ .starting .converterRun) (judged : (s.judged q p).judgeReport g q p = ((s.judged q p).endOrder g e, false)) :
    ∃ t : State, exec (.stateReport q.unit p) s = .next t ∧ t.order? g = some (q.into (e.life s.plantTime)) ∧
      t.order? h = some { r.into (.stopping .awaitingGate (r.awaited.getD .partner)) with awaited := none } ∧
      s.AwaitsStop t h r := by
  obtain ⟨t, settled, genLeg, pumpLeg, entry⟩ := genLeg_ends ((judged_named s q p).trans free) pair.judged running gen.live served
    stays (judged_spaced pump.spaced pump.time) gen.gate gen.noneDue e
  unfold State.AwaitsStop at entry
  rw [judged_home] at entry
  rw [judged_plantTime] at genLeg
  exact ⟨t, (gen.exec_inPhase judged).trans (congrArg _ settled), genLeg, pumpLeg, entry⟩

end

/-- Settles O52: the report is judged by the phase of its order, clause by clause of Table 4-5. -/
theorem engagedReportJudged : Obligations.EngagedReportJudged := by
  refine ⟨fun s u p h r present context up since engaged free single last stays spaced time noDue busy => ?_,
    fun s h g r q p pair free stays stays' units pumpEngaged genEngaged remote => ?_⟩
  · obtain ⟨hr, rfl, -⟩ := engagedOrder_some engaged
    have ready : s.Reports h r := ⟨present, context, up, since, engaged, spaced, time, noDue⟩
    refine ⟨fun cause context tells served => ?_, fun c n life state cool only => ⟨fun tells => ?_, fun remote state' mode => ?_⟩,
      fun c record remote life running => ready.completes free single record remote life running,
      fun c remote state life => ready.rundown_ends free single last stays remote state life,
      fun remote state life retry attempts => ready.coasting_retries busy remote state life retry attempts,
      fun c record remote state mode life other => ready.generates free record remote state mode life other,
      fun remote state mode life below => ready.outOfPhase remote state mode life below⟩
    · refine ready.fails free single last stays served (tells.imp_right (.imp_right (.imp_left ?_)))
      rintro ⟨place, state, cause, context, phase⟩
      refine ⟨place, state, cause, context, ?_⟩
      rcases phase with l | ⟨l, m⟩ | ⟨l, m⟩ | ⟨_, l⟩ | ⟨_, l⟩ <;> rw [l] <;> simp [turning, *]
    · exact ready.fails_onConverter ⟨⟨_, n, state⟩, only, cool⟩ life free single last stays tells
    · exact ready.synchronises ⟨⟨_, n, state⟩, only, cool⟩ life free single remote state' mode
  · have reports : ∀ {k : Handle} {x : Order}, (x.unit = r.unit ∨ x.unit = q.unit) → s.engagedOrder x.unit = some (k, x) →
        s.Reports k x := fun unit engaged => by
      obtain ⟨present, context, up, since, spaced, time, noDue⟩ := units _ unit
      exact ⟨present, context, up, since, engaged, spaced, time, noDue⟩
    have pump := reports (.inl rfl) pumpEngaged
    have gen := reports (.inr rfl) genEngaged
    refine ⟨fun state life holds => report_pumpLeg_runs free pair pump gen remote state life holds, fun ended running tells => ?_⟩
    obtain ⟨e, served, judged, rfl⟩ : ∃ e : Ending, q.life ≠ .starting .converterRun ∧
        (s.judged q p).judgeReport g q p = ((s.judged q p).endOrder g e, false) ∧ e.life s.plantTime = ended := by
      rcases tells with ⟨c, state, life, rfl⟩ | ⟨state, life, rfl⟩
      · refine ⟨.done c, by simp [life], ?_, rfl⟩
        rw [judged_advances remote (by simp [state]) (fun _ => by rw [life]; rfl) (by rw [life, state]; rfl),
          advancePhase_rundown life]
      · refine ⟨.failed .trip, by rcases life with l | l <;> simp [l], ?_, rfl⟩
        rw [judged_fails (.inr (.inl state)), if_neg (by simp [remote]), if_pos state]
    obtain ⟨t, result, genLeg, pumpLeg, x, entry, handle, kind, unit⟩ :=
      report_genLeg_ends free pair pump gen stays' running served judged
    exact ⟨t, result, genLeg, pumpLeg, x, entry, handle, unit, kind⟩

end Sys2Proof.Machine
end

section
/-! # Starting converters: runs that end and fail, cool-downs that end, and the grants that follow (R72, R92 to R100) -/

namespace Sys2Proof.Machine

/-! ## A converter that changes its state (R104) -/

section
variable {s : State} {c : ConverterNo}

theorem raise_raise (s : State) (e : EventKind) : (s.raise e).raise e = s.raise e := by
  simp [State.raise, BitVec.or_assoc]

theorem setConverter_setConverter (s : State) (c : ConverterNo) (x y : Converter) :
    (s.setConverter c x).setConverter c y = s.setConverter c y := by
  simp [State.setConverter]

theorem setConverterState_eq (s : State) (c : ConverterNo) (st : ConverterState) :
    s.setConverterState c st = (s.setConverter c { s.converter c with state := st }).raise .converterChange := rfl

/-- Of two changes of its state in one event a converter keeps the second, and one latch tells of both. -/
theorem setConverterState_twice (s : State) (c : ConverterNo) (st st' : ConverterState) :
    (s.setConverterState c st).setConverterState c st' = s.setConverterState c st' := by
  show (((s.setConverter c _).setConverter c _).raise _).raise _ = _
  rw [raise_raise, setConverter_setConverter]
  simp [setConverterState_eq]

/-! ## The grant walk (R92, R95) -/

/-- A unit that may use no FREE converter is granted none. -/
theorem chooseConverter_none {u : UnitNo} (barred : ∀ c, (s.converter c).state = .free → (s.unit u).eligible.getLsbD c = false) :
    s.chooseConverter u = none := by
  have unusable : ∀ c : ConverterNo, (s.isFree c && (s.unit u).eligible.getLsbD c) = false := fun c => by
    cases free : s.isFree c
    · rfl
    · rw [barred c (by simpa [State.isFree] using free)]; rfl
  unfold State.chooseConverter
  rw [show (s.isFree 0 && (s.unit u).eligible.getLsbD 0) = false from unusable 0,
    show (s.isFree 1 && (s.unit u).eligible.getLsbD 1) = false from unusable 1]

/-- A unit that may use the one FREE converter is granted it, at a retry too. -/
theorem chooseConverter_only {u : UnitNo} (free : (s.converter c).state = .free)
    (only : ∀ c', c' ≠ c → (s.converter c').state ≠ .free) (eligible : (s.unit u).eligible.getLsbD c = true) :
    s.chooseConverter u = some c := by
  have isFree : ∀ c', s.isFree c' = decide (c' = c) := fun c' => by
    by_cases same : c' = c
    · subst same; simp [State.isFree, free]
    · simpa [State.isFree, same] using only c' same
  unfold State.chooseConverter
  rw [isFree, isFree]
  match c with
  | 0 => rw [show (s.unit u).eligible.getLsbD 0 = true from eligible]; simp
  | 1 => rw [show (s.unit u).eligible.getLsbD 1 = true from eligible]; simp

/-- Entries that are granted nothing leave the state as it is. -/
theorem walk_stands {es : List StartEntry} (none : ∀ e ∈ es, s.chooseConverter e.unit = none) :
    es.foldl State.walkEntry s = s := by
  induction es with
  | nil => rfl
  | cons e es ih =>
    rw [List.foldl_cons, State.walkEntry, none e (by simp)]
    exact ih fun x hx => none x (by simp [hx])

/-- The converter runs for the order of the entry, which leaves the queue; the record is not yet written (R96). -/
def State.converterLent (s : State) (c : ConverterNo) (e : StartEntry) : State :=
  (((s.leaveStartQueue e.handle).modConverter c fun x =>
    { x with state := .running e.handle e.unit x.runLimit }).modUnit e.unit fun b =>
      { b with lastConverter := some c, motion := false }).raise .converterChange

section
variable {e : StartEntry}

@[simp] theorem converterLent_order? (h : Handle) : (s.converterLent c e).order? h = s.order? h := rfl
@[simp] theorem converterLent_unit : (s.converterLent c e).unit e.unit =
    { s.unit e.unit with lastConverter := some c, motion := false } := by
  unfold State.converterLent
  rw [raise_unit, unit_modUnit, if_pos rfl]
  rfl
@[simp] theorem converterLent_converter (k : ConverterNo) : (s.converterLent c e).converter k =
    if c = k then { s.converter c with state := .running e.handle e.unit (s.converter c).runLimit } else s.converter k := by
  unfold State.converterLent
  rw [raise_converter, modUnit_converter, converter_modConverter]
  rfl
@[simp] theorem converterLent_startQueue : (s.converterLent c e).startQueue = withoutStart e.handle s.startQueue := rfl
@[simp] theorem converterLent_linkOut : (s.converterLent c e).linkOut = s.linkOut := rfl
@[simp] theorem converterLent_latched : (s.converterLent c e).latched .converterChange = true :=
  (latched_raise ..).trans (by simp)

/-- What a grant leaves: the converter runs for the order, which is in CONVERTER_RUN with one attempt more, its entry is gone and the
start directive sent (R70, R96). -/
structure State.RunGranted (s t : State) (c : ConverterNo) (e : StartEntry) (r : Order) : Prop where
  runs : t.converter c = { s.converter c with state := .running e.handle e.unit (s.converter c).runLimit }
  others : ∀ k, k ≠ c → t.converter k = s.converter k
  record : t.order? e.handle = some { r with life := .starting .converterRun, attempts := r.attempts + 1 }
  queue : t.startQueue = withoutStart e.handle s.startQueue
  last : (t.unit e.unit).lastConverter = some c
  event : t.latched .converterChange = true
  sent : t.linkOut = s.linkOut ++
    [(e.unit, .directive (s.unit e.unit).link.toggle (if r.mode = .pump then .startPump c else .startCondenseP c))]

theorem grantConverter_ready {r : Order} (hr : s.order? e.handle = some r)
    (up : (s.unit e.unit).link.state = .up) (ready : (s.unit e.unit).link.outstanding = none) :
    s.RunGranted (s.grantConverter c e) c e r := by
  have granted : s.grantConverter c e = ((s.converterLent c e).modOrder e.handle fun r =>
      { r with attempts := r.attempts + 1, life := .starting .converterRun }).send e.unit
        (if r.mode = .pump then .startPump c else .startCondenseP c) := by
    unfold State.grantConverter
    dsimp only
    rw [show (((s.leaveStartQueue e.handle).modConverter c _).modUnit e.unit _ |>.raise .converterChange).order? e.handle = some r
      from hr]
    exact ask_up (s := (s.converterLent c e).modOrder e.handle _) (by simp [up]) (by simp [ready]) _
  rw [granted]
  refine ⟨?_, fun k other => ?_, ?_, ?_, ?_, ?_, ?_⟩
  · exact (modOrder_converter ..).trans (by simp)
  · exact (modOrder_converter ..).trans (by simp [other.symm])
  · simp [hr]
  · exact (modOrder_startQueue ..).trans (by simp)
  · simp
  · exact (modOrder_latched ..).trans (by simp)
  · simp

end

/-- The walk grants the one FREE converter to the first entry whose unit may use it, and nothing else (R95). -/
theorem grantWalk_first {before after : List StartEntry} {e : StartEntry} {r : Order} (free : (s.converter c).state = .free)
    (only : ∀ c', c' ≠ c → (s.converter c').state ≠ .free) (queue : s.startQueue = before ++ e :: after)
    (barred : ∀ x ∈ before, (s.unit x.unit).eligible.getLsbD c = false) (eligible : (s.unit e.unit).eligible.getLsbD c = true)
    (hr : s.order? e.handle = some r) (up : (s.unit e.unit).link.state = .up)
    (ready : (s.unit e.unit).link.outstanding = none) : s.RunGranted s.grantWalk c e r := by
  have granted := grantConverter_ready (c := c) hr up ready
  have passed : before.foldl State.walkEntry s = s := walk_stands fun x hx => chooseConverter_none fun k isFree => by
    by_cases same : k = c
    · rw [same, barred x hx]
    · exact absurd isFree (only k same)
  have busy : after.foldl State.walkEntry (s.grantConverter c e) = s.grantConverter c e :=
    walk_stands fun x _ => chooseConverter_none fun k isFree => by
      by_cases same : k = c
      · rw [same, granted.runs] at isFree; cases isFree
      · rw [granted.others k same] at isFree; exact absurd isFree (only k same)
  have walk : s.grantWalk = s.grantConverter c e := by
    unfold State.grantWalk
    rw [queue, List.foldl_append, passed, List.foldl_cons, State.walkEntry, chooseConverter_only free only eligible]
    exact busy
  rwa [walk]

/-! ## The end of a run, and a run that fails (R72, R97 to R100) -/

/-- A converter after its run: OUT where an out request stood, COOLING otherwise; with a cool-down of 0 s it has left it again (R97,
R99, R100). -/
def Converter.afterRun (x : Converter) : Converter :=
  { x with
    state :=
      if x.outRequest = true then .out
      else if 0 < x.coolDown then .cooling x.coolDown
      else if x.faultLine = true then .out
      else .free
    outRequest := false }

/-- With a cool-down above 0 a converter stays in COOLING (R99). -/
theorem startCooling_stays (above : 0 < (s.converter c).coolDown) :
    s.startCooling c = s.setConverterState c (.cooling (s.converter c).coolDown) := by
  unfold State.startCooling
  rw [if_neg above.ne']

/-- While no entry waits the end of a run changes its converter alone. -/
theorem endRun_unqueued (empty : s.startQueue = []) :
    s.endRun c = (s.setConverter c (s.converter c).afterRun).raise .converterChange := by
  have walk : ∀ st, (s.setConverterState c st).grantWalk = s.setConverterState c st := fun st =>
    congrArg (List.foldl State.walkEntry (s.setConverterState c st)) empty
  unfold State.endRun Converter.afterRun
  by_cases out : (s.converter c).outRequest = true
  · rw [if_pos out, if_pos out, setConverterState_eq]
    simp [State.modConverter, setConverter_setConverter]
  · have kept : (s.converter c).outRequest = false := by simpa using out
    rw [if_neg out, if_neg out, ← kept]
    by_cases above : 0 < (s.converter c).coolDown
    · rw [if_pos above, startCooling_stays above, setConverterState_eq]
    · rw [if_neg above]
      unfold State.startCooling State.cooled
      rw [if_pos (by omega), setConverterState_twice, setConverterState_twice, walk]
      have line : ((s.setConverterState c (.cooling (s.converter c).coolDown)).converter c).faultLine = (s.converter c).faultLine := by
        rw [setConverterState_eq]; simp
      rw [line]
      split <;> rfl

/-- What a failed run leaves: the order is in COASTING under supervision, with ABORT_START sent where the link is ready for it; the
converters and the latches stand (R72, R100). -/
structure State.Coasts (s t : State) (h : Handle) (u : UnitNo) (r : Order) : Prop where
  record : t.order? h = some { r with life := .starting .coasting }
  timer : (t.unit u).supervision = some (s.capTime u (·.pumpStop) + s.supervision.stopMargin)
  sent : (s.unit u).link.state = .up → (s.unit u).link.outstanding = none →
    t.linkOut = s.linkOut ++ [(u, .directive (s.unit u).link.toggle .abortStart)]
  converter : ∀ k, t.converter k = s.converter k
  latched : ∀ e, t.latched e = s.latched e

theorem runFailed_coasts {h : Handle} {r : Order} (hr : s.order? h = some r) (u : UnitNo) :
    s.Coasts (s.runFailed h u) h u r := by
  unfold State.runFailed State.startSupervision
  refine ⟨?_, ?_, fun up ready => ?_, fun k => ?_, fun e => ?_⟩
  · simp [hr]
  · rw [ask_timer, unit_modUnit, if_pos rfl]
    rfl
  · rw [ask_up (by simp [up]) (by simp [ready])]
    simp
  · simp
  · simp

end

end Sys2Proof.Machine
end

section
/-! # Converter timers, fault lines and SET_CONVERTER (R99 to R103, Tables 5-2, 5-3) -/

namespace Sys2Proof.Machine

/-! ## Timers (R99, R100) -/

section
variable {s : State} {c : ConverterNo}

theorem exec_runTimerExpiry {h : Handle} {u : UnitNo} (due : DueEvent.run c ∈ s.due) (runs : (s.converter c).state = .running h u 0) :
    exec (.runTimerExpiry c) s = .next (((s.takes (.run c)).endRun c).runFailed h u) := by
  rw [exec_event rfl, takeDue_quiet due, DueEvent.effect, State.runTimedOut, takes_converter, runs]
  rfl

theorem exec_coolDownExpiry (due : DueEvent.coolDown c ∈ s.due) (rests : (s.converter c).state = .cooling 0) :
    exec (.coolDownExpiry c) s = .next ((s.takes (.coolDown c)).cooled c) := by
  rw [exec_event rfl, takeDue_quiet due, DueEvent.effect, State.cooledDown, takes_converter, rests]
  rfl

/-- A cooled converter is OUT while its fault line is asserted, and FREE for the start queue otherwise (R99). -/
theorem cooled_faulty (line : (s.converter c).faultLine = true) : s.cooled c = s.setConverterState c .out := if_pos line

theorem cooled_free (line : (s.converter c).faultLine = false) : s.cooled c = (s.setConverterState c .free).grantWalk :=
  if_neg (by simp [line])

end

/-- Settles O40: a run that ends by its timer, and a cool-down that ends with a grant walk or without. -/
theorem converterTimersExpire : Obligations.ConverterTimersExpire := by
  refine ⟨fun s c h u r due runs hr empty => ?_, fun s c due rests => ⟨fun line => ?_, fun line barred only => ?_,
    fun before after e r line only queue barred eligible hr up ready => ?_⟩⟩
  · have failed := runFailed_coasts (s := (s.takes (.run c)).endRun c) (h := h) (r := r) (by
      rw [endRun_unqueued (s := s.takes (.run c)) empty]; exact hr) u
    have taken := exec_runTimerExpiry due runs
    rw [endRun_unqueued (s := s.takes (.run c)) empty] at failed taken
    refine ⟨_, taken, ?_, fun k other => ?_, failed.record, failed.timer, ?_, failed.sent⟩
    · rw [failed.converter, raise_converter, converter_setConverter, if_pos rfl]
      rfl
    · rw [failed.converter]; simp [other.symm]
    · rw [failed.latched, latched_raise]; simp
  · rw [exec_coolDownExpiry due rests, cooled_faulty (s := s.takes (.coolDown c)) line]
    rfl
  · rw [exec_coolDownExpiry due rests, cooled_free (s := s.takes (.coolDown c)) line]
    have none : ∀ e ∈ s.startQueue, ((s.takes (.coolDown c)).setConverterState c .free).chooseConverter e.unit = none :=
      fun e he => chooseConverter_none fun k isFree => by
        by_cases same : k = c
        · rw [same]; exact barred e he
        · rw [setConverterState_eq] at isFree
          exact absurd (by simpa [Ne.symm same] using isFree) (only k same)
    exact congrArg _ (walk_stands none)
  · have free : ∀ k, ((s.takes (.coolDown c)).setConverterState c .free).converter k =
        if c = k then { s.converter c with state := .free } else s.converter k := fun k => by rw [setConverterState_eq]; simp
    have granted := grantWalk_first (s := (s.takes (.coolDown c)).setConverterState c .free) (c := c) (by simp [free])
      (fun k other => by simpa [free, Ne.symm other] using only k other) queue barred eligible hr up ready
    refine ⟨_, (exec_coolDownExpiry due rests).trans (congrArg _ (cooled_free (s := s.takes (.coolDown c)) line)), ?_, granted.record, granted.queue,
      granted.last, granted.event, granted.sent⟩
    rw [granted.runs, free, if_pos rfl]

/-! ## Fault lines (R101) -/

section
variable {s : State} {c : ConverterNo}

/-- A converter that is neither OUT nor RUNNING goes OUT as its fault line asserts (R101). -/
theorem faultAsserted_idle (idle : (s.converter c).state = .free ∨ ∃ n, (s.converter c).state = .cooling n) :
    s.faultAsserted c = (s.setConverter c { s.converter c with faultLine := true, state := .out }).raise .converterChange := by
  have out : (s.modConverter c fun x => { x with faultLine := true }).setConverterState c .out =
      (s.setConverter c { s.converter c with faultLine := true, state := .out }).raise .converterChange := by
    rw [setConverterState_eq]
    simp [State.modConverter, setConverter_setConverter]
  unfold State.faultAsserted
  dsimp only
  rw [converter_modConverter, if_pos rfl, ← out]
  rcases idle with free | ⟨n, cooling⟩
  · rw [free]
  · rw [cooling]

theorem faultAsserted_out (out : (s.converter c).state = .out) :
    s.faultAsserted c = s.setConverter c { s.converter c with faultLine := true } := by
  have still : ((s.modConverter c fun x => { x with faultLine := true }).converter c).state = .out := by simp [out]
  unfold State.faultAsserted
  dsimp only
  rw [still]
  rfl

/-- A run in progress fails as the fault line of its converter asserts (R100, R101). -/
theorem faultAsserted_running {h : Handle} {u : UnitNo} {n : Nat} (runs : (s.converter c).state = .running h u n) :
    s.faultAsserted c = ((s.setConverter c { s.converter c with faultLine := true, state := .out, outRequest := false }).raise
      .converterChange).runFailed h u := by
  have out : ((s.modConverter c fun x => { x with faultLine := true }).modConverter c fun x =>
      { x with outRequest := false }).setConverterState c .out =
      (s.setConverter c { s.converter c with faultLine := true, state := .out, outRequest := false }).raise .converterChange := by
    rw [setConverterState_eq]
    simp [State.modConverter, setConverter_setConverter]
  unfold State.faultAsserted
  dsimp only
  rw [converter_modConverter, if_pos rfl, ← out, runs]

/-! ## SET_CONVERTER (R102, R103) -/

theorem converterOfByte_some (c : ConverterNo) : converterOfByte (BitVec.ofNat 8 c) = some c := by revert c; decide

variable {tag : Byte} {body : List Byte} (mode : s.mode = .dispatch) (length : body.length = 2)
  (named : byteAt body 0 = BitVec.ofNat 8 c)
include mode length named

theorem exec_setConverterOut (direction : byteAt body 1 = 0) :
    exec (.setConverterOut tag body) s =
      .next (s.delivered 11 tag 7 (.ok ((s.frameEnded (requestFrame 11 tag body)).takeOut c) [])) := by
  have carried := exec_carried (c := .setConverterOut tag body) rfl (s := s) (by rw [mode]; rfl) length
  have operand : setConverterOperand 0 body = some c := by
    rw [setConverterOperand, if_pos direction, named, converterOfByte_some]
  simpa only [ownerOf, operand, withField, length] using carried

theorem exec_setConverterIn (direction : byteAt body 1 = 1) :
    exec (.setConverterIn tag body) s = .next (s.delivered 11 tag 7 ((s.frameEnded (requestFrame 11 tag body)).takeIn c)) := by
  have carried := exec_carried (c := .setConverterIn tag body) rfl (s := s) (by rw [mode]; rfl) length
  have operand : setConverterOperand 1 body = some c := by
    rw [setConverterOperand, if_pos direction, named, converterOfByte_some]
  simpa only [ownerOf, operand, withField, length] using carried

end

/-- What an owner leaves that writes one converter, with its event or without (R176). -/
theorem answered_setConverter (s : State) (kind : Nat) (tag : Byte) (n : Nat) (bytes : List Byte) (c : ConverterNo) (x : Converter) :
    s.answered kind tag n .ok [] ((s.frameEnded bytes).setConverter c x) =
        s.answered kind tag n .ok [] (s.taken.setConverter c x) ∧
      s.answered kind tag n .ok [] (((s.frameEnded bytes).setConverter c x).raise .converterChange) =
        s.answered kind tag n .ok [] ((s.taken.setConverter c x).raise .converterChange) :=
  ⟨answered_congr (by rw [frameEnded_eq]; rfl), answered_congr (by rw [frameEnded_eq]; rfl)⟩

section
variable {s : State} {c : ConverterNo} {tag : Byte} {body : List Byte} (mode : s.mode = .dispatch) (length : body.length = 2)
  (named : byteAt body 0 = BitVec.ofNat 8 c)
include mode length named

/-- SET_CONVERTER out, state by state (R102, Table 5-2). -/
theorem setConverterOut_taken (direction : byteAt body 1 = 0) :
    ((s.converter c).state = .out → exec (.setConverterOut tag body) s = .next (s.answered 11 tag 7 .ok [] s.taken)) ∧
    ((s.converter c).state = .free ∨ (∃ n, (s.converter c).state = .cooling n) →
      exec (.setConverterOut tag body) s = .next (s.answered 11 tag 7 .ok []
        ((s.taken.setConverter c { s.converter c with state := .out }).raise .converterChange))) ∧
    ∀ h u n, (s.converter c).state = .running h u n →
      exec (.setConverterOut tag body) s = .next (s.answered 11 tag 7 .ok []
        (s.taken.setConverter c { s.converter c with outRequest := true })) := by
  rw [exec_setConverterOut mode length named direction]
  unfold State.takeOut State.setConverterState State.modConverter
  rw [frameEnded_converter]
  refine ⟨fun out => ?_, fun idle => ?_, fun h u n runs => ?_⟩
  · rw [out]; exact congrArg _ (answered_frameEnded ..)
  · rcases idle with free | ⟨n, cooling⟩
    · rw [free]; exact congrArg _ (answered_setConverter ..).2
    · rw [cooling]; exact congrArg _ (answered_setConverter ..).2
  · rw [runs]; exact congrArg _ (answered_setConverter ..).1

/-- SET_CONVERTER in, state by state (R103, Table 5-3). -/
theorem setConverterIn_taken (direction : byteAt body 1 = 1) :
    ((s.converter c).state = .out → (s.converter c).faultLine = true →
      exec (.setConverterIn tag body) s = .next (s.answered 11 tag 7 .busy [] s.taken)) ∧
    ((s.converter c).state = .out → (s.converter c).faultLine = false → 0 < (s.converter c).coolDown →
      exec (.setConverterIn tag body) s = .next (s.answered 11 tag 7 .ok []
        ((s.taken.setConverter c { s.converter c with state := .cooling (s.converter c).coolDown }).raise .converterChange))) ∧
    ((s.converter c).state = .free ∨ (∃ n, (s.converter c).state = .cooling n) →
      exec (.setConverterIn tag body) s = .next (s.answered 11 tag 7 .ok [] s.taken)) ∧
    ∀ h u n, (s.converter c).state = .running h u n →
      exec (.setConverterIn tag body) s = .next (s.answered 11 tag 7 .ok []
        (s.taken.setConverter c { s.converter c with outRequest := false })) := by
  rw [exec_setConverterIn mode length named direction]
  unfold State.takeIn
  rw [frameEnded_converter]
  refine ⟨fun out line => ?_, fun out line above => ?_, fun idle => ?_, fun h u n runs => ?_⟩
  · rw [out, line]; rfl
  · rw [out, line, startCooling_stays (by simpa using above), setConverterState_eq, frameEnded_converter]
    exact congrArg _ (answered_setConverter ..).2
  · rcases idle with free | ⟨n, cooling⟩
    · rw [free]; exact congrArg _ (answered_frameEnded ..)
    · rw [cooling]; exact congrArg _ (answered_frameEnded ..)
  · rw [runs]
    unfold State.modConverter
    rw [frameEnded_converter]
    exact congrArg _ (answered_setConverter ..).1

end

/-- Settles O41: the fault line and the two directions of SET_CONVERTER, each by the state it finds. -/
theorem convertersTakenOutAndIn : Obligations.ConvertersTakenOutAndIn := by
  refine ⟨fun s c => ⟨rfl, fun out => ?_, fun idle => ?_, fun h u n r runs hr => ?_⟩,
    fun s tag body c mode length named => ⟨setConverterOut_taken mode length named, setConverterIn_taken mode length named⟩⟩
  · rw [exec_event rfl, faultAsserted_out (s := s.quiet) out]
    rfl
  · rw [exec_event rfl, faultAsserted_idle (s := s.quiet) idle]
    rfl
  · have failed := runFailed_coasts (s := (s.quiet.setConverter c { s.converter c with
      faultLine := true, state := .out, outRequest := false }).raise .converterChange) hr u
    refine ⟨_, (exec_event rfl s).trans (congrArg _ (faultAsserted_running (s := s.quiet) runs)), ?_, failed.record, failed.timer, ?_, failed.sent⟩
    · exact (failed.converter c).trans (by rw [raise_converter, converter_setConverter, if_pos rfl])
    · exact (failed.latched _).trans ((latched_raise ..).trans (by simp))

end Sys2Proof.Machine
end

section
/-! # A gate's test and its grants (R39, R69, R71, R77, R106 to R110) -/

namespace Sys2Proof.Machine

/-! ## The test of an entry (R108) -/

/-- Only the two indications of units differ: all that the test of entries, and the end of a new live head, leave behind (R31, R32,
R39). -/
structure State.OnlyMarks (s t : State) : Prop where
  unit : ∀ v, ∃ b o, t.unit v = { s.unit v with saturated := b, headOutside := o }
  frame : t = { s with units := t.units }

namespace State.OnlyMarks

variable {s t v : State}

theorem refl (s : State) : s.OnlyMarks s := ⟨fun _ => ⟨_, _, rfl⟩, rfl⟩

theorem trans (a : s.OnlyMarks t) (b : t.OnlyMarks v) : s.OnlyMarks v where
  unit u := by
    obtain ⟨x, o, hx⟩ := a.unit u
    obtain ⟨y, o', hy⟩ := b.unit u
    exact ⟨y, o', by rw [hy, hx]⟩
  frame := by rw [b.frame, a.frame]

/-- A unit written in its indications. -/
theorem modUnit (s : State) (u : UnitNo) {f : UnitBlock → UnitBlock}
    (hf : ∀ b, f b = { b with saturated := (f b).saturated, headOutside := (f b).headOutside }) : s.OnlyMarks (s.modUnit u f) := by
  refine ⟨fun v => ?_, rfl⟩
  rw [unit_modUnit]
  split
  · next same => subst same; exact ⟨_, _, hf _⟩
  · exact ⟨_, _, rfl⟩

theorem markTest (s : State) (e : GateEntry) : s.OnlyMarks (s.markTest e) := by
  unfold State.markTest
  split
  · unfold State.markSaturated
    split
    · exact modUnit s _ fun _ => rfl
    · exact refl s
  · exact refl s

theorem refreshOutside (s : State) (u : UnitNo) : s.OnlyMarks (s.refreshOutside u) := by
  unfold State.refreshOutside
  split
  · exact modUnit s u fun _ => rfl
  · exact refl s

variable (same : s.OnlyMarks t)
include same

theorem order (k : Handle) : t.order? k = s.order? k := by rw [same.frame]; rfl
theorem waterway (w : WaterwayNo) : t.waterway w = s.waterway w := by rw [same.frame]; rfl
theorem linkOut : t.linkOut = s.linkOut := by rw [same.frame]
theorem settings : t.supervision = s.supervision := by rw [same.frame]
theorem link (u : UnitNo) : (t.unit u).link = (s.unit u).link := by obtain ⟨_, _, e⟩ := same.unit u; rw [e]
theorem home (u : UnitNo) : (t.unit u).waterway = (s.unit u).waterway := by obtain ⟨_, _, e⟩ := same.unit u; rw [e]

theorem capTime (u : UnitNo) (f : Capability → Nat) : t.capTime u f = s.capTime u f := by
  unfold State.capTime; rw [same.link]

end State.OnlyMarks

/-- The step of a START entry depends on the record of the unit and on its live head (R39). -/
theorem startStep_congr {s t : State} {u : UnitNo} (current : (t.unit u).link.current = (s.unit u).link.current)
    (head : t.headFor u = s.headFor u) (m : Mode) : t.startStep u m = s.startStep u m := by
  unfold State.startStep; rw [current, head]

/-- The test of an entry depends on its record, on its step, and on the inhibits, flow and limits of the waterway (R108). -/
theorem allowed_congr {s t : State} {w : WaterwayNo} {e : GateEntry} (order : t.order? e.handle = s.order? e.handle)
    (step : ∀ m, t.startStep e.unit m = s.startStep e.unit m) (bars : ∀ r, (t.waterway w).bars r = (s.waterway w).bars r)
    (fits : ∀ q, (t.waterway w).fits q = (s.waterway w).fits q) : t.allowed w e = s.allowed w e := by
  unfold State.allowed
  rw [order]
  simp only [step, bars, fits]

theorem State.OnlyMarks.headFor {s t : State} (same : s.OnlyMarks t) (u : UnitNo) : t.headFor u = s.headFor u := by
  unfold State.headFor; rw [same.home, same.waterway]

theorem State.OnlyMarks.allowed {s t : State} (same : s.OnlyMarks t) (w : WaterwayNo) (e : GateEntry) :
    t.allowed w e = s.allowed w e :=
  allowed_congr (same.order _) (startStep_congr (by rw [same.link]) (same.headFor _)) (fun _ => by rw [same.waterway])
    (fun _ => by rw [same.waterway])

/-- An inhibit bars an order of its mode, and a pair by its sense (R108, Table 5-4). -/
theorem bars_eq_false {x : Waterway} {r : Order} : x.bars r = false ↔
    (r.mode = .generate → (if r.pairSense = some .pumping then x.pumpInhibit else x.genInhibit) = false) ∧
      (r.mode = .pump → x.pumpInhibit = false) := by
  unfold Waterway.bars
  cases r.mode <;> simp

/-- A step fits when it leaves the live net flow within the limit on its side (R108). -/
theorem fits_eq_true {x : Waterway} {q : Int} : x.fits q = true ↔
    (0 < q → x.netFlow + q ≤ x.qgLim) ∧ (q < 0 → -(x.qpLim : Int) ≤ x.netFlow + q) := by
  unfold Waterway.fits
  split
  · next up => simp [up, up.le]
  · next notUp =>
    split
    · next down => simp [down, notUp]
    · next level => simp [level, notUp]

/-- A STOP entry is always allowed to go, a START entry when its inhibit is clear and its step fits (R108). -/
theorem allowed_iff {s : State} {w : WaterwayNo} {e : GateEntry} : s.allowed w e = true ↔ e.kind = .stop ∨
    ∃ r, s.order? e.handle = some r ∧ (s.waterway w).bars r = false ∧
      (s.waterway w).fits (s.startStep e.unit r.mode).1 = true := by
  unfold State.allowed
  cases e.kind with
  | stop => simp
  | start =>
    cases s.order? e.handle with
    | none => simp
    | some r => simp

/-- The entry that a gate finds is the first in queue order that is allowed to go (R108, R109). -/
theorem firstAllowed_eq (w : WaterwayNo) (es : List GateEntry) (s : State) :
    ∃ t, State.firstAllowed w es s = (t, es.find? (s.allowed w)) ∧ s.OnlyMarks t := by
  induction es generalizing s with
  | nil => exact ⟨s, rfl, .refl s⟩
  | cons e es ih =>
    have tested := State.OnlyMarks.markTest s e
    unfold State.firstAllowed
    rw [tested.allowed, List.find?_cons]
    cases s.allowed w e with
    | true => exact ⟨_, rfl, tested⟩
    | false =>
      obtain ⟨t, found, marks⟩ := ih (s.markTest e)
      have alike : (s.markTest e).allowed w = s.allowed w := funext (tested.allowed w)
      rw [alike] at found
      exact ⟨t, found, tested.trans marks⟩

/-! ## Grant opportunities (R109, R110) -/

section
variable {s : State} {w : WaterwayNo}

/-- One turn of the grants of an OPEN gate. -/
theorem gateLoop_succ (w : WaterwayNo) (n : Nat) (s : State) : ∃ t, s.OnlyMarks t ∧
    State.gateLoop w (n + 1) s = match (s.waterway w).queue.find? (s.allowed w) with
      | none => t
      | some e => if (s.waterway w).spacingTime = 0 then State.gateLoop w n (t.grantGate w e) else t.grantGate w e := by
  obtain ⟨t, found, marks⟩ := firstAllowed_eq w (s.waterway w).queue s
  refine ⟨t, marks, ?_⟩
  rw [State.gateLoop, found]
  cases (s.waterway w).queue.find? (s.allowed w) with
  | none => rfl
  | some e => dsimp only; rw [marks.waterway]

variable (isOpen : (s.waterway w).spacing = none)
include isOpen

theorem gateOpportunity_open : s.gateOpportunity w = State.gateLoop w ((s.waterway w).queue.length + 1) s :=
  if_neg (by simp [isOpen])

/-- An OPEN gate with no entry allowed to go grants nothing (R109). -/
theorem gateOpportunity_none (barred : ∀ e ∈ (s.waterway w).queue, s.allowed w e = false) : s.OnlyMarks (s.gateOpportunity w) := by
  obtain ⟨t, marks, turn⟩ := gateLoop_succ w (s.waterway w).queue.length s
  have none : (s.waterway w).queue.find? (s.allowed w) = none := List.find?_eq_none.2 fun e he => by simp [barred e he]
  rw [none] at turn
  rwa [gateOpportunity_open isOpen, turn]

/-- An OPEN gate with a spacing time grants the first entry allowed to go, and no other (R109). -/
theorem gateOpportunity_first {before after : List GateEntry} {e : GateEntry} (queue : (s.waterway w).queue = before ++ e :: after)
    (barred : ∀ x ∈ before, s.allowed w x = false) (allowed : s.allowed w e = true) (time : 0 < (s.waterway w).spacingTime) :
    ∃ t, s.OnlyMarks t ∧ s.gateOpportunity w = t.grantGate w e := by
  obtain ⟨t, marks, turn⟩ := gateLoop_succ w (s.waterway w).queue.length s
  have first : (s.waterway w).queue.find? (s.allowed w) = some e :=
    List.find?_eq_some_iff_append.2 ⟨allowed, before, after, queue, fun x hx => by simp [barred x hx]⟩
  rw [first] at turn
  refine ⟨t, marks, ?_⟩
  rw [gateOpportunity_open isOpen, turn]
  exact if_neg time.ne'

end

/-! ## A START entry granted (R69, R71) -/

/-- The directive that starts a machine of the mode from its gate (R69, R71). -/
def Mode.startDirective : Mode → Directive
  | .generate => .startGen
  | .condenseG => .startCondenseG
  | _ => .waterUp

/-- The supervision time of a start from the gate (R69, R71). -/
def State.startTime (s : State) (u : UnitNo) (m : Mode) : Nat :=
  if m = .generate ∨ m = .condenseG then s.genStartTime u else s.waterUpTime u

/-- The entry granted has left the queue, and the spacing has started (R109, R110). -/
def State.entryGone (s : State) (w : WaterwayNo) (e : GateEntry) : State :=
  s.modWaterway w fun x =>
    { x with
      queue := withoutGate e.handle x.queue
      spacing := if x.spacingTime = 0 then none else some x.spacingTime }

/-- What the grant of a START entry leaves: its order is in RUNUP under supervision, the start directive is sent, and the entry is
gone from its gate (R69, R71, R109, R110). -/
structure State.StartGranted (s t : State) (w : WaterwayNo) (e : GateEntry) (r : Order) : Prop where
  record : t.order? e.handle = some { r with life := .starting .runup }
  others : ∀ k, k ≠ e.handle → t.order? k = s.order? k
  sent : t.linkOut = s.linkOut ++ [(e.unit, .directive (s.unit e.unit).link.toggle r.mode.startDirective)]
  timer : (t.unit e.unit).supervision = some (s.startTime e.unit r.mode)
  gate : t.waterway w = (s.entryGone w e).waterway w

/-- What the grant of a STOP entry leaves (R77, R109, R110). -/
structure State.StopGranted (s t : State) (w : WaterwayNo) (e : GateEntry) (r : Order) (c : DoneCause) : Prop where
  record : t.order? e.handle = some { r with life := .stopping .rundown c }
  sent : t.linkOut = s.linkOut ++ [(e.unit, .directive (s.unit e.unit).link.toggle .toStandstill)]
  timer : (t.unit e.unit).supervision = some (s.rundownTime e.unit r.mode)
  gate : t.waterway w = (s.entryGone w e).waterway w

section
variable {s : State} {h : Handle} {r : Order}

theorem modUnit_modUnit (s : State) (u : UnitNo) (f g : UnitBlock → UnitBlock) :
    (s.modUnit u f).modUnit u g = s.modUnit u fun b => g (f b) := by
  simp [State.modUnit, State.setUnit, State.unit]

/-- A START entry acted on: of the unit it changes the timer and the motion mark, whatever the mode. -/
theorem startGranted_eq (hr : s.order? h = some r) : ∃ m : UnitBlock → Bool,
    s.startGranted h = ((s.modOrder h fun r => { r with life := .starting .runup }).modUnit r.unit fun b =>
      { b with motion := m b, supervision := some (s.startTime r.unit r.mode) }).ask r.unit r.mode.startDirective := by
  have time : ∀ f n, (s.modOrder h f).capTime r.unit n = s.capTime r.unit n := fun f n => by
    unfold State.capTime; rw [modOrder_unit]
  unfold State.startGranted State.startSupervision State.startTime State.genStartTime State.waterUpTime
  rw [hr]
  dsimp only
  rw [time, time, modOrder_supervision]
  cases r.mode with
  | generate => exact ⟨fun _ => false, by rw [modUnit_modUnit]; rfl⟩
  | condenseG => exact ⟨fun _ => false, by rw [modUnit_modUnit]; rfl⟩
  | pump => exact ⟨fun b => b.motion, rfl⟩
  | condenseP => exact ⟨fun b => b.motion, rfl⟩

variable {w : WaterwayNo} {e : GateEntry} (hr : s.order? e.handle = some r) (unit : r.unit = e.unit)
  (up : (s.unit e.unit).link.state = .up) (ready : (s.unit e.unit).link.outstanding = none)
include hr unit up ready

theorem grantGate_start (kind : e.kind = .start) : s.StartGranted (s.grantGate w e) w e r := by
  have granted : s.grantGate w e = (s.entryGone w e).startGranted e.handle := by
    unfold State.grantGate; rw [kind]; rfl
  obtain ⟨m, acted⟩ := startGranted_eq (s := s.entryGone w e) (h := e.handle) (r := r) hr
  have gone : (s.entryGone w e).unit e.unit = s.unit e.unit := rfl
  rw [unit] at acted
  rw [granted, acted]
  refine ⟨?_, fun k other => ?_, ?_, ?_, ?_⟩
  · simp [State.entryGone, hr]
  · simp [State.entryGone, other]
  · rw [ask_up (by simp [gone, up]) (by simp [gone, ready])]
    simp [gone]
    rfl
  · rw [ask_timer, unit_modUnit, if_pos rfl]
    rfl
  · simp

theorem grantGate_stop (kind : e.kind = .stop) {p : StopPhase} {c : DoneCause} (stopping : r.life = .stopping p c) :
    s.StopGranted (s.grantGate w e) w e r c := by
  have granted : s.grantGate w e = (((s.entryGone w e).modOrder e.handle fun r => { r with life := .stopping .rundown c }).modUnit
      e.unit fun b => { b with supervision := some (s.rundownTime e.unit r.mode) }).ask e.unit .toStandstill := by
    unfold State.grantGate State.stopGranted State.enterRundown State.startSupervision
    rw [kind]
    dsimp only
    rw [show (State.modWaterway s w _).order? e.handle = some r from hr]
    dsimp only
    rw [stopping, unit]
    rfl
  have gone : (s.entryGone w e).unit e.unit = s.unit e.unit := rfl
  rw [granted]
  refine ⟨?_, ?_, ?_, ?_⟩
  · simp [State.entryGone, hr]
  · rw [ask_up (by simp [gone, up]) (by simp [gone, ready])]
    simp [gone]
    rfl
  · rw [ask_timer, unit_modUnit, if_pos rfl]
  · simp

end

/-! ## A grant after the test of the entries before -/

section
variable {s a t : State} {w : WaterwayNo} {e : GateEntry} {r : Order} (marks : s.OnlyMarks a)
include marks

theorem State.OnlyMarks.entryGone (w : WaterwayNo) (e : GateEntry) :
    (a.entryGone w e).waterway w = (s.entryGone w e).waterway w := by
  unfold State.entryGone
  rw [waterway_modWaterway, waterway_modWaterway, if_pos rfl, if_pos rfl, marks.waterway]

theorem State.OnlyMarks.startGranted (granted : a.StartGranted t w e r) : s.StartGranted t w e r where
  record := granted.record
  others k other := (granted.others k other).trans (marks.order k)
  sent := by rw [granted.sent, marks.linkOut, marks.link]
  timer := by
    rw [granted.timer]
    unfold State.startTime State.genStartTime State.waterUpTime
    simp only [marks.capTime, marks.settings]
  gate := granted.gate.trans (marks.entryGone w e)

theorem State.OnlyMarks.stopGranted {c : DoneCause} (granted : a.StopGranted t w e r c) : s.StopGranted t w e r c where
  record := granted.record
  sent := by rw [granted.sent, marks.linkOut, marks.link]
  timer := by
    rw [granted.timer]
    unfold State.rundownTime
    rw [marks.capTime, marks.settings]
  gate := granted.gate.trans (marks.entryGone w e)

end

/-- The first entry allowed to go is granted: a START entry or that of an order in STOPPING, whose unit is ready for a directive (R109). -/
theorem gateOpportunity_grants {s : State} {w : WaterwayNo} {before after : List GateEntry} {e : GateEntry} {r : Order}
    (isOpen : (s.waterway w).spacing = none) (queue : (s.waterway w).queue = before ++ e :: after)
    (barred : ∀ x ∈ before, s.allowed w x = false) (allowed : s.allowed w e = true) (time : 0 < (s.waterway w).spacingTime)
    (hr : s.order? e.handle = some r) (unit : r.unit = e.unit) (up : (s.unit e.unit).link.state = .up)
    (ready : (s.unit e.unit).link.outstanding = none) :
    (e.kind = .start → s.StartGranted (s.gateOpportunity w) w e r) ∧
      ∀ p c, e.kind = .stop → r.life = .stopping p c → s.StopGranted (s.gateOpportunity w) w e r c := by
  obtain ⟨a, marks, grant⟩ := gateOpportunity_first isOpen queue barred allowed time
  rw [grant]
  have order : a.order? e.handle = some r := (marks.order _).trans hr
  have up : (a.unit e.unit).link.state = .up := by rw [marks.link, up]
  have ready : (a.unit e.unit).link.outstanding = none := by rw [marks.link, ready]
  exact ⟨fun kind => marks.startGranted (grantGate_start order unit up ready kind),
    fun p c kind stopping => marks.stopGranted (grantGate_stop order unit up ready kind stopping)⟩

end Sys2Proof.Machine
end

section
/-! # The expiry of a spacing timer (R107 to R110, R69, R77) -/

namespace Sys2Proof.Machine

/-! ## The expiry under a spacing time (R110) -/

/-- The gate is OPEN as its spacing timer expires (R110). -/
def State.opened (s : State) (w : WaterwayNo) : State :=
  (s.takes (.spacing w)).modWaterway w fun x => { x with spacing := none }

section
variable {s : State} {w : WaterwayNo}

@[simp] theorem opened_order? (k : Handle) : (s.opened w).order? k = s.order? k := rfl
@[simp] theorem opened_unit (u : UnitNo) : (s.opened w).unit u = s.unit u := rfl
@[simp] theorem opened_linkOut : (s.opened w).linkOut = [] := rfl
@[simp] theorem opened_waterway : (s.opened w).waterway w = { s.waterway w with spacing := none } := by
  unfold State.opened
  rw [waterway_modWaterway, if_pos rfl, takes_waterway]

theorem opened_headFor (u : UnitNo) : (s.opened w).headFor u = s.headFor u := by
  unfold State.headFor State.opened
  rw [waterway_modWaterway]
  split
  · next same => rw [same]; rfl
  · rfl

/-- An entry is allowed to go at the expiry if it was before. -/
theorem opened_allowed (e : GateEntry) : (s.opened w).allowed w e = s.allowed w e :=
  allowed_congr rfl (startStep_congr rfl (opened_headFor _)) (fun _ => by rw [opened_waterway]; rfl)
    (fun _ => by rw [opened_waterway]; rfl)

theorem exec_spacingTimerExpiry (due : DueEvent.spacing w ∈ s.due) (expired : (s.waterway w).spacing = some 0) :
    exec (.spacingTimerExpiry w) s = .next ((s.opened w).gateOpportunity w) := by
  rw [exec_event rfl, takeDue_quiet due, DueEvent.effect, if_pos (by simpa using expired)]
  rfl

variable (due : DueEvent.spacing w ∈ s.due) (expired : (s.waterway w).spacing = some 0)
include due expired

/-- With no entry allowed to go the gate becomes OPEN, and nothing else happens (R110). -/
theorem spacingExpiry_opens (barred : ∀ e ∈ (s.waterway w).queue, s.allowed w e = false) :
    ∃ t : State, exec (.spacingTimerExpiry w) s = .next t ∧ t.waterway w = { s.waterway w with spacing := none } ∧
      t.slots = s.slots ∧ t.linkOut = [] ∧ t.latches = s.latches := by
  have marks := gateOpportunity_none (s := s.opened w) (w := w) (by simp) (by simpa [opened_allowed] using barred)
  refine ⟨_, exec_spacingTimerExpiry due expired, ?_, ?_, ?_, ?_⟩
  · rw [marks.waterway, opened_waterway]
  · rw [marks.frame]; rfl
  · rw [marks.linkOut, opened_linkOut]
  · rw [marks.frame]; rfl

/-- The first entry allowed to go is granted, and the gate stays SPACING (R109, R110). -/
theorem spacingExpiry_grants {before after : List GateEntry} {e : GateEntry} {r : Order}
    (queue : (s.waterway w).queue = before ++ e :: after) (barred : ∀ x ∈ before, s.allowed w x = false)
    (allowed : s.allowed w e = true) (time : 0 < (s.waterway w).spacingTime) (hr : s.order? e.handle = some r)
    (unit : r.unit = e.unit) (up : (s.unit e.unit).link.state = .up) (ready : (s.unit e.unit).link.outstanding = none)
    (waits : e.kind = .start ∨ r.life.isStopping = true) :
    ∃ t r', exec (.spacingTimerExpiry w) s = .next t ∧
      t.waterway w =
        { s.waterway w with
          queue := (s.waterway w).queue.filter fun x => x.handle != e.handle
          spacing := some (s.waterway w).spacingTime } ∧
      t.order? e.handle = some r' ∧
      (e.kind = .start → r' = { r with life := .starting .runup } ∧
        t.linkOut = [(e.unit, .directive (s.unit e.unit).link.toggle
          (match r.mode with | .generate => .startGen | .condenseG => .startCondenseG | _ => .waterUp))] ∧
        (t.unit e.unit).supervision = some
          (if r.mode = .generate ∨ r.mode = .condenseG then s.genStartTime e.unit else s.waterUpTime e.unit)) ∧
      (e.kind = .stop → (∀ p c, r.life = .stopping p c → r' = { r with life := .stopping .rundown c }) ∧
        t.linkOut = [(e.unit, .directive (s.unit e.unit).link.toggle .toStandstill)] ∧
        (t.unit e.unit).supervision = some (s.rundownTime e.unit r.mode)) := by
  obtain ⟨starts, stops⟩ := gateOpportunity_grants (s := s.opened w) (w := w) (before := before) (after := after) (e := e) (r := r)
    (by simp) (by simpa using queue) (by simpa [opened_allowed] using barred) (by rwa [opened_allowed]) (by simpa using time) hr unit
    up ready
  have gone : ((s.opened w).entryGone w e).waterway w =
      { s.waterway w with
        queue := withoutGate e.handle (s.waterway w).queue
        spacing := some (s.waterway w).spacingTime } := by
    unfold State.entryGone
    rw [waterway_modWaterway, if_pos rfl, opened_waterway]
    simp [time.ne']
  have taken := exec_spacingTimerExpiry due expired
  cases kind : e.kind with
  | start =>
    have granted := starts kind
    exact ⟨_, _, taken, granted.gate.trans gone, granted.record, fun _ => ⟨rfl, granted.sent, granted.timer⟩, nofun⟩
  | stop =>
    obtain ⟨p, c, stopping⟩ : ∃ p c, r.life = .stopping p c := by
      have stopping : r.life.isStopping = true := waits.resolve_left (by simp [kind])
      revert stopping
      cases r.life <;> simp [Life.isStopping]
    have granted := stops p c kind stopping
    refine ⟨_, _, taken, granted.gate.trans gone, granted.record, nofun, fun _ => ⟨fun p' c' stopping' => ?_, granted.sent,
      granted.timer⟩⟩
    cases stopping.symm.trans stopping'
    rfl

end

/-! ## STOP entries under a spacing time of 0 (R77, R110) -/

/-- A record in STOPPING as the grant of its STOP entry leaves it (R77). -/
def Order.toRundown (r : Order) : Order :=
  match r.life with
  | .stopping _ c => { r with life := .stopping .rundown c }
  | _ => r

section
variable {s : State} {w : WaterwayNo}

/-- The grant of a STOP entry writes its record alone (R77). -/
theorem stopGranted_order? (h k : Handle) : (s.stopGranted h).order? k =
    if k = h then (s.order? h).map Order.toRundown else s.order? k := by
  unfold State.stopGranted
  cases hr : s.order? h with
  | none => dsimp only; split <;> simp_all
  | some r =>
    dsimp only
    cases life : r.life with
    | stopping p c =>
      rw [ask_order?]
      unfold State.enterRundown State.startSupervision
      rw [modUnit_order?, order?_modOrder, hr]
      simp [Order.toRundown, life]
    | _ => dsimp only; split <;> simp_all [Order.toRundown]

theorem stopGranted_waterway (h : Handle) (v : WaterwayNo) : (s.stopGranted h).waterway v = s.waterway v := by
  unfold State.stopGranted
  split
  · rfl
  · split
    · simp [State.enterRundown, State.startSupervision]
    · rfl

/-- One STOP entry after another is granted, until the queue is empty and the gate is left OPEN (R110). -/
theorem gateLoop_stops (n : Nat) (enough : (s.waterway w).queue.length < n) (isOpen : (s.waterway w).spacing = none)
    (time : (s.waterway w).spacingTime = 0) (stops : ∀ e ∈ (s.waterway w).queue, e.kind = .stop) :
    (State.gateLoop w n s).waterway w = { s.waterway w with queue := [] } ∧
      ∀ k, (State.gateLoop w n s).order? k =
        if k ∈ (s.waterway w).queue.map (·.handle) then (s.order? k).map Order.toRundown else s.order? k := by
  induction n generalizing s with
  | zero => omega
  | succ n ih =>
    obtain ⟨a, marks, turn⟩ := gateLoop_succ w n s
    cases queue : (s.waterway w).queue with
    | nil =>
      rw [queue, List.find?_nil] at turn
      rw [turn]
      exact ⟨by rw [marks.waterway, ← queue], fun k => by rw [marks.order]; simp⟩
    | cons e es =>
      have kind : e.kind = .stop := stops e (by simp [queue])
      have goes : s.allowed w e = true := allowed_iff.2 (.inl kind)
      rw [queue, List.find?_cons, goes] at turn
      dsimp only at turn
      rw [if_pos time] at turn
      have grant : a.grantGate w e = (a.entryGone w e).stopGranted e.handle := by
        unfold State.grantGate; rw [kind]; rfl
      have gate : (a.grantGate w e).waterway w = { s.waterway w with queue := withoutGate e.handle es } := by
        rw [grant, stopGranted_waterway, marks.entryGone]
        unfold State.entryGone
        rw [waterway_modWaterway, if_pos rfl, if_pos time, ← isOpen, queue]
        simp [withoutGate]
      have record : ∀ k, (a.grantGate w e).order? k = if k = e.handle then (s.order? k).map Order.toRundown else s.order? k := by
        intro k
        rw [grant, stopGranted_order?]
        simp only [State.entryGone, modWaterway_order?, marks.order]
        split
        · next same => rw [same]
        · rfl
      have fewer : (withoutGate e.handle es).length < n :=
        (List.length_filter_le _ _).trans_lt (by rw [queue] at enough; simpa using enough)
      obtain ⟨water, table⟩ := ih (s := a.grantGate w e) (by rwa [gate]) (by rw [gate]; exact isOpen) (by rw [gate]; exact time)
        (by rw [gate]; exact fun x hx => stops x (by rw [queue]; exact .tail _ (List.mem_filter.1 hx).1))
      rw [turn]
      refine ⟨by rw [water, gate], fun k => ?_⟩
      rw [table, gate, record]
      by_cases own : k = e.handle
      · have left : k ∉ (withoutGate e.handle es).map (·.handle) := by simp [withoutGate, own]
        simp only [if_neg left, if_pos own]
        simp [own]
      · have kept : k ∈ (withoutGate e.handle es).map (·.handle) ↔ k ∈ (e :: es).map (·.handle) := by
          simp only [withoutGate, List.mem_map, List.mem_filter, List.mem_cons]
          constructor
          · rintro ⟨x, ⟨hx, -⟩, rfl⟩
            exact ⟨x, .inr hx, rfl⟩
          · rintro ⟨x, rfl | hx, rfl⟩
            · exact absurd rfl own
            · exact ⟨x, ⟨hx, by simpa using own⟩, rfl⟩
        simp only [kept, if_neg own]

/-- With a spacing time of 0 one expiry lets every STOP entry go (R110). -/
theorem spacingExpiry_stops (due : DueEvent.spacing w ∈ s.due) (expired : (s.waterway w).spacing = some 0)
    (time : (s.waterway w).spacingTime = 0) (stops : ∀ e ∈ (s.waterway w).queue, e.kind = .stop) :
    ∃ t : State, exec (.spacingTimerExpiry w) s = .next t ∧
      t.waterway w = { s.waterway w with queue := [], spacing := none } ∧
      ∀ e ∈ (s.waterway w).queue, ∀ r p c, s.order? e.handle = some r → r.life = .stopping p c →
        t.order? e.handle = some { r with life := .stopping .rundown c } := by
  obtain ⟨water, table⟩ := gateLoop_stops (s := s.opened w) (w := w) (((s.opened w).waterway w).queue.length + 1)
    (Nat.lt_succ_self _) (by simp) (by simpa using time) (by simpa using stops)
  rw [← gateOpportunity_open (by simp)] at water table
  refine ⟨_, exec_spacingTimerExpiry due expired, by rw [water, opened_waterway], fun e he r p c hr stopping => ?_⟩
  rw [table, if_pos (List.mem_map.2 ⟨e, by simpa using he, rfl⟩), opened_order?, hr]
  simp [Order.toRundown, stopping]

end

end Sys2Proof.Machine
end

section
/-! # A START entry at an OPEN gate: one that joins, and one that a new level lets go (R30, R64 to R66, R108, R109, R158) -/

namespace Sys2Proof.Machine

/-! ## The entry that waits (R108, R109) -/

namespace State.WaitsOpen

variable {s t : State} {w : WaterwayNo} {e : GateEntry} {r : Order} {f : Nat → Nat} (waits : s.WaitsOpen w e r f)
include waits

/-- Its step is that of its unit at the live head (R39). -/
theorem startStep_eq : (s.startStep e.unit .generate).1 = f (s.waterway w).liveHead := by
  obtain ⟨c, record, step⟩ := waits.step
  unfold State.startStep State.headFor
  rw [record, waits.waterway, step]

/-- It may go when the inhibit of generating is clear and its step keeps the limit (R108). -/
theorem allowed_iff : s.allowed w e = true ↔ (s.waterway w).genInhibit = false ∧
    (0 < f (s.waterway w).liveHead → (s.waterway w).netFlow + f (s.waterway w).liveHead ≤ (s.waterway w).qgLim) := by
  have down : ¬ ((f (s.waterway w).liveHead : Int) < 0) := by omega
  rw [Machine.allowed_iff]
  simp only [waits.kind, waits.record, reduceCtorEq, false_or, Option.some.injEq, exists_eq_left', bars_eq_false, fits_eq_true,
    waits.startStep_eq, waits.mode, waits.sense, if_false, forall_const, IsEmpty.forall_iff, and_true, down, Nat.cast_pos]

theorem grants (clear : (s.waterway w).genInhibit = false)
    (fits : (s.waterway w).netFlow + f (s.waterway w).liveHead ≤ (s.waterway w).qgLim) :
    s.StartGranted (s.gateOpportunity w) w e r :=
  (gateOpportunity_grants (before := []) waits.isOpen waits.queue nofun (waits.allowed_iff.2 ⟨clear, fun _ => fits⟩)
    waits.spacingTime waits.record waits.unit waits.link waits.idle).1 waits.kind

theorem stays (barred : (s.waterway w).genInhibit = true ∨ (0 < f (s.waterway w).liveHead ∧
    ((s.waterway w).qgLim : Int) < (s.waterway w).netFlow + f (s.waterway w).liveHead)) :
    s.OnlyMarks (s.gateOpportunity w) := by
  refine gateOpportunity_none waits.isOpen fun x hx => ?_
  obtain rfl : x = e := by simpa [waits.queue] using hx
  rw [← Bool.not_eq_true, waits.allowed_iff]
  rintro ⟨clear, fits⟩
  rcases barred with inhibit | ⟨up, above⟩
  · rw [clear] at inhibit; cases inhibit
  · exact absurd (fits up) (by omega)

/-- Granted, it leaves the gate SPACING with an empty queue. -/
theorem grantsTo (quiet : s.linkOut = []) (granted : s.StartGranted t w e r) : s.GrantsTo t w e r := by
  have gone := granted.gate
  unfold State.entryGone at gone
  rw [waterway_modWaterway, if_pos rfl, waits.queue] at gone
  refine ⟨granted.record, ?_, ?_, ?_⟩
  · rw [granted.sent, quiet, waits.mode]; rfl
  · rw [gone]; simp [withoutGate]
  · rw [gone]; simp [waits.spacingTime.ne']

end State.WaitsOpen

/-- The entry, its order and its unit, and the gate they wait at, stand as they did. -/
structure State.SameWait (s t : State) (w : WaterwayNo) (e : GateEntry) : Prop where
  order : t.order? e.handle = s.order? e.handle
  home : (t.unit e.unit).waterway = (s.unit e.unit).waterway
  link : (t.unit e.unit).link = (s.unit e.unit).link
  spacing : (t.waterway w).spacing = (s.waterway w).spacing
  spacingTime : (t.waterway w).spacingTime = (s.waterway w).spacingTime
  queue : (t.waterway w).queue = (s.waterway w).queue

namespace State.SameWait

variable {s t v : State} {w : WaterwayNo} {e : GateEntry} {r : Order} {f : Nat → Nat}

theorem trans (a : s.SameWait t w e) (b : t.SameWait v w e) : s.SameWait v w e :=
  ⟨b.order.trans a.order, b.home.trans a.home, b.link.trans a.link, b.spacing.trans a.spacing, b.spacingTime.trans a.spacingTime,
    b.queue.trans a.queue⟩

theorem ofMarks (marks : s.OnlyMarks t) : s.SameWait t w e :=
  ⟨marks.order _, marks.home _, marks.link _, by rw [marks.waterway], by rw [marks.waterway], by rw [marks.waterway]⟩

theorem waits (same : s.SameWait t w e) (waits : s.WaitsOpen w e r f) : t.WaitsOpen w e r f where
  isOpen := same.spacing.trans waits.isOpen
  spacingTime := by rw [same.spacingTime]; exact waits.spacingTime
  queue := same.queue.trans waits.queue
  kind := waits.kind
  record := same.order.trans waits.record
  unit := waits.unit
  waterway := same.home.trans waits.waterway
  mode := waits.mode
  sense := waits.sense
  link := by rw [same.link]; exact waits.link
  idle := by rw [same.link]; exact waits.idle
  step := by rw [same.link]; exact waits.step

/-- What is granted later is granted. -/
theorem grantsTo (same : s.SameWait t w e) (granted : t.GrantsTo v w e r) : s.GrantsTo v w e r := by
  obtain ⟨record, sent, queue, spacing⟩ := granted
  rw [same.link] at sent
  rw [same.spacingTime] at spacing
  exact ⟨record, sent, queue, spacing⟩

end State.SameWait

/-! ## An entry that joins (R64 to R66, R109) -/

section
variable {s : State} {h : Handle} {r : Order} {c : Capability}

/-- The START entry of an order that joins the gate of its waterway (R106). -/
def State.entryOf (s : State) (h : Handle) (r : Order) : GateEntry :=
  { handle := h, unit := r.unit, kind := .start, cls := r.cls, rank := (s.waterway (s.unit r.unit).waterway).nextRank }

/-- The order engaged, and its START entry in the queue of its gate: what the gate then finds (R66, R106). -/
def State.joinedFrom (s : State) (h : Handle) (r : Order) : State :=
  ((s.madeDue h).engagedFrom h r .awaitingGate).modWaterway (s.unit r.unit).waterway fun x =>
    { x with
      queue := insertGate { handle := h, unit := r.unit, kind := .start, cls := r.cls, rank := x.nextRank } x.queue
      nextRank := x.nextRank + 1 }

@[simp] theorem joinedFrom_order? (k : Handle) : (s.joinedFrom h r).order? k =
    if k = h then (s.order? h).map (·.into (.starting .awaitingGate)) else s.order? k := by
  unfold State.joinedFrom
  rw [modWaterway_order?, order?_engagedFrom]
  split
  · simp [Function.comp_def]
  · next other => simp [other]
@[simp] theorem joinedFrom_unit (u : UnitNo) : (s.joinedFrom h r).unit u =
    if r.unit = u then { s.unit u with context := .engaged, motion := false } else s.unit u := by
  unfold State.joinedFrom
  rw [modWaterway_unit, unit_engagedFrom, unit_madeDue]
@[simp] theorem joinedFrom_linkOut : (s.joinedFrom h r).linkOut = s.linkOut := by
  unfold State.joinedFrom
  rw [modWaterway_linkOut, linkOut_engagedFrom, linkOut_madeDue]
@[simp] theorem joinedFrom_waterway : (s.joinedFrom h r).waterway (s.unit r.unit).waterway =
    { s.waterway (s.unit r.unit).waterway with
      queue := insertGate (s.entryOf h r) (s.waterway (s.unit r.unit).waterway).queue
      nextRank := (s.waterway (s.unit r.unit).waterway).nextRank + 1 } := by
  unfold State.joinedFrom
  rw [waterway_modWaterway, if_pos rfl, waterway_engagedFrom, waterway_madeDue]
  rfl

/-- The start arrival of a single GENERATE order on an IDLE unit takes its entry to the gate, and ends with the gate's opportunity, at
which the order does not become DUE again (R64 to R66). -/
theorem startArrival_joins (free : s.named = []) (hr : s.order? h = some r) (held : r.life = .held)
    (runs : ∀ e, r.finish = some e → s.plantTime < e) (notIsolated : (s.unit r.unit).isolated = false)
    (idle : (s.unit r.unit).context = .idle) (noDue : ∀ k q, s.order? k = some q → q.unit = r.unit → q.life ≠ .due)
    (generate : r.mode = .generate) (single : r.partner = none) {t : State} {q : Order}
    (opportunity : (s.joinedFrom h r).gateOpportunity (s.unit r.unit).waterway = t) (record : t.order? h = some q)
    (engaged : q.life ≠ .due) : (s.startArrival h).finish = t := by
  have due : (s.madeDue h).order? h = some (r.into .due) := by simp [hr]
  have phase : (s.madeDue h).firstPhase (r.into .due) = .awaitingGate := by
    unfold State.firstPhase
    rw [Order.into_mode, Order.into_partner, generate, single]
    rfl
  have inTime : endReached (r.into .due).finish (s.madeDue h).plantTime = false := by
    rw [Order.into_finish, plantTime_madeDue]
    cases finish : r.finish with
    | none => rfl
    | some e => simpa [endReached] using runs e finish
  have only : ∀ k q, (s.madeDue h).order? k = some q → q.unit = r.unit → q.life = .due → k = h := by
    intro k q hq unit life
    by_contra other
    rw [order?_madeDue, if_neg other] at hq
    exact noDue k q hq unit life
  have joins : ((s.madeDue h).engagedFrom h r .awaitingGate).joinGate h (r.into .due) .start = t := by
    have home : (((s.madeDue h).engagedFrom h r .awaitingGate).unit r.unit).waterway = (s.unit r.unit).waterway := by simp
    unfold State.joinGate
    dsimp only
    rw [Order.into_unit, home]
    exact opportunity
  refine startArrival_settles free hr held ?_ (latenessTest_notDue record engaged)
  rw [engagementOf_engages due rfl (by simpa using notIsolated),
    engageFirst_single (u := (r.into .due).unit) (by simpa using idle) due rfl rfl inTime only, engage_unnamed (by simpa using free), phase]
  exact congrArg (·, []) joins

/-- The gate of the order is OPEN over nothing, and its unit is ready for a directive. -/
theorem joinedFrom_waits (hr : s.order? h = some r) (generate : r.mode = .generate) (sense : r.pairSense = none)
    (up : (s.unit r.unit).link.state = .up) (ready : (s.unit r.unit).link.outstanding = none)
    (record : (s.unit r.unit).link.current = some c) (isOpen : (s.waterway (s.unit r.unit).waterway).spacing = none)
    (queue : (s.waterway (s.unit r.unit).waterway).queue = []) (time : 0 < (s.waterway (s.unit r.unit).waterway).spacingTime) :
    (s.joinedFrom h r).WaitsOpen (s.unit r.unit).waterway (s.entryOf h r) (r.into (.starting .awaitingGate))
      (c.genFlow c.pmin) where
  isOpen := by simp [isOpen]
  spacingTime := by simpa using time
  queue := by rw [joinedFrom_waterway, queue]; rfl
  kind := rfl
  record := by
    rw [joinedFrom_order?]
    exact (if_pos rfl).trans (by rw [hr]; rfl)
  unit := rfl
  waterway := by simp [State.entryOf]
  mode := generate
  sense := sense
  link := by simp [State.entryOf, up]
  idle := by simp [State.entryOf, ready]
  step := ⟨c, by simp [State.entryOf, record], fun _ => rfl⟩

end

end Sys2Proof.Machine
end

section
/-! # An OPEN gate at a new level and at a change of flow (R30, R34, R36, R109, R147, R158) -/

namespace Sys2Proof.Machine

/-! ## A new live head (R30) -/

/-- A live head worked out and written, before anything follows from it (R29). -/
def State.headTold (s : State) (w : WaterwayNo) : State :=
  s.modWaterway w fun x => { x with liveHead := (s.headOf w).1, headLow := (s.headOf w).2 }

section
variable {s : State} {w : WaterwayNo}

@[simp] theorem headTold_waterway : (s.headTold w).waterway w =
    { s.waterway w with liveHead := (s.headOf w).1, headLow := (s.headOf w).2 } := by
  unfold State.headTold; rw [waterway_modWaterway, if_pos rfl]

/-- A new live head leaves the gauges, and what else the waterway shows of them, as they are (R30). -/
theorem updateHead_reads (s : State) (w : WaterwayNo) :
    (s.updateHead w).gauges = s.gauges ∧ ((s.headTold w).waterway w).SameReadings ((s.updateHead w).waterway w) := by
  have read : ReadOff w fun t => t.gauges = s.gauges ∧ ((s.headTold w).waterway w).SameReadings (t.waterway w) :=
    fun a t gauges same p => ⟨gauges.trans p.1,
      ⟨same.hAdm.trans p.2.hAdm, same.upper.trans p.2.upper, same.lower.trans p.2.lower, same.liveHead.trans p.2.liveHead,
        same.headLow.trans p.2.headLow, same.pumpInhibit.trans p.2.pumpInhibit, same.genInhibit.trans p.2.genInhibit⟩⟩
  exact read.updateHead ⟨rfl, {}⟩

/-- Where no unit of the waterway depends on head, a new live head recomputes nothing (R30, R34). -/
theorem takeHead_marks (level : (s.waterway w).netFlow = s.sumFlow w)
    (still : ∀ v, (s.unit v).waterway = w → s.headDependent v = false) :
    (s.headTold w).OnlyMarks (s.takeHead w (s.headOf w).1 (s.headOf w).2) := by
  have recomputed : ((s.headTold w).unitsOf w).foldl
      (fun s u => if s.headDependent u then s.refreshContribution u else s) (s.headTold w) = s.headTold w := by
    refine List.foldlRecOn (motive := (· = s.headTold w)) _ _ rfl fun t ht u hu => ?_
    have home : ((s.headTold w).unit u).waterway = w := by simpa using (List.mem_filter.1 hu).2
    rw [ht]
    exact if_neg (by rw [show (s.headTold w).headDependent u = s.headDependent u from rfl, still u home]; simp)
  have flow : (s.headTold w).refreshFlow w = s.headTold w :=
    refreshFlow_of_eq _ _ (by rw [headTold_waterway]; exact level.symm)
  unfold State.takeHead
  dsimp only
  rw [show (s.modWaterway w fun x => { x with liveHead := (s.headOf w).1, headLow := (s.headOf w).2 }) = s.headTold w from rfl,
    recomputed, flow]
  exact List.foldlRecOn (motive := (s.headTold w).OnlyMarks) _ _ (.refl _) fun t marks u _ => marks.trans (.refreshOutside t u)

/-- A live head that is not new is no grant opportunity; a new one is (R30, R109). -/
theorem updateHead_still (level : (s.waterway w).netFlow = s.sumFlow w)
    (still : ∀ v, (s.unit v).waterway = w → s.headDependent v = false) :
    ((s.headOf w).1 = (s.waterway w).liveHead → s.updateHead w = s.headTold w) ∧
      ((s.headOf w).1 ≠ (s.waterway w).liveHead →
        ∃ a, (s.headTold w).OnlyMarks a ∧ s.updateHead w = a.gateOpportunity w) := by
  unfold State.updateHead
  dsimp only
  refine ⟨fun same => ?_, fun new => ⟨_, takeHead_marks level still, if_neg new⟩⟩
  rw [if_pos same]
  unfold State.headTold State.modWaterway
  rw [same]

/-! ## Inhibits evaluated (R158) -/

/-- The inhibits of a waterway written and told of, before anything follows from them (R158). -/
def State.inhibitsTold (s : State) (w : WaterwayNo) (pump gen : Bool) : State :=
  (s.modWaterway w fun x => { x with pumpInhibit := pump, genInhibit := gen }).raiseIf .inhibitChange
    (pump != (s.waterway w).pumpInhibit || gen != (s.waterway w).genInhibit)

section
variable (s : State) (e : EventKind) (b : Bool)

@[simp] theorem raiseIf_order? (h : Handle) : (s.raiseIf e b).order? h = s.order? h := by unfold State.raiseIf; split <;> rfl
@[simp] theorem raiseIf_unit (u : UnitNo) : (s.raiseIf e b).unit u = s.unit u := by unfold State.raiseIf; split <;> rfl
@[simp] theorem raiseIf_waterway (w : WaterwayNo) : (s.raiseIf e b).waterway w = s.waterway w := by
  unfold State.raiseIf; split <;> rfl
@[simp] theorem raiseIf_linkOut : (s.raiseIf e b).linkOut = s.linkOut := by unfold State.raiseIf; split <;> rfl

end

variable {pump gen : Bool}

@[simp] theorem inhibitsTold_waterway : (s.inhibitsTold w pump gen).waterway w =
    { s.waterway w with pumpInhibit := pump, genInhibit := gen } := by
  unfold State.inhibitsTold
  rw [raiseIf_waterway, waterway_modWaterway, if_pos rfl]

@[simp] theorem inhibitsTold_linkOut : (s.inhibitsTold w pump gen).linkOut = s.linkOut := by simp [State.inhibitsTold]

theorem sameWait_inhibitsTold (e : GateEntry) : s.SameWait (s.inhibitsTold w pump gen) w e where
  order := by simp [State.inhibitsTold]
  home := by simp [State.inhibitsTold]
  link := by simp [State.inhibitsTold]
  spacing := by rw [inhibitsTold_waterway]
  spacingTime := by rw [inhibitsTold_waterway]
  queue := by rw [inhibitsTold_waterway]

/-- Where no inhibit sets, evaluating them stops no order, and a clearing is a grant opportunity (R109, R158). -/
theorem evaluateInhibits_clears (given : pumpInhibitOf (s.gauge (s.waterway w).upper) (s.gauge (s.waterway w).lower) = pump)
    (stands : pump = true → (s.waterway w).pumpInhibit = true)
    (clear : genInhibitOf (s.gauge (s.waterway w).upper) (s.gauge (s.waterway w).lower) = false) :
    s.evaluateInhibits w = s.inhibitsTold w pump false ∧ (s.waterway w).genInhibit = false ∨
      s.evaluateInhibits w = (s.inhibitsTold w pump false).gateOpportunity w := by
  have noneSets : (pump && !(s.waterway w).pumpInhibit || false && !(s.waterway w).genInhibit) = false := by
    cases pump with
    | false => rfl
    | true => rw [stands rfl]; rfl
  unfold State.evaluateInhibits
  dsimp only
  rw [given, clear, noneSets, if_neg (show ¬ false = true by decide)]
  split
  · exact .inr rfl
  · next kept =>
    have neither := Bool.or_eq_false_iff.1 (by simpa only [Bool.not_eq_true] using kept)
    exact .inl ⟨rfl, by simpa using neither.2⟩

end

/-! ## A telegram of an upper gauge (R156) -/

/-- The state once the gauge has received its telegram, before heads and inhibits follow. -/
def State.gaugeHeard (s : State) (g : GaugeNo) (x : Gauge) : State :=
  (s.quiet.setGauge g x).raiseIf .gaugeChange ((s.gauge g).state != x.state)

section
variable {s : State} {g : GaugeNo} {x : Gauge}

/-- Nothing but the gauge, the latches and what was sent differs. -/
theorem gaugeHeard_eq : ∃ l, s.gaugeHeard g x = { s.setGauge g x with latches := l, linkOut := [], portOut := [] } := by
  unfold State.gaugeHeard State.raiseIf
  split <;> exact ⟨_, rfl⟩

/-- A gauge that one waterway alone names. -/
theorem waterwaysOf_single {w : WaterwayNo} (named : ∀ v, (s.waterway v).names g = decide (v = w)) : s.waterwaysOf g = [w] := by
  have pick : ∀ w : WaterwayNo, allWaterways.filter (fun v => decide (v = w)) = [w] := by decide
  unfold State.waterwaysOf
  rw [funext named]
  exact pick w

/-- A telegram with a new level of a gauge that one waterway alone names works out the live head of that waterway, and then evaluates
its inhibits (R156, R158, log entry 23). -/
theorem exec_gaugeTelegram {bytes : List Byte} {w : WaterwayNo} (received : x = (s.gauge g).receive g bytes)
    (level : x.level ≠ (s.gauge g).level) (named : ∀ v, (s.waterway v).names g = decide (v = w)) :
    exec (.gaugeTelegram g bytes) s = .next (((s.gaugeHeard g x).updateHead w).evaluateInhibits w) := by
  have heard : (s.quiet.modGauge g fun x => x.receive g bytes).gaugeChanged g (s.gauge g) =
      ((s.gaugeHeard g x).headsOf g).inhibitsOf g := by
    have new : (s.quiet.modGauge g fun x => x.receive g bytes).gauge g = x := by
      rw [gauge_modGauge, if_pos rfl, received]; rfl
    have told : s.quiet.modGauge g (fun x => x.receive g bytes) = s.quiet.setGauge g x := by rw [received]; rfl
    unfold State.gaugeChanged
    dsimp only
    rw [new, if_pos (.inl level.symm), told]
    rfl
  obtain ⟨l, found⟩ := gaugeHeard_eq (s := s) (g := g) (x := x)
  have first : (s.gaugeHeard g x).waterwaysOf g = [w] := waterwaysOf_single fun v => by rw [found]; exact named v
  have heads : (s.gaugeHeard g x).headsOf g = (s.gaugeHeard g x).updateHead w := by unfold State.headsOf; rw [first]; rfl
  have second : ((s.gaugeHeard g x).updateHead w).waterwaysOf g = [w] := waterwaysOf_single fun v => by
    have read : ReadOff v fun t => (t.waterway v).names g = decide (v = w) := fun a t _ same p =>
      (show (t.waterway v).names g = (a.waterway v).names g by unfold Waterway.names; rw [same.upper, same.lower]).trans p
    refine read.updateHead (s := s.gaugeHeard g x) ?_
    rw [waterway_modWaterway]
    split
    · next same => subst same; rw [found]; exact named w
    · rw [found]; exact named v
  rw [exec_event rfl]
  show Host.Outcome.next ((s.quiet.modGauge g fun x => x.receive g bytes).gaugeChanged g (s.gauge g)) = _
  rw [heard, heads]
  unfold State.inhibitsOf
  rw [second]
  rfl

end

/-- An OPEN gate's START entry that a new live head, or the clearing of the inhibit of generating, lets go (R109, log entry 23). -/
theorem level_grants {s : State} {w : WaterwayNo} {e : GateEntry} {r : Order} {f : Nat → Nat} {pump : Bool} (quiet : s.linkOut = [])
    (waits : s.WaitsOpen w e r f) (level : (s.waterway w).netFlow = s.sumFlow w)
    (still : ∀ v, (s.unit v).waterway = w → s.headDependent v = false)
    (given : pumpInhibitOf (s.gauge (s.waterway w).upper) (s.gauge (s.waterway w).lower) = pump)
    (stands : pump = true → (s.waterway w).pumpInhibit = true)
    (clear : genInhibitOf (s.gauge (s.waterway w).upper) (s.gauge (s.waterway w).lower) = false)
    (fits : (s.waterway w).netFlow + f (s.headOf w).1 ≤ (s.waterway w).qgLim)
    (new : (s.waterway w).genInhibit = true ∨ (s.headOf w).1 ≠ (s.waterway w).liveHead) :
    s.GrantsTo ((s.updateHead w).evaluateInhibits w) w e r := by
  have told : s.SameWait (s.headTold w) w e := ⟨rfl, rfl, rfl, by simp, by simp, by simp⟩
  obtain ⟨gauges, reads⟩ := updateHead_reads s w
  have gauge : ∀ g, (s.updateHead w).gauge g = s.gauge g := fun g => by unfold State.gauge; rw [gauges]
  have inhibits := evaluateInhibits_clears (s := s.updateHead w) (w := w) (pump := pump)
    (by rw [reads.upper, reads.lower, gauge, gauge]; simpa using given) (by rw [reads.pumpInhibit]; simpa using stands)
    (by rw [reads.upper, reads.lower, gauge, gauge]; simpa using clear)
  obtain ⟨noNews, news⟩ := updateHead_still level still
  by_cases inhibited : (s.waterway w).genInhibit = true
  · have marks : (s.headTold w).OnlyMarks (s.updateHead w) := by
      by_cases same : (s.headOf w).1 = (s.waterway w).liveHead
      · rw [noNews same]; exact .refl _
      · obtain ⟨a, marks, opportunity⟩ := news same
        rw [opportunity]
        refine marks.trans (((State.SameWait.ofMarks marks).waits (told.waits waits)).stays (.inl ?_))
        rw [marks.waterway, headTold_waterway]
        exact inhibited
    have opens : (s.updateHead w).evaluateInhibits w = ((s.updateHead w).inhibitsTold w pump false).gateOpportunity w := by
      refine inhibits.resolve_left fun kept => ?_
      have now := kept.2
      rw [reads.genInhibit, headTold_waterway] at now
      exact absurd (now.symm.trans inhibited) (by decide)
    have same := (told.trans (.ofMarks marks)).trans (sameWait_inhibitsTold (pump := pump) (gen := false) e)
    have waits' := same.waits waits
    have water : ((s.updateHead w).inhibitsTold w pump false).waterway w =
        { s.waterway w with
          liveHead := (s.headOf w).1, headLow := (s.headOf w).2, pumpInhibit := pump, genInhibit := false } := by
      rw [inhibitsTold_waterway, marks.waterway, headTold_waterway]
    rw [opens]
    refine same.grantsTo (waits'.grantsTo ?_ (waits'.grants (by rw [water]) (by rw [water]; exact fits)))
    rw [inhibitsTold_linkOut, marks.linkOut]
    exact quiet
  · obtain ⟨a, marks, opportunity⟩ := news (new.resolve_left inhibited)
    have same := told.trans (.ofMarks marks)
    have waits' := same.waits waits
    have granted : s.GrantsTo (s.updateHead w) w e r := by
      rw [opportunity]
      refine same.grantsTo (waits'.grantsTo (by rw [marks.linkOut]; exact quiet) (waits'.grants ?_ ?_))
      · rw [marks.waterway, headTold_waterway]; simpa using inhibited
      · rw [marks.waterway, headTold_waterway]; exact fits
    obtain ⟨record, sent, queue, spacing⟩ := granted
    have after := sameWait_inhibitsTold (s := s.updateHead w) (w := w) (pump := pump) (gen := false) e
    have ends : (s.updateHead w).evaluateInhibits w = (s.updateHead w).inhibitsTold w pump false := by
      rcases inhibits with kept | opens
      · exact kept.1
      · rw [opens, gateOpportunity_spaced (by rw [after.spacing, spacing]; rfl)]
    rw [ends]
    exact ⟨after.order.trans record, by rw [inhibitsTold_linkOut, sent], after.queue.trans queue, after.spacing.trans spacing⟩

/-- What a waterway shows once its live head is worked out and its inhibits are evaluated (R29, R158). -/
theorem level_shows {s : State} {w : WaterwayNo}
    (clear : genInhibitOf (s.gauge (s.waterway w).upper) (s.gauge (s.waterway w).lower) = false) :
    (((s.updateHead w).evaluateInhibits w).waterway w).liveHead = (s.headOf w).1 ∧
      (((s.updateHead w).evaluateInhibits w).waterway w).genInhibit = false := by
  have read : ReadOff w fun t => (t.waterway w).liveHead = (s.headOf w).1 ∧ (t.waterway w).genInhibit = false :=
    fun a t _ same p => ⟨same.liveHead.trans p.1, same.genInhibit.trans p.2⟩
  obtain ⟨gauges, reads⟩ := updateHead_reads s w
  have gauge : ∀ g, (s.updateHead w).gauge g = s.gauge g := fun g => by unfold State.gauge; rw [gauges]
  refine read.kept.evaluateInhibits ?_
  rw [waterway_modWaterway, if_pos rfl]
  refine ⟨reads.liveHead.trans (by rw [headTold_waterway]), ?_⟩
  show genInhibitOf _ _ = false
  rw [reads.upper, reads.lower, gauge, gauge, headTold_waterway]
  exact clear

/-- A telegram of the upper gauge of an OPEN gate's waterway that lets its START entry go (R109, R156, R158). -/
theorem gaugeTelegram_grants {s : State} {g : GaugeNo} {bytes : List Byte} {w : WaterwayNo} {x : Gauge} {e : GateEntry} {r : Order}
    {f : Nat → Nat} (told : s.UpperTold g bytes w x) (waits : s.WaitsOpen w e r f) (level : (s.waterway w).netFlow = s.sumFlow w)
    (still : ∀ v, (s.unit v).waterway = w → s.headDependent v = false)
    (stands : pumpInhibitOf x (s.gauge (s.waterway w).lower) = true → (s.waterway w).pumpInhibit = true)
    (clear : genInhibitOf x (s.gauge (s.waterway w).lower) = false)
    (fits : (s.waterway w).netFlow + f ((s.setGauge g x).headOf w).1 ≤ (s.waterway w).qgLim)
    (new : (s.waterway w).genInhibit = true ∨ ((s.setGauge g x).headOf w).1 ≠ (s.waterway w).liveHead) :
    ∃ t : State, exec (.gaugeTelegram g bytes) s = .next t ∧ s.GrantsTo t w e r ∧
      (t.waterway w).liveHead = ((s.setGauge g x).headOf w).1 ∧ (t.waterway w).genInhibit = false := by
  have named : ∀ v, (s.waterway v).names g = decide (v = w) := fun v => by
    unfold Waterway.names
    by_cases same : v = w
    · rw [same, told.upper]; simp
    · obtain ⟨upper, lower⟩ := told.others v same
      simp [upper, lower, same]
  obtain ⟨l, found⟩ := gaugeHeard_eq (s := s) (g := g) (x := x)
  have water : (s.gaugeHeard g x).waterway w = s.waterway w := by rw [found]; rfl
  have head : (s.gaugeHeard g x).headOf w = (s.setGauge g x).headOf w := by rw [found]; rfl
  have gauge : ∀ j, (s.gaugeHeard g x).gauge j = if g = j then x else s.gauge j := fun j => by
    rw [found]; exact gauge_setGauge ..
  have same : s.SameWait (s.gaugeHeard g x) w e := by rw [found]; exact ⟨rfl, rfl, rfl, rfl, rfl, rfl⟩
  have upper : (s.gaugeHeard g x).gauge ((s.gaugeHeard g x).waterway w).upper = x := by
    rw [water, gauge, told.upper, if_pos rfl]
  have lower : (s.gaugeHeard g x).gauge ((s.gaugeHeard g x).waterway w).lower = s.gauge (s.waterway w).lower := by
    rw [water, gauge, if_neg (Ne.symm told.lower)]
  refine ⟨_, exec_gaugeTelegram told.received told.level named, same.grantsTo ?_, ?_⟩
  · refine level_grants (by rw [found]) (same.waits waits) ?_ ?_ rfl ?_ ?_ ?_ ?_
    · rw [water, level, found]; rfl
    · rw [found]; exact still
    · rw [upper, lower, water]; exact stands
    · rw [upper, lower]; exact clear
    · rw [water, head]; exact fits
    · rw [water, head]; exact new
  · have shown := level_shows (s := s.gaugeHeard g x) (w := w) (by rw [upper, lower]; exact clear)
    rwa [head] at shown

end Sys2Proof.Machine
end

section
/-! # An OPEN gate at a change of flow (R33 to R36, R109, R147), and what its opportunities grant -/

namespace Sys2Proof.Machine

/-! ## A live net flow in which one unit contributes otherwise (R36) -/

/-- A unit that no longer contributes leaves its share out of the live net flow (R36). -/
theorem sumFlow_without {s t : State} {u : UnitNo} {w : WaterwayNo} (home : ∀ v, (t.unit v).waterway = (s.unit v).waterway)
    (others : ∀ v, v ≠ u → (t.unit v).contribution = (s.unit v).contribution) (none : (t.unit u).contribution = 0)
    (assigned : (s.unit u).waterway = w) : t.sumFlow w = s.sumFlow w - (s.unit u).contribution := by
  have share : ∀ v, t.share w v = s.share w v + if v = u then -(s.unit u).contribution else 0 := fun v => by
    unfold State.share
    rw [home]
    by_cases same : v = u
    · rw [same, if_pos assigned, if_pos assigned, if_pos rfl, none]; omega
    · rw [if_neg same, others v same, add_zero]
  have one : ∀ q : Int, (allUnits.map fun v => if v = u then q else 0).sum = q := fun q => by
    fin_cases u <;> simp [allUnits]
  rw [sumFlow_eq, sumFlow_eq, funext share, List.sum_map_add, one]
  omega

/-! ## A report that an ORPHAN stands still (R33, R140, R147) -/

/-- A report that is no trip leaves the gates alone. -/
theorem told_waterway_still {s : State} {u : UnitNo} {p : Report} (still : p.state ≠ .tripped) (w : WaterwayNo) :
    (s.told u p).waterway w = s.waterway w := by
  have quiet : startsTrip (s.unit u).link.lastReport p = false := by simp [startsTrip, still]
  unfold State.told
  rw [quiet]
  rfl

/-- A report that is not out of phase: the contribution of its unit is recomputed, and the consequences carried through (R140). -/
theorem reportReceived_taken {s : State} {u : UnitNo} {p : Report} {work : Work}
    (taken : (s.told u p).takeReport u p (!(s.unit u).link.sinceUp) = (work, false)) :
    s.reportReceived u p = (work.1.recompute u).settle work.2 := by
  unfold State.told at taken
  unfold State.reportReceived
  dsimp only
  rw [taken]
  rfl

/-- The state once an ORPHAN has reported that it stands still: it is IDLE, and it contributes nothing (R33, R147). -/
def State.stoodStill (s : State) (v : UnitNo) (p : Report) : State :=
  ((s.quiet.told v p).setContext v .idle).modUnit v fun b => { b with contribution := 0, saturated := false }

section
variable {s : State} {v : UnitNo} {p : Report}

@[simp] theorem stoodStill_order? (k : Handle) : (s.stoodStill v p).order? k = s.order? k := by
  unfold State.stoodStill
  rw [modUnit_order?, setContext_order?, told_order?]
  rfl
theorem stoodStill_waterway (standstill : p.state = .standstill) (w : WaterwayNo) :
    (s.stoodStill v p).waterway w = s.waterway w := by
  unfold State.stoodStill
  rw [modUnit_waterway, setContext_waterway, told_waterway_still (by simp [standstill])]
  rfl
@[simp] theorem stoodStill_linkOut : (s.stoodStill v p).linkOut = [] := by
  unfold State.stoodStill
  rw [modUnit_linkOut, setContext_linkOut, told_linkOut]
  rfl
theorem stoodStill_other {u : UnitNo} (other : v ≠ u) : (s.stoodStill v p).unit u = s.unit u := by
  unfold State.stoodStill
  rw [unit_modUnit, if_neg other, unit_setContext, if_neg other, told_unit, if_neg other]
  rfl
theorem stoodStill_home (u : UnitNo) : ((s.stoodStill v p).unit u).waterway = (s.unit u).waterway := by
  by_cases same : v = u
  · subst same
    unfold State.stoodStill
    rw [unit_modUnit, if_pos rfl, unit_setContext, if_pos rfl, told_unit, if_pos rfl]
    rfl
  · rw [stoodStill_other same]
theorem stoodStill_contribution : ((s.stoodStill v p).unit v).contribution = 0 := by
  unfold State.stoodStill
  rw [unit_modUnit, if_pos rfl]

variable (present : (s.unit v).present = true) (up : (s.unit v).link.state = .up) (since : (s.unit v).link.sinceUp = true)
  (record : (s.unit v).link.current.isSome = true) (orphan : (s.unit v).context = .orphan) (remote : p.place = .remote)
  (standstill : p.state = .standstill)
include present up since record orphan remote standstill

/-- The report makes the unit IDLE, its contribution is recomputed, and its engagement test is due (R140, R147, R148). -/
theorem exec_stateReport_orphan :
    exec (.stateReport v p) s = .next (((s.stoodStill v p).updateFlow (s.unit v).waterway).settle [.engagement v]) := by
  have context : ((s.quiet.told v p).unit v).context = .orphan := by rw [told_unit, if_pos rfl]; exact orphan
  have taken : (s.quiet.told v p).takeReport v p (!(s.unit v).link.sinceUp) =
      (((s.quiet.told v p).setContext v .idle, [.engagement v]), false) := by
    unfold State.takeReport State.reportContext
    rw [since, context]
    simp [contextAfter, placing, remote, standstill]
  have recomputed : ((s.quiet.told v p).setContext v .idle).recompute v = (s.stoodStill v p).updateFlow (s.unit v).waterway := by
    have unit : ((s.quiet.told v p).setContext v .idle).unit v = { s.unit v with
        context := .idle
        link := { (s.unit v).link with heard := true, silent := false, lastReport := some p, sinceUp := true } } := by
      rw [unit_setContext, if_pos rfl, context, told_unit, if_pos rfl]
      simp [show s.quiet.unit v = s.unit v from rfl]
    have computed : ((s.quiet.told v p).setContext v .idle).contributionOf v = some (0, false) := by
      obtain ⟨c, hc⟩ := Option.isSome_iff_exists.1 record
      unfold State.contributionOf
      rw [unit]
      simp [present, hc, standstill]
    have fresh : ((s.quiet.told v p).setContext v .idle).refreshContribution v = s.stoodStill v p := by
      unfold State.refreshContribution
      rw [computed]
      rfl
    unfold State.recompute
    rw [fresh, unit]
  have received : s.quiet.reportReceived v p = ((s.stoodStill v p).updateFlow (s.unit v).waterway).settle [.engagement v] := by
    rw [reportReceived_taken taken]
    dsimp only
    rw [recomputed]
  show Host.Outcome.next (s.quiet.fromPresent v fun s => s.stateReceived v p) = _
  unfold State.fromPresent State.stateReceived
  rw [if_pos (show (s.quiet.unit v).present = true from present)]
  dsimp only
  rw [show (s.quiet.unit v).link.state = .up from up]
  exact congrArg _ received

/-- The flow that such a unit no longer contributes lets a START entry go (R36, R109). -/
theorem stateReport_grants {w : WaterwayNo} {e : GateEntry} {r : Order} {f : Nat → Nat} (waits : s.WaitsOpen w e r f)
    (clear : (s.waterway w).genInhibit = false) (assigned : (s.unit v).waterway = w) (other : v ≠ e.unit)
    (noDue : ∀ k q, s.order? k = some q → q.unit = v → q.life ≠ .due) (contributes : (s.unit v).contribution ≠ 0)
    (level : (s.waterway w).netFlow = s.sumFlow w)
    (fits : (s.waterway w).netFlow - (s.unit v).contribution + f (s.waterway w).liveHead ≤ (s.waterway w).qgLim) :
    ∃ t : State, exec (.stateReport v p) s = .next t ∧ s.GrantsTo t w e r ∧
      (t.waterway w).netFlow = (s.waterway w).netFlow - (s.unit v).contribution := by
  have sum : (s.stoodStill v p).sumFlow w = (s.waterway w).netFlow - (s.unit v).contribution := by
    rw [level]
    exact sumFlow_without stoodStill_home (fun u differs => by rw [stoodStill_other (Ne.symm differs)]) stoodStill_contribution
      assigned
  have water : ((s.stoodStill v p).refreshFlow w).waterway w =
      { s.waterway w with netFlow := (s.waterway w).netFlow - (s.unit v).contribution } := by
    unfold State.refreshFlow
    rw [waterway_modWaterway, if_pos rfl, stoodStill_waterway standstill, sum]
  have same : s.SameWait ((s.stoodStill v p).refreshFlow w) w e := by
    have unit : ((s.stoodStill v p).refreshFlow w).unit e.unit = s.unit e.unit := by
      unfold State.refreshFlow
      rw [modWaterway_unit, stoodStill_other other]
    have order : ((s.stoodStill v p).refreshFlow w).order? e.handle = s.order? e.handle := by
      unfold State.refreshFlow
      rw [modWaterway_order?, stoodStill_order?]
    exact ⟨order, by rw [unit], by rw [unit], by rw [water], by rw [water], by rw [water]⟩
  have granted := (same.waits waits).grants (by rw [water]; exact clear) (by rw [water]; exact fits)
  have update : (s.stoodStill v p).updateFlow w = ((s.stoodStill v p).refreshFlow w).gateOpportunity w := by
    unfold State.updateFlow
    refine if_neg ?_
    rw [sum, stoodStill_waterway standstill]
    omega
  have idle : ∀ k q, (((s.stoodStill v p).refreshFlow w).gateOpportunity w).order? k = some q → q.unit = v → q.life ≠ .due := by
    intro k q hq unit
    by_cases own : k = e.handle
    · rw [own, granted.record] at hq
      cases hq
      simp
    · rw [granted.others k own] at hq
      exact noDue k q ((stoodStill_order? k).symm.trans hq) unit
  refine ⟨_, exec_stateReport_orphan present up since record orphan remote standstill, ?_, ?_⟩
  all_goals rw [assigned, update, Settles.settle (.step (engagement_idle idle) .done)]
  · exact same.grantsTo ((same.waits waits).grantsTo stoodStill_linkOut granted)
  · have gate := granted.gate
    unfold State.entryGone at gate
    rw [waterway_modWaterway, if_pos rfl, water] at gate
    rw [gate]

end

/-! ## The statement -/

/-- The start arrival of a single GENERATE order whose gate is OPEN over nothing: it is granted at once, or waits (R66, R109). -/
theorem startArrival_open {s : State} {h : Handle} {r : Order} {w : WaterwayNo} {c : Capability} {f : Nat} (free : s.named = [])
    (quiet : s.linkOut = []) (hr : s.order? h = some r) (held : r.life = .held) (runs : ∀ e, r.finish = some e → s.plantTime < e)
    (generate : r.mode = .generate) (single : r.partner = none) (sense : r.pairSense = none) (home : w = (s.unit r.unit).waterway)
    (notIsolated : (s.unit r.unit).isolated = false) (idle : (s.unit r.unit).context = .idle)
    (noDue : ∀ k q, s.order? k = some q → q.unit = r.unit → q.life ≠ .due) (up : (s.unit r.unit).link.state = .up)
    (ready : (s.unit r.unit).link.outstanding = none) (record : (s.unit r.unit).link.current = some c)
    (step : f = c.genFlow c.pmin (s.headFor r.unit)) (isOpen : (s.waterway w).spacing = none) (queue : (s.waterway w).queue = [])
    (time : 0 < (s.waterway w).spacingTime) :
    ((s.waterway w).genInhibit = false → (s.waterway w).netFlow + f ≤ (s.waterway w).qgLim →
      ∃ t : State, (s.startArrival h).finish = t ∧
        t.order? h = some { r with life := .starting .runup, unseen := true } ∧ (t.waterway w).queue = [] ∧
        (t.waterway w).spacing = some (s.waterway w).spacingTime ∧
        t.linkOut = [(r.unit, .directive (s.unit r.unit).link.toggle .startGen)] ∧
        (t.unit r.unit).supervision = some (s.genStartTime r.unit)) ∧
    ((s.waterway w).genInhibit = true ∨ (0 < f ∧ ((s.waterway w).qgLim : Int) < (s.waterway w).netFlow + f) →
      ∃ t : State, (s.startArrival h).finish = t ∧
        t.order? h = some { r with life := .starting .awaitingGate, unseen := true } ∧ (t.waterway w).spacing = none ∧
        (∃ e, (t.waterway w).queue = [e] ∧ e.handle = h ∧ e.unit = r.unit ∧ e.kind = .start) ∧ t.linkOut = []) := by
  subst home
  have waits := joinedFrom_waits (h := h) hr generate sense up ready record isOpen queue time
  have water := joinedFrom_waterway (s := s) (h := h) (r := r)
  have head : s.headFor r.unit = ((s.joinedFrom h r).waterway (s.unit r.unit).waterway).liveHead := by rw [water]; rfl
  rw [head] at step
  have ends := fun {t q} => startArrival_joins (t := t) (q := q) free hr held runs notIsolated idle noDue generate single
  refine ⟨fun clear fits => ?_, fun barred => ?_⟩
  · have granted := waits.grants (by rw [water]; exact clear) (by rw [← step, water]; exact fits)
    obtain ⟨order, sent, empty, spacing⟩ := waits.grantsTo (by simp [quiet]) granted
    refine ⟨_, ends rfl order (by simp), order, empty, ?_, ?_, ?_⟩
    · rw [spacing, water]
    · rw [sent]; simp [State.entryOf]
    · refine granted.timer.trans (congrArg some ?_)
      unfold State.startTime
      rw [if_pos (.inl generate)]
      simp [State.genStartTime, State.capTime, State.entryOf, State.joinedFrom, State.engagedFrom, State.madeDue]
  · have marks := waits.stays (by rw [← step, water]; exact barred)
    have order := (marks.order _).trans waits.record
    refine ⟨_, ends rfl order (by simp), order, ?_, ⟨s.entryOf h r, ?_, rfl, rfl, rfl⟩, ?_⟩
    · rw [marks.waterway]; exact waits.isOpen
    · rw [marks.waterway]; exact waits.queue
    · rw [marks.linkOut, joinedFrom_linkOut, quiet]

/-- Settles O42: the expiry of the spacing timer with and without a spacing time, and the three opportunities of an OPEN gate. -/
theorem spacingExpiryGrants : Obligations.SpacingExpiryGrants := by
  refine ⟨fun s w due expired => ⟨fun e => ?_, spacingExpiry_opens due expired,
      fun before after e r queue barred allowed time hr unit up ready waits =>
        spacingExpiry_grants due expired queue barred allowed time hr unit up ready waits⟩,
    fun s h r w c f due mode free hr held now runs _ generate single sense home notIsolated idle noDue up ready record step isOpen
      queue time => ?_,
    fun s g bytes w x e r f head told waits at_ level still stands clear fits new => ?_,
    fun s v p w e r f waits clear present assigned other up since record orphan noDue remote standstill contributes level fits =>
      stateReport_grants present up since record orphan remote standstill waits clear assigned other noDue contributes level fits,
    fun s w due expired time stops => ?_⟩
  · rw [allowed_iff]
    simp only [bars_eq_false, fits_eq_true, and_assoc]
  · have arrival := startArrival_open (s := s.takes (.startArrival h)) free rfl hr held runs generate single sense home notIsolated
      idle noDue up ready record step isOpen queue time
    rw [exec_startArrival due mode hr now]
    exact ⟨fun clear fits => by
      obtain ⟨t, result, facts⟩ := arrival.1 clear fits
      exact ⟨t, congrArg _ result, facts⟩, fun barred => by
      obtain ⟨t, result, facts⟩ := arrival.2 barred
      exact ⟨t, congrArg _ result, facts⟩⟩
  · subst at_
    exact gaugeTelegram_grants told waits level still stands clear fits new
  · exact spacingExpiry_stops due expired time stops

end Sys2Proof.Machine
end

section
/-! # The status requests (R104, R125, R150, R162, Table 12-8) -/

namespace Sys2Proof.Machine

/-! ## The items of a body -/

section
variable {parts : List (List Byte)} {lengths : List Nat} {n m : Nat} (sizes : parts.map List.length = lengths)
include sizes

/-- `j` items of a body, from item `i` on, where the items before them fill `n` bytes and they `m`. -/
theorem items_of_flatten (i j : Nat) (before : (lengths.take i).sum = n) (size : ((lengths.drop i).take j).sum = m) :
    (parts.flatten.drop n).take m = ((parts.drop i).take j).flatten := by
  subst sizes before size
  rw [List.drop_sum_flatten, ← List.map_drop, List.take_sum_flatten]

/-- Item `i` of a body, where the items before it fill `n` bytes and it has `m`. -/
theorem item_of_flatten {item : List Byte} (i : Nat) (before : (lengths.take i).sum = n) (size : lengths[i]? = some m)
    (found : parts[i]? = some item) : (parts.flatten.drop n).take m = item := by
  subst sizes before
  rw [List.getElem?_map, found] at size
  cases size
  rw [List.drop_sum_flatten, List.drop_eq_getElem?_toList_append, found]
  exact List.take_left

/-- Everything from item `i` on. -/
theorem rest_of_flatten (i : Nat) (before : (lengths.take i).sum = n) : parts.flatten.drop n = (parts.drop i).flatten := by
  subst sizes before
  rw [List.drop_sum_flatten]

theorem length_of_flatten : parts.flatten.length = lengths.sum := by subst sizes; exact List.length_flatten

end

/-- A byte among some of a body's bytes is a byte of the body. -/
theorem byteAt_drop_take (out : List Byte) (n : Nat) {m k : Nat} (h : k < m) : byteAt ((out.drop n).take m) k = byteAt out (n + k) := by
  simp [byteAt, List.getD_eq_getElem?_getD, h]

/-- The eight bits of a byte of yes-or-no items (R194). -/
theorem bits_of_byte (bs : List Bool) :
    (List.range 8).map (BitVec.ofNat 8 (bitsOf bs)).getLsbD = (List.range 8).map fun i => bs.getD i false := by
  refine List.map_congr_left fun i hi => ?_
  rw [BitVec.getLsbD_ofNat, testBit_bitsOf, decide_eq_true (List.mem_range.1 hi), Bool.true_and]

/-- A byte that stands at `n` of a body alone. -/
theorem byteAt_of_item {out : List Byte} {n v : Nat} (h : (out.drop n).take 1 = beBytes 1 v) : byteAt out n = BitVec.ofNat 8 v := by
  have at0 := byteAt_drop_take out n Nat.one_pos
  rw [h] at at0
  exact at0.symm

/-- The bits of a byte of yes-or-no items that stands at `n` of a body. -/
theorem bits_of_item {out : List Byte} {n : Nat} {bs : List Bool} (h : (out.drop n).take 1 = beBytes 1 (bitsOf bs)) :
    (List.range 8).map (byteAt out n).getLsbD = (List.range 8).map fun i => bs.getD i false := by
  rw [byteAt_of_item h, bits_of_byte]

/-- Zero in any number of bytes. -/
theorem beBytes_zero (n : Nat) : beBytes n 0 = List.replicate n 0 := by
  induction n with
  | zero => rfl
  | succ n ih => rw [beBytes, Nat.zero_div, ih]; exact List.replicate_succ'.symm

/-- Eight entries of `n` bytes each, as a table of eight breakpoints has them. -/
theorem length_finRange_flatMap {f : Fin 8 → List Byte} {n : Nat} (h : ∀ i, (f i).length = n) :
    ((List.finRange 8).flatMap f).length = 8 * n := by
  rw [List.length_flatMap, List.map_congr_left fun i _ => h i, List.map_const', List.sum_replicate, List.length_finRange, smul_eq_mul]

/-! ## The operands -/

theorem waterwayOf_some (w : WaterwayNo) : waterwayOf (BitVec.ofNat 8 w) = some w := by revert w; decide

theorem waterwayOf_none {b : Byte} (h : 2 ≤ b.toNat) : waterwayOf b = none := dif_neg (by omega)

theorem gaugeOf_some (g : GaugeNo) : gaugeOf (BitVec.ofNat 8 g) = some g := by revert g; decide

theorem gaugeOf_none {b : Byte} (h : 4 ≤ b.toNat) : gaugeOf b = none := dif_neg (by omega)

/-! ## The requests change nothing -/

section
variable (s : State) (bytes : List Byte)

theorem frameEnded_convertersBody : (s.frameEnded bytes).convertersBody = s.convertersBody := by
  obtain ⟨l, p, o, e⟩ := frameEnded_fields s bytes; rw [e]; rfl

theorem frameEnded_waterwayBody (w : WaterwayNo) : (s.frameEnded bytes).waterwayBody w = s.waterwayBody w := by
  obtain ⟨l, p, o, e⟩ := frameEnded_fields s bytes; rw [e]; rfl

theorem frameEnded_unitBody (u : UnitNo) : (s.frameEnded bytes).unitBody u = s.unitBody u := by
  obtain ⟨l, p, o, e⟩ := frameEnded_fields s bytes; rw [e]; rfl

theorem frameEnded_gaugeBody (g : GaugeNo) : (s.frameEnded bytes).gaugeBody g = s.gaugeBody g := by
  obtain ⟨l, p, o, e⟩ := frameEnded_fields s bytes; rw [e]; rfl

/-- The answer to a request on one object: what it reports, or BAD_FIELD where no object has the number. -/
def State.reported {α : Type} (s : State) (kind : Nat) (tag : Byte) (object : Option α) (report : α → List Byte) : State :=
  match object with
  | some x => s.answered kind tag 6 .ok (report x) s.taken
  | none => s.answered kind tag 6 .badField [] s.taken

/-- An owner that reads alone and leaves the state as it found it (R176, R179). -/
theorem delivered_withField {α : Type} (kind : Nat) (tag : Byte) (object : Option α) (report : α → List Byte) :
    s.delivered kind tag 6 (withField object fun x => .ok (s.frameEnded bytes) (report x)) =
      s.reported kind tag object report := by
  cases object with
  | none => rfl
  | some x => exact answered_frameEnded s kind tag 6 .ok (report x) bytes

end

section
variable {s : State} {tag : Byte} {body : List Byte}

theorem exec_converterStatus :
    exec (.converterStatus tag []) s = .next (s.answered 12 tag 5 .ok s.convertersBody s.taken) := by
  have carried := exec_carried (c := .converterStatus tag []) rfl (s := s) (by cases s.mode <;> rfl) rfl
  simp only [ownerOf, frameEnded_convertersBody] at carried
  exact carried.trans (congrArg _ (answered_frameEnded ..))

variable (length : body.length = 1)
include length

theorem exec_waterwayStatus : exec (.waterwayStatus tag body) s =
    .next (s.reported 13 tag (waterwayOf (byteAt body 0)) s.waterwayBody) := by
  have carried := exec_carried (c := .waterwayStatus tag body) rfl (s := s) (by cases s.mode <;> rfl) length
  simp only [ownerOf, frameEnded_waterwayBody, length] at carried
  exact carried.trans (congrArg _ (delivered_withField ..))

theorem exec_unitStatus : exec (.unitStatus tag body) s =
    .next (s.reported 14 tag (unitOf (byteAt body 0)) s.unitBody) := by
  have carried := exec_carried (c := .unitStatus tag body) rfl (s := s) (by cases s.mode <;> rfl) length
  simp only [ownerOf, frameEnded_unitBody, length] at carried
  exact carried.trans (congrArg _ (delivered_withField ..))

theorem exec_gaugeStatus : exec (.gaugeStatus tag body) s =
    .next (s.reported 17 tag (gaugeOf (byteAt body 0)) s.gaugeBody) := by
  have carried := exec_carried (c := .gaugeStatus tag body) rfl (s := s) (by cases s.mode <;> rfl) length
  simp only [ownerOf, frameEnded_gaugeBody, length] at carried
  exact carried.trans (congrArg _ (delivered_withField ..))

end

/-! ## CONVERTER_STATUS (R104) -/

/-- The items of CONVERTER_STATUS: the two converters, the units that have a last converter, those converters, the start queue. -/
def State.converterItems (s : State) : List (List Byte) :=
  [(s.converter 0).statusBytes, (s.converter 1).statusBytes,
    beBytes 1 (bitsOf (allUnits.map fun u => (s.unit u).lastConverter.isSome)),
    allUnits.flatMap fun u => optBytes 1 ((s.unit u).lastConverter.map Fin.val),
    handleList (s.startQueue.map (·.handle))]

theorem convertersBody_eq (s : State) : s.convertersBody = s.converterItems.flatten := by
  simp [State.convertersBody, State.converterItems, allConverters]

/-- What a converter reports of its state alone: 8 bytes. -/
def Converter.runBytes (x : Converter) : List Byte :=
  match x.state with
  | .running h u n => [3] ++ beBytes 2 h ++ beBytes 1 u ++ beBytes 2 n ++ [0, 0]
  | .cooling n => [4, 0, 0, 0, 0, 0] ++ beBytes 2 n
  | _ => List.replicate 8 0

theorem length_runBytes (x : Converter) : x.runBytes.length = 8 := by
  unfold Converter.runBytes; split <;> simp

theorem converterStatusBytes_eq (x : Converter) : x.statusBytes =
    (beBytes 1 x.state.code ++ boolByte x.faultLine ++ boolByte x.outRequest) ++ x.runBytes := by
  unfold Converter.statusBytes Converter.runBytes
  cases x.state <;> rfl

theorem length_converterStatusBytes (x : Converter) : x.statusBytes.length = 11 := by
  rw [converterStatusBytes_eq, List.length_append, length_runBytes]; simp [boolByte]

theorem length_converterItems (s : State) :
    s.converterItems.map List.length = [11, 11, 1, 8, 1 + 2 * s.startQueue.length] := by
  have handles : (handleList (s.startQueue.map (·.handle))).length = 1 + 2 * s.startQueue.length := by
    simp [handleList, List.length_flatMap, Function.comp_def, Nat.mul_comm]
  simp [State.converterItems, length_converterStatusBytes, handles, allUnits]

theorem convertersBody_converter (s : State) (c : ConverterNo) :
    (s.convertersBody.drop (11 * c)).take 11 = (s.converter c).statusBytes := by
  have sizes := length_converterItems s
  rw [convertersBody_eq]
  match c with
  | 0 => exact item_of_flatten sizes 0 rfl rfl rfl
  | 1 => exact item_of_flatten sizes 1 rfl rfl rfl

/-- Whether a unit has a last converter is reported at its bit (R96). -/
theorem convertersBody_hasLast (s : State) (u : UnitNo) :
    (byteAt s.convertersBody 22).getLsbD u = (s.unit u).lastConverter.isSome := by
  have item : (s.convertersBody.drop 22).take 1 = beBytes 1 (bitsOf (allUnits.map fun u => (s.unit u).lastConverter.isSome)) := by
    rw [convertersBody_eq]
    exact item_of_flatten (length_converterItems s) 2 rfl rfl rfl
  rw [byteAt_of_item item, BitVec.getLsbD_ofNat, testBit_bitsOf, decide_eq_true u.isLt, Bool.true_and]
  revert u
  simp [allUnits, Fin.forall_fin_succ]

/-- A unit's last converter is reported in its byte (R96). -/
theorem convertersBody_last (s : State) (u : UnitNo) :
    byteAt s.convertersBody (23 + u) = BitVec.ofNat 8 (((s.unit u).lastConverter.map Fin.val).getD 0) := by
  have item : (s.convertersBody.drop 23).take 8 =
      allUnits.flatMap fun u => optBytes 1 ((s.unit u).lastConverter.map Fin.val) := by
    rw [convertersBody_eq]
    exact item_of_flatten (length_converterItems s) 3 rfl rfl rfl
  rw [← byteAt_drop_take _ 23 u.isLt, item]
  match u with
  | 0 | 1 | 2 | 3 | 4 | 5 | 6 | 7 => rfl

theorem convertersBody_queue (s : State) :
    s.convertersBody.drop 31 = beBytes 1 s.startQueue.length ++ s.startQueue.flatMap fun e => beBytes 2 e.handle := by
  have rest : s.converterItems.flatten.drop 31 = _ := rest_of_flatten (length_converterItems s) 4 rfl
  rw [convertersBody_eq, rest]
  simp [State.converterItems, handleList, List.flatMap_map]

/-- The 11 bytes of a converter (Table 12-8). -/
theorem converterStatusBytes_items (x : Converter) :
    x.statusBytes.take 3 = beBytes 1 x.state.code ++ boolByte x.faultLine ++ boolByte x.outRequest ∧
    (∀ h u n, x.state = .running h u n → x.statusBytes.drop 3 = [3] ++ beBytes 2 h ++ beBytes 1 u ++ beBytes 2 n ++ [0, 0]) ∧
    (∀ n, x.state = .cooling n → x.statusBytes.drop 3 = [4, 0, 0, 0, 0, 0] ++ beBytes 2 n) ∧
    (x.state = .free ∨ x.state = .out → x.statusBytes.drop 3 = List.replicate 8 0) := by
  have rest : x.statusBytes.drop 3 = x.runBytes := by
    rw [converterStatusBytes_eq]; exact List.drop_left' (by simp [boolByte])
  rw [rest]
  refine ⟨?_, fun h u n running => ?_, fun n cooling => ?_, fun still => ?_⟩
  · rw [converterStatusBytes_eq]; exact List.take_left' (by simp [boolByte])
  · rw [Converter.runBytes, running]
  · rw [Converter.runBytes, cooling]
  · rcases still with free | out
    · rw [Converter.runBytes, free]
    · rw [Converter.runBytes, out]

/-! ## GAUGE_STATUS (R162) -/

def Gauge.flags (x : Gauge) : List Bool :=
  [x.level.isSome, x.high, x.low, x.lastBad.isSome, x.lastTelegram.isSome, (x.lastTelegram.map (·.2)).getD false]

/-- What a gauge has read: 12 bytes. -/
def Gauge.readings (x : Gauge) : List Byte :=
  optBytes 4 x.level ++ beBytes 1 x.goodRun ++ beBytes 1 x.badRun ++ beBytes 1 x.silence ++
    optBytes 1 (x.lastBad.map BadReason.code) ++ optBytes 4 (x.lastTelegram.map (·.1))

/-- A gauge's settings: 14 bytes. -/
def Gauge.settings (x : Gauge) : List Byte :=
  beBytes 4 x.highLimit ++ beBytes 4 x.lowLimit ++ beBytes 2 x.hysteresis ++ beBytes 2 x.jumpLimit ++ beBytes 2 x.silenceLimit

/-- Which end of a waterway a gauge is (R150). -/
def State.gaugeEnds (s : State) (g : GaugeNo) (w : WaterwayNo) : List Bool := [(s.waterway w).upper == g, (s.waterway w).lower == g]

def State.gaugeItems (s : State) (g : GaugeNo) : List (List Byte) :=
  [beBytes 1 (s.gauge g).state.code, beBytes 1 (bitsOf (s.gauge g).flags), (s.gauge g).readings, (s.gauge g).settings,
    beBytes 1 (bitsOf (s.gaugeEnds g 0)), beBytes 1 (bitsOf (s.gaugeEnds g 1))]

theorem gaugeBody_eq (s : State) (g : GaugeNo) : s.gaugeBody g = (s.gaugeItems g).flatten := by
  simp [State.gaugeBody, State.gaugeItems, Gauge.flags, Gauge.readings, Gauge.settings, State.gaugeEnds, allWaterways]

theorem length_gaugeItems (s : State) (g : GaugeNo) : (s.gaugeItems g).map List.length = [1, 1, 12, 14, 1, 1] := by
  simp [State.gaugeItems, Gauge.readings, Gauge.settings]

/-- The items of GAUGE_STATUS (Table 12-8). -/
theorem gaugeBody_items (s : State) (g : GaugeNo) :
    (s.gaugeBody g).length = 30 ∧ (s.gaugeBody g).take 1 = beBytes 1 (s.gauge g).state.code ∧
    ((s.gaugeBody g).drop 1).take 1 = beBytes 1 (bitsOf (s.gauge g).flags) ∧
    ((s.gaugeBody g).drop 2).take 12 = (s.gauge g).readings ∧ ((s.gaugeBody g).drop 14).take 14 = (s.gauge g).settings ∧
    ∀ w : WaterwayNo, ((s.gaugeBody g).drop (28 + w)).take 1 = beBytes 1 (bitsOf (s.gaugeEnds g w)) := by
  have sizes := length_gaugeItems s g
  rw [gaugeBody_eq]
  refine ⟨length_of_flatten sizes, item_of_flatten sizes 0 rfl rfl rfl,
    item_of_flatten sizes 1 rfl rfl rfl, item_of_flatten sizes 2 rfl rfl rfl,
    item_of_flatten sizes 3 rfl rfl rfl, fun w => ?_⟩
  match w with
  | 0 => exact item_of_flatten sizes 4 rfl rfl rfl
  | 1 => exact item_of_flatten sizes 5 rfl rfl rfl

/-! ## WATERWAY_STATUS (R125) -/

/-- The settings, figures and plan of a waterway: 26 bytes. -/
def State.waterwayHead (s : State) (w : WaterwayNo) : List Byte :=
  boolByte (s.waterway w).configured ++ beBytes 4 (s.waterway w).hAdm ++ beBytes 2 (s.waterway w).qgLim ++
    beBytes 2 (s.waterway w).qpLim ++ beBytes 2 (s.waterway w).allowance ++ beBytes 2 (s.waterway w).spacingTime ++
    beBytes 4 (s.waterway w).liveHead ++ boolByte (s.waterway w).headLow ++ beSigned 4 (s.waterway w).netFlow ++
    beSigned 4 (s.plan w s.plantTime)

def Waterway.flags (x : Waterway) : List Bool :=
  [x.pumpInhibit, x.genInhibit, x.excessUnresolved, x.pumpExcess, x.spacing.isSome]

/-- The orders that the Ramp Controller of a waterway holds, with their units and setpoints (R113, log entry 25). -/
def State.heldOrders (s : State) (w : WaterwayNo) : List (UnitNo × Handle × Order × Nat) :=
  (s.unitsOf w).filterMap fun u => (s.heldOrder u).map fun o => (u, o)

def State.waterwayItems (s : State) (w : WaterwayNo) : List (List Byte) :=
  [s.waterwayHead w, beBytes 1 (bitsOf (s.waterway w).flags), beBytes 1 (if (s.waterway w).spacing.isSome then 1 else 0),
    optBytes 2 (s.waterway w).spacing ++ beBytes 1 (s.waterway w).queue.length,
    (s.waterway w).queue.flatMap GateEntry.statusBytes ++ beBytes 1 (s.waterway w).pointer ++
      beBytes 1 (s.heldOrders w).length ++ (s.heldOrders w).flatMap fun p => s.rampBytes p.1 p.2]

theorem waterwayBody_eq (s : State) (w : WaterwayNo) : s.waterwayBody w = (s.waterwayItems w).flatten := by
  simp [State.waterwayBody, State.waterwayItems, State.waterwayHead, Waterway.flags, State.heldOrders]

theorem length_waterwayItems (s : State) (w : WaterwayNo) :
    (s.waterwayItems w).map List.length = [26, 1, 1, 3, ((s.waterwayItems w).getD 4 []).length] := by
  simp [State.waterwayItems, State.waterwayHead, boolByte]

/-- The items of WATERWAY_STATUS before the queue (Table 12-8). -/
theorem waterwayBody_items (s : State) (w : WaterwayNo) :
    (s.waterwayBody w).take 26 = s.waterwayHead w ∧
    ((s.waterwayBody w).drop 26).take 1 = beBytes 1 (bitsOf (s.waterway w).flags) ∧
    ((s.waterwayBody w).drop 27).take 1 = beBytes 1 (if (s.waterway w).spacing.isSome then 1 else 0) ∧
    ((s.waterwayBody w).drop 28).take 3 = optBytes 2 (s.waterway w).spacing ++ beBytes 1 (s.waterway w).queue.length := by
  have sizes := length_waterwayItems s w
  rw [waterwayBody_eq]
  exact ⟨item_of_flatten sizes 0 rfl rfl rfl, item_of_flatten sizes 1 rfl rfl rfl,
    item_of_flatten sizes 2 rfl rfl rfl, item_of_flatten sizes 3 rfl rfl rfl⟩

/-- The queue of the gate and the orders held stand behind them (Table 12-8). -/
theorem waterwayBody_queue (s : State) (w : WaterwayNo) : (s.waterwayBody w).drop 31 =
    (s.waterway w).queue.flatMap GateEntry.statusBytes ++ beBytes 1 (s.waterway w).pointer ++
      beBytes 1 (s.heldOrders w).length ++ (s.heldOrders w).flatMap fun p => s.rampBytes p.1 p.2 := by
  rw [waterwayBody_eq]
  exact (rest_of_flatten (length_waterwayItems s w) 4 rfl).trans (List.append_nil _)

theorem gateEntryStatusBytes_eq :
    GateEntry.statusBytes = fun e => (if e.kind = .start then (0 : Byte) else 1) :: beBytes 2 e.handle := by
  funext e
  unfold GateEntry.statusBytes
  cases e.kind <;> rfl

/-- The order a Ramp Controller holds for a unit is its engaged GENERATE order, once it has a setpoint (R113). -/
theorem heldOrder_eq_some {s : State} {u : UnitNo} {h : Handle} {r : Order} {p : Nat} :
    s.heldOrder u = some (h, r, p) ↔ s.engagedOrder u = some (h, r) ∧ r.mode = .generate ∧ (s.unit u).setpoint = some p := by
  unfold State.heldOrder
  split
  · rename_i h' r' p' engaged setpoint
    rw [engaged, setpoint]
    by_cases generates : r'.mode = .generate
    · simp only [generates, if_true, Option.some.injEq, Prod.mk.injEq]
      exact ⟨fun ⟨eh, er, ep⟩ => ⟨⟨eh, er⟩, er ▸ generates, ep⟩, fun ⟨⟨eh, er⟩, _, ep⟩ => ⟨eh, er, ep⟩⟩
    · simp only [generates, if_false, Option.some.injEq, Prod.mk.injEq]
      exact ⟨nofun, fun ⟨⟨_, er⟩, mode, _⟩ => absurd (er ▸ mode) generates⟩
  · rename_i lacking
    exact ⟨nofun, fun ⟨engaged, _, setpoint⟩ => absurd setpoint (lacking h r p engaged)⟩

theorem mem_heldOrders {s : State} {w : WaterwayNo} {u : UnitNo} {h : Handle} {r : Order} {p : Nat} :
    (u, h, r, p) ∈ s.heldOrders w ↔ (s.unit u).waterway = w ∧ s.engagedOrder u = some (h, r) ∧ r.mode = .generate ∧
      (s.unit u).setpoint = some p := by
  have all : u ∈ allUnits := by revert u; decide
  rw [← heldOrder_eq_some]
  simp [State.heldOrders, State.unitsOf, all]

theorem heldOrders_increase (s : State) (w : WaterwayNo) : (s.heldOrders w).Pairwise fun a b => a.1 < b.1 := by
  have units : (s.unitsOf w).Pairwise (· < ·) := List.Pairwise.filter _ (by decide)
  refine List.pairwise_filterMap.2 (units.imp fun {u v} lt x hx y hy => ?_)
  obtain ⟨_, -, rfl⟩ := Option.map_eq_some_iff.1 hx
  obtain ⟨_, -, rfl⟩ := Option.map_eq_some_iff.1 hy
  exact lt

/-! ## UNIT_STATUS (R150) -/

/-- Two absent items of two bytes each are zeros (12.1). -/
theorem optBytes_none_append : optBytes 2 none ++ optBytes 2 none = [0, 0, 0, 0] := rfl

/-- The figures of a capability record and its power table, or zeros: 51 bytes. -/
def capabilityFigures : Option Capability → List Byte
  | some c =>
    beBytes 1 c.modes.toNat ++ beBytes 4 c.href ++ beBytes 2 c.pmin ++ beBytes 2 c.pmax ++ beBytes 2 c.genStart ++
      beBytes 2 c.pumpStart ++ beBytes 2 c.genStop ++ beBytes 2 c.pumpStop ++ beBytes 2 c.dwell ++
      (List.finRange 8).flatMap fun i => beBytes 2 c.powers[i] ++ beBytes 2 c.flows[i]
  | none => beBytes 51 0

theorem capabilityBytes_eq (c : Option Capability) :
    capabilityBytes c = capabilityFigures c ++ pumpBytes (c.bind (·.pump)) := by
  cases c with
  | none =>
    change beBytes 115 0 = beBytes 51 0 ++ beBytes 64 0
    rw [beBytes_zero, beBytes_zero, beBytes_zero, List.replicate_append_replicate]
  | some c => rfl

theorem length_capabilityFigures (c : Option Capability) : (capabilityFigures c).length = 51 := by
  cases c with
  | none => exact length_beBytes _ _
  | some c => simp [capabilityFigures, length_finRange_flatMap (n := 4)]

theorem length_pumpBytes (t : Option PumpTable) : (pumpBytes t).length = 64 := by
  cases t with
  | none => exact length_beBytes _ _
  | some t => exact length_finRange_flatMap (n := 8) fun i => by simp

theorem length_reportBytes (l : Link) : l.reportBytes.length = 5 := by
  unfold Link.reportBytes; split <;> simp

/-- The last report of a link, with whether it stands since the link came UP (R150). -/
theorem reportBytes_some {l : Link} {r : Report} (h : l.lastReport = some r) : l.reportBytes =
    beBytes 1 (if l.sinceUp = true then 3 else 1) ++ beBytes 1 (MachineState.code r.state) ++ beSigned 2 r.power ++
      beBytes 1 (ControlPlace.code r.place) := by
  unfold Link.reportBytes
  rw [h]
  cases l.sinceUp <;> simp [bitsOf]

theorem reportBytes_none {l : Link} (h : l.lastReport = none) : l.reportBytes = List.replicate 5 0 := by
  unfold Link.reportBytes; rw [h]; rfl

/-- What a unit reports of its context and its link: 5 bytes. -/
def UnitBlock.statusHead (b : UnitBlock) : List Byte :=
  beBytes 1 b.context.code ++ boolByte b.isolated ++ beBytes 1 b.waterway ++ beBytes 1 b.eligible.toNat ++
    beBytes 1 b.link.state.code

/-- The pump table that a unit's capability record offers. -/
def UnitBlock.pumpTable (b : UnitBlock) : Option PumpTable := b.link.current.bind (·.pump)

/-- Which parts of a capability record a unit's link has. -/
def UnitBlock.recordFlags (b : UnitBlock) : List Bool :=
  [b.link.current.isSome, b.link.pendingExchange, b.pumpTable.isSome]

def UnitBlock.flowFlags (b : UnitBlock) : List Bool :=
  [b.context == .dark, b.saturated, b.headOutside, b.pumpTable.isSome]

/-- The pump flow and power at a head, or zeros: 4 bytes (R27). -/
def UnitBlock.pumpFigures (b : UnitBlock) (head : Nat) : List Byte :=
  optBytes 2 (b.pumpTable.map fun t => t.pumpFlow head) ++ optBytes 2 (b.pumpTable.map fun t => t.pumpPower head)

/-- The phase of a unit's engaged order, where it has one. -/
def State.engagedPhase (s : State) (u : UnitNo) : Option Nat := (s.engagedOrder u).bind fun p => p.2.life.phaseCode

/-- Whether a unit's engaged order is in GENERATE mode. -/
def State.generates (s : State) (u : UnitNo) : Bool := (s.engagedOrder u).any fun p => p.2.mode == .generate

/-- A setpoint as a unit reports it: of an engaged GENERATE order alone (R150). -/
def State.reportedOf (s : State) (u : UnitNo) (p : Option Nat) : Option Nat := if s.generates u then p else none

def State.orderFlags (s : State) (u : UnitNo) : List Bool :=
  [(s.engagedOrder u).isSome, (s.engagedPhase u).isSome, (s.unit u).supervision.isSome,
    (s.reportedOf u (s.unit u).setpoint).isSome, (s.reportedOf u (s.unit u).pendingSetpoint).isSome,
    s.generates u && (s.unit u).link.silent]

def State.unitItems (s : State) (u : UnitNo) : List (List Byte) :=
  [(s.unit u).statusHead, (s.unit u).link.reportBytes, beBytes 1 (bitsOf (s.unit u).recordFlags),
    capabilityFigures (s.unit u).link.current, pumpBytes (s.unit u).pumpTable,
    beSigned 2 (s.unit u).contribution, beBytes 1 (bitsOf (s.unit u).flowFlags), (s.unit u).pumpFigures (s.headFor u),
    beBytes 1 (bitsOf (s.orderFlags u)), optBytes 2 ((s.engagedOrder u).map (·.1)), optBytes 1 (s.engagedPhase u),
    optBytes 2 (s.unit u).supervision,
    optBytes 2 (s.reportedOf u (s.unit u).setpoint) ++ optBytes 2 (s.reportedOf u (s.unit u).pendingSetpoint)]

theorem unitBody_eq (s : State) (u : UnitNo) : s.unitBody u = (s.unitItems u).flatten := by
  simp only [State.unitBody, State.flowBytes, State.orderBytes, capabilityBytes_eq, State.unitItems, UnitBlock.statusHead,
    UnitBlock.recordFlags, UnitBlock.flowFlags, UnitBlock.pumpFigures, UnitBlock.pumpTable, State.orderFlags, State.engagedPhase,
    State.reportedOf, State.generates, State.isHeld, List.flatten_cons, List.flatten_nil, List.append_nil, List.append_assoc]
  rfl

theorem length_unitItems (s : State) (u : UnitNo) :
    (s.unitItems u).map List.length = [5, 5, 1, 51, 64, 2, 1, 4, 1, 2, 1, 2, 4] := by
  simp [State.unitItems, UnitBlock.statusHead, boolByte, length_reportBytes, length_capabilityFigures, length_pumpBytes,
    UnitBlock.pumpFigures]

/-- The items of UNIT_STATUS on the unit, its link and its capability record (Table 12-8). -/
theorem unitBody_linkItems (s : State) (u : UnitNo) :
    (s.unitBody u).take 5 = (s.unit u).statusHead ∧ ((s.unitBody u).drop 5).take 5 = (s.unit u).link.reportBytes ∧
    ((s.unitBody u).drop 10).take 1 = beBytes 1 (bitsOf (s.unit u).recordFlags) ∧
    ((s.unitBody u).drop 11).take 115 = capabilityBytes (s.unit u).link.current ∧
    ((s.unitBody u).drop 11).take 51 = capabilityFigures (s.unit u).link.current ∧
    ((s.unitBody u).drop 62).take 64 = pumpBytes (s.unit u).pumpTable := by
  have sizes := length_unitItems s u
  rw [unitBody_eq, capabilityBytes_eq]
  refine ⟨item_of_flatten sizes 0 rfl rfl rfl, item_of_flatten sizes 1 rfl rfl rfl, item_of_flatten sizes 2 rfl rfl rfl, ?_,
    item_of_flatten sizes 3 rfl rfl rfl, item_of_flatten sizes 4 rfl rfl rfl⟩
  exact (items_of_flatten sizes 3 2 rfl rfl).trans (congrArg _ (List.append_nil _))

/-- The items of UNIT_STATUS on the flow and on the engaged order (Table 12-8). -/
theorem unitBody_orderItems (s : State) (u : UnitNo) :
    ((s.unitBody u).drop 126).take 2 = beSigned 2 (s.unit u).contribution ∧
    ((s.unitBody u).drop 128).take 1 = beBytes 1 (bitsOf (s.unit u).flowFlags) ∧
    ((s.unitBody u).drop 129).take 4 = (s.unit u).pumpFigures (s.headFor u) ∧
    ((s.unitBody u).drop 133).take 1 = beBytes 1 (bitsOf (s.orderFlags u)) ∧
    ((s.unitBody u).drop 134).take 2 = optBytes 2 ((s.engagedOrder u).map (·.1)) ∧
    ((s.unitBody u).drop 136).take 1 = optBytes 1 (s.engagedPhase u) ∧
    ((s.unitBody u).drop 137).take 2 = optBytes 2 (s.unit u).supervision ∧
    (s.unitBody u).drop 139 =
      optBytes 2 (s.reportedOf u (s.unit u).setpoint) ++ optBytes 2 (s.reportedOf u (s.unit u).pendingSetpoint) := by
  have sizes := length_unitItems s u
  rw [unitBody_eq]
  exact ⟨item_of_flatten sizes 5 rfl rfl rfl, item_of_flatten sizes 6 rfl rfl rfl, item_of_flatten sizes 7 rfl rfl rfl,
    item_of_flatten sizes 8 rfl rfl rfl, item_of_flatten sizes 9 rfl rfl rfl, item_of_flatten sizes 10 rfl rfl rfl,
    item_of_flatten sizes 11 rfl rfl rfl, (rest_of_flatten sizes 12 rfl).trans (List.append_nil _)⟩

theorem length_unitBody (s : State) (u : UnitNo) : (s.unitBody u).length = 143 := by
  rw [unitBody_eq]; exact length_of_flatten (length_unitItems s u)

theorem generates_iff (s : State) (u : UnitNo) :
    s.generates u = true ↔ ∃ h r, s.engagedOrder u = some (h, r) ∧ r.mode = .generate := by
  simp [State.generates, Option.any_eq_true]

theorem isSome_reportedOf (s : State) (u : UnitNo) (p : Option Nat) :
    (s.reportedOf u p).isSome = (s.generates u && p.isSome) := by
  unfold State.reportedOf; cases s.generates u <;> rfl

/-! ## The requests -/

/-- CONVERTER_STATUS reports both converters, the last converter of each unit and the start queue (R104). -/
theorem converterStatus_reports (s : State) (tag : Byte) :
    ∃ out : List Byte, exec (.converterStatus tag []) s = .next (s.answered 12 tag 5 .ok out s.taken) ∧
      (∀ c : ConverterNo, (out.drop (11 * c)).take 11 = (s.converter c).statusBytes) ∧
      (∀ u : UnitNo, (byteAt out 22).getLsbD u = (s.unit u).lastConverter.isSome ∧
        byteAt out (23 + u) = BitVec.ofNat 8 (((s.unit u).lastConverter.map Fin.val).getD 0)) ∧
      out.drop 31 = beBytes 1 s.startQueue.length ++ s.startQueue.flatMap fun e => beBytes 2 e.handle :=
  ⟨s.convertersBody, exec_converterStatus, convertersBody_converter s,
    fun u => ⟨convertersBody_hasLast s u, convertersBody_last s u⟩, convertersBody_queue s⟩

section
variable {s : State} {tag : Byte} {body : List Byte} (length : body.length = 1)
include length

/-- An object number in range is answered with what the object reports, and the state is as it was (R176). -/
theorem exec_waterwayStatus_ok {w : WaterwayNo} (named : byteAt body 0 = BitVec.ofNat 8 w) :
    exec (.waterwayStatus tag body) s = .next (s.answered 13 tag 6 .ok (s.waterwayBody w) s.taken) := by
  rw [exec_waterwayStatus length, named, waterwayOf_some]; rfl

theorem exec_unitStatus_ok {u : UnitNo} (named : byteAt body 0 = BitVec.ofNat 8 u) :
    exec (.unitStatus tag body) s = .next (s.answered 14 tag 6 .ok (s.unitBody u) s.taken) := by
  rw [exec_unitStatus length, named, unitOf_some]; rfl

theorem exec_gaugeStatus_ok {g : GaugeNo} (named : byteAt body 0 = BitVec.ofNat 8 g) :
    exec (.gaugeStatus tag body) s = .next (s.answered 17 tag 6 .ok (s.gaugeBody g) s.taken) := by
  rw [exec_gaugeStatus length, named, gaugeOf_some]; rfl

end

/-- Settles O15: each body is cut at its items, and each item is read as the model writes it. -/
theorem statusRequestsReport : Obligations.StatusRequestsReport := by
  intro s tag
  obtain ⟨converters, answer, items, last, queue⟩ := converterStatus_reports s tag
  refine ⟨⟨converters, answer, fun c => ⟨_, items c, converterStatusBytes_items _⟩, last, queue⟩, fun body length =>
    ⟨fun w named => ?_, fun u b named block => ?_, fun g x named gauge => ?_, fun high => ?_, fun high => ?_, fun high => ?_⟩⟩
  case refine_1 =>
    obtain ⟨head, flags, gate, spacing⟩ := waterwayBody_items s w
    refine ⟨_, exec_waterwayStatus_ok length named, head, bits_of_item flags, ?_, spacing, s.heldOrders w,
      heldOrders_increase s w, fun u h r p => mem_heldOrders, ?_⟩
    · rw [byteAt_of_item gate]
      cases (s.waterway w).spacing <;> rfl
    · rw [waterwayBody_queue, gateEntryStatusBytes_eq]; rfl
  case refine_2 =>
    obtain ⟨head, report, record, capability, figures, table⟩ := unitBody_linkItems s u
    obtain ⟨flow, flowFlags, pump, orderFlags, handle, phase, supervision, setpoints⟩ := unitBody_orderItems s u
    subst block
    refine ⟨_, exec_unitStatus_ok length named, length_unitBody s u, head, fun r last => ?_, fun lacking => ?_,
      bits_of_item record, fun lacking => ?_, fun c current => ⟨?_, fun lacking => ?_, fun x offered => ?_⟩, flow,
      bits_of_item flowFlags, ?_, s.generates u, generates_iff s u, ?_, handle, phase, supervision, ?_⟩
    · rw [report, reportBytes_some last]
    · rw [report, reportBytes_none lacking]
    · rw [capability, lacking]; exact beBytes_zero 115
    · rw [figures, current]; rfl
    · rw [table, UnitBlock.pumpTable, current, Option.bind_some, lacking]; exact beBytes_zero 64
    · rw [table, UnitBlock.pumpTable, current, Option.bind_some, offered]; rfl
    · rw [pump, UnitBlock.pumpFigures, UnitBlock.pumpTable]
      cases (s.unit u).link.current.bind (·.pump) with
      | none => exact optBytes_none_append
      | some x => rfl
    · rw [bits_of_item orderFlags, State.orderFlags, isSome_reportedOf, isSome_reportedOf]; rfl
    · rw [setpoints, State.reportedOf, State.reportedOf]
      cases s.generates u with
      | false => exact optBytes_none_append
      | true => rfl
  case refine_3 =>
    obtain ⟨size, state, flags, readings, settings, ends⟩ := gaugeBody_items s g
    subst gauge
    exact ⟨_, exec_gaugeStatus_ok length named, size, state, bits_of_item flags, readings, settings,
      fun w => bits_of_item (ends w)⟩
  case refine_4 => rw [exec_waterwayStatus length, waterwayOf_none high]; rfl
  case refine_5 => rw [exec_unitStatus length, unitOf_none high]; rfl
  case refine_6 => rw [exec_gaugeStatus length, gaugeOf_none high]; rfl

end Sys2Proof.Machine
end

section
/-! # Rules of the Ramp Controllers: steps that fit, a lone engaged order, setpoints set while the gate grants nothing (R107 to R122) -/

namespace Sys2Proof.Machine

/-! ## The step of an order (R117, R119) -/

/-- The step taken is the largest of those allowed, and 0 when none is (R117). -/
theorem largestStep_spec (allowed : Nat → Bool) (d : Nat) : largestStep allowed d ≤ d ∧
    (0 < largestStep allowed d → allowed (largestStep allowed d) = true) ∧
    ∀ j, largestStep allowed d < j → j ≤ d → allowed j = false := by
  induction d with
  | zero => exact ⟨Nat.le_refl 0, nofun, fun j above within => by simp [largestStep] at above; omega⟩
  | succ d ih =>
    obtain ⟨within, fits, largest⟩ := ih
    unfold largestStep
    split
    · next allowedNow => exact ⟨le_rfl, fun _ => allowedNow, fun j above within => by omega⟩
    · next barred =>
      refine ⟨by omega, fits, fun j above within => ?_⟩
      rcases Nat.lt_or_eq_of_le within with less | same
      · exact largest j above (by omega)
      · rw [same]; simpa using barred

/-- The curtailing step is the smallest that covers the excess, or the last candidate (R119). -/
theorem smallestCovering_spec (reduction : Nat → Nat) (excess : Int) (n k : Nat) :
    k ≤ smallestCovering reduction excess n k ∧ smallestCovering reduction excess n k ≤ k + n ∧
    (∀ j, k ≤ j → j < smallestCovering reduction excess n k → reduction j < excess) ∧
    (excess ≤ reduction (smallestCovering reduction excess n k) ∨ smallestCovering reduction excess n k = k + n) := by
  induction n generalizing k with
  | zero => exact ⟨le_rfl, le_rfl, fun j above below => absurd (lt_of_le_of_lt above below) (lt_irrefl k), .inr rfl⟩
  | succ n ih =>
    obtain ⟨atLeast, within, smaller, covers⟩ := ih (k + 1)
    unfold smallestCovering
    split
    · next now => exact ⟨le_rfl, by omega, fun j above below => by omega, .inl now⟩
    · next short =>
      refine ⟨by omega, by omega, fun j above below => ?_, covers.imp_right fun last => by omega⟩
      rcases Nat.eq_or_lt_of_le above with same | later
      · rw [← same]; omega
      · exact smaller j later below

/-- The curtailing step of an order above Pmin (R119). -/
theorem curtailStep_spec {s : State} {u : UnitNo} {p ramp : Nat} (above : s.capTime u (·.pmin) < p) (rate : 1 ≤ ramp) (excess : Int) :
    1 ≤ s.curtailStep u p ramp excess ∧ s.curtailStep u p ramp excess ≤ min ramp (p - s.capTime u (·.pmin)) ∧
    (∀ j, 1 ≤ j → j < s.curtailStep u p ramp excess → s.flowChange u (p - j) p < excess) ∧
    (excess ≤ s.flowChange u (p - s.curtailStep u p ramp excess) p ∨
      s.curtailStep u p ramp excess = min ramp (p - s.capTime u (·.pmin))) := by
  obtain ⟨atLeast, within, smaller, covers⟩ := smallestCovering_spec (fun d => s.flowChange u (p - d) p) excess
    (min ramp (p - s.capTime u (·.pmin)) - 1) 1
  have last : 1 + (min ramp (p - s.capTime u (·.pmin)) - 1) = min ramp (p - s.capTime u (·.pmin)) := by omega
  rw [last] at within covers
  exact ⟨atLeast, within, smaller, covers⟩

/-! ## Walks in which one unit alone takes a step -/

theorem foldl_still {σ α : Type} {f : σ → α → σ} {l : List α} {x : σ} (still : ∀ a ∈ l, f x a = x) : l.foldl f x = x := by
  induction l with
  | nil => rfl
  | cons a l ih =>
    rw [List.foldl_cons, still a (by simp)]
    exact ih fun b member => still b (by simp [member])

/-- A walk in which every other element takes no step, before and after, is the step of the one. -/
theorem foldl_single {σ α : Type} {f : σ → α → σ} {l : List α} {x : σ} {a : α} (once : l.Nodup) (member : a ∈ l)
    (before : ∀ b, b ≠ a → f x b = x) (after : ∀ b, b ≠ a → f (f x a) b = f x a) : l.foldl f x = f x a := by
  obtain ⟨earlier, later, split⟩ := List.append_of_mem member
  subst split
  obtain ⟨-, rest, apart⟩ := List.nodup_append.1 once
  rw [List.foldl_append, foldl_still fun b hb => before b (apart b hb a (by simp)), List.foldl_cons,
    foldl_still fun b hb => after b fun same => (List.nodup_cons.1 rest).1 (same ▸ hb)]

theorem nodup_unitsOf (s : State) (w : WaterwayNo) : (s.unitsOf w).Nodup := List.Nodup.filter _ (by decide)

theorem mem_unitsOf {s : State} {w : WaterwayNo} {u : UnitNo} : u ∈ s.unitsOf w ↔ (s.unit u).waterway = w := by
  have every : u ∈ allUnits := by revert u; decide
  simp [State.unitsOf, every]

/-- The walk of R116 visits each unit once. -/
theorem rotation_perm (us : List UnitNo) (pointer : UnitNo) : (rotation us pointer).Perm us := by
  have below : (fun u : UnitNo => decide (u < pointer)) = fun u => !decide (pointer ≤ u) := by
    funext u; rw [← decide_not]; exact decide_eq_decide.2 not_le.symm
  unfold rotation
  rw [below]
  exact List.filter_append_perm _ us

/-! ## The orders that a Ramp Controller steps (R113) -/

/-- The order is the only engaged one of the part. -/
structure State.OnlyEngaged (s : State) (h : Handle) (r : Order) : Prop where
  record : s.order? h = some r
  engaged : r.life.engaged = true
  only : ∀ k q, s.order? k = some q → q.life.engaged = true → k = h

section
variable {s : State} {u : UnitNo}

theorem engagedOrder_none (none : ∀ k q, s.order? k = some q → q.unit = u → q.life.engaged = false) :
    s.engagedOrder u = Option.none := by
  cases found : s.engagedOrder u with
  | none => rfl
  | some x =>
    obtain ⟨hx, unit, engaged⟩ := engagedOrder_some (h := x.1) (r := x.2) found
    exact absurd engaged (by simp [none _ _ hx unit])

theorem rampOrder_none (none : s.engagedOrder u = Option.none) : s.rampOrder u = Option.none := by
  unfold State.rampOrder; rw [none]

theorem engagedOrder_of_rampOrder {h : Handle} {r : Order} {p : Nat} (found : s.rampOrder u = some (h, r, p)) :
    s.engagedOrder u = some (h, r) := by
  unfold State.rampOrder at found
  split at found
  · next engaged _ => split at found <;> cases found; exact engaged
  · cases found

theorem isUnloading_none (none : s.engagedOrder u = Option.none) : s.isUnloading u = false := by
  unfold State.isUnloading; rw [none]; rfl

/-- A unit with no order to step is passed by the walk and by curtailment (R116, R119). -/
theorem visit_none (none : s.rampOrder u = Option.none) (n : Nat) : State.visit (s, n) u = (s, n) := by
  unfold State.visit; dsimp only; rw [none]

theorem curtailUnit_none (none : s.rampOrder u = Option.none) (cls : DispatchClass) (excess : Int) :
    State.curtailUnit cls (s, excess) u = (s, excess) := by
  unfold State.curtailUnit; dsimp only; rw [none]

end

namespace State.OnlyEngaged

variable {s t : State} {h : Handle} {r : Order}

/-- A record that is changed but stays engaged. -/
theorem modOrder (lone : s.OnlyEngaged h r) {f : Order → Order} (engaged : (f r).life.engaged = true) :
    (s.modOrder h f).OnlyEngaged h (f r) where
  record := by simp [lone.record]
  engaged := engaged
  only k q hq live := by
    by_cases same : k = h
    · exact same
    · rw [order?_modOrder, if_neg same] at hq
      exact lone.only k q hq live

theorem congr (lone : s.OnlyEngaged h r) (table : ∀ k, t.order? k = s.order? k) : t.OnlyEngaged h r where
  record := (table h).trans lone.record
  engaged := lone.engaged
  only k q hq := lone.only k q ((table k).symm.trans hq)

variable (lone : s.OnlyEngaged h r)
include lone

theorem engagedOrder : s.engagedOrder r.unit = some (h, r) :=
  engagedOrder_iff.2 ⟨lone.record, rfl, lone.engaged, fun k q hq _ live => by rw [lone.only k q hq live]⟩

theorem engagedOrder_other {v : UnitNo} (other : v ≠ r.unit) : s.engagedOrder v = none :=
  engagedOrder_none fun k q hq unit => by
    by_contra live
    have same := lone.only k q hq (by simpa using live)
    subst same
    cases hq.symm.trans lone.record
    exact other unit.symm

theorem rampOrder_other {v : UnitNo} (other : v ≠ r.unit) : s.rampOrder v = none := rampOrder_none (lone.engagedOrder_other other)

theorem rampOrder {p : Nat} (running : r.life = .running) (generate : r.mode = .generate) (setpoint : (s.unit r.unit).setpoint = some p) :
    s.rampOrder r.unit = some (h, r, p) := by
  unfold State.rampOrder
  rw [lone.engagedOrder, setpoint]
  exact if_pos ⟨running, generate⟩

theorem rampOrder_stopping (stopping : r.life.isStopping = true) : s.rampOrder r.unit = none := by
  unfold State.rampOrder
  rw [lone.engagedOrder]
  cases (s.unit r.unit).setpoint with
  | none => rfl
  | some p => exact if_neg fun now => by rw [now.1] at stopping; cases stopping

theorem isUnloading : s.isUnloading r.unit = r.life.isUnloading := by
  unfold State.isUnloading; rw [lone.engagedOrder]; rfl

theorem isUnloading_running (running : r.life = .running) (v : UnitNo) : s.isUnloading v = false := by
  by_cases same : v = r.unit
  · rw [same, lone.isUnloading, running]; rfl
  · exact isUnloading_none (lone.engagedOrder_other same)

end State.OnlyEngaged

/-! ## Gates that grant nothing (R109) -/

/-- The gate has no grant to make: it is SPACING, or its queue is empty. -/
def State.GateRests (s : State) (w : WaterwayNo) : Prop := (s.waterway w).spacing.isSome = true ∨ (s.waterway w).queue = []

theorem gateOpportunity_rests {s : State} {w : WaterwayNo} (rests : s.GateRests w) : s.gateOpportunity w = s := by
  rcases rests with spaced | empty
  · exact gateOpportunity_spaced spaced
  · unfold State.gateOpportunity
    rw [empty]
    split
    · rfl
    · unfold List.length State.gateLoop State.firstAllowed
      rw [empty]

namespace State.OnlyFlows

variable {s t : State}

theorem rests (same : s.OnlyFlows t) {w : WaterwayNo} (rests : s.GateRests w) : t.GateRests w := by
  unfold State.GateRests; rw [same.spacing, same.queue]; exact rests

theorem refreshContribution (s : State) (u : UnitNo) : s.OnlyFlows (s.refreshContribution u) :=
  ⟨sameButFlow_refreshContribution s u, by unfold State.refreshContribution; split <;> rfl⟩

theorem refreshFlow (s : State) (w : WaterwayNo) : s.OnlyFlows (s.refreshFlow w) where
  order _ := rfl
  unit _ := ⟨_, _, rfl⟩
  waterway v := by
    unfold State.refreshFlow
    rw [waterway_modWaterway]
    split
    · next same => subst same; exact ⟨_, rfl⟩
    · exact ⟨_, rfl⟩
  latches := rfl
  linkOut := rfl
  frame := rfl

/-- A recomputed contribution grants nothing while the gate rests (R34, R36, R109). -/
theorem recompute_rests {u : UnitNo} (rests : s.GateRests (s.unit u).waterway) : s.OnlyFlows (s.recompute u) := by
  have fresh := refreshContribution s u
  unfold State.recompute State.updateFlow
  split
  · exact fresh
  · have flow := fresh.trans (refreshFlow _ (s.unit u).waterway)
    rw [gateOpportunity_rests (flow.rests rests)]
    exact flow

end State.OnlyFlows

/-! ## A setpoint set while the gate rests (R113, R114, R124) -/

/-- Beside what `SameButPower` tells, no record is new and the ceilings stand. -/
structure State.OnlyPower (s t : State) : Prop extends s.SameButPower t where
  blank : ∀ k, s.order? k = none → t.order? k = none
  ceiling : ∀ v, (t.unit v).ceiling = (s.unit v).ceiling

namespace State.OnlyPower

variable {s t v : State}

theorem refl (s : State) : s.OnlyPower s := ⟨.refl s, fun _ => id, fun _ => rfl⟩

theorem trans (a : s.OnlyPower t) (b : t.OnlyPower v) : s.OnlyPower v :=
  ⟨a.toSameButPower.trans b.toSameButPower, fun k none => b.blank k (a.blank k none), fun u => (b.ceiling u).trans (a.ceiling u)⟩

theorem modUnit (u : UnitNo) {f : UnitBlock → UnitBlock}
    (values : ∀ b, (f b).context = b.context ∧ (f b).waterway = b.waterway ∧ (f b).link = b.link)
    (stands : ∀ b, (f b).ceiling = b.ceiling) : s.OnlyPower (s.modUnit u f) := by
  refine ⟨.modUnit u values, fun _ => id, fun v => ?_⟩
  rw [unit_modUnit]
  split
  · next same => subst same; exact stands _
  · rfl

theorem markSaturated (s : State) (u : UnitNo) (saturates : Bool) : s.OnlyPower (s.markSaturated u saturates) := by
  unfold State.markSaturated
  split
  · exact .modUnit u (fun _ => ⟨rfl, rfl, rfl⟩) fun _ => rfl
  · exact refl s

theorem clearCurtailed (s : State) (u : UnitNo) (p : Nat) : s.OnlyPower (s.clearCurtailed u p) := by
  have cases : s.clearCurtailed u p = s ∨ ∃ h, s.clearCurtailed u p = s.modOrder h fun r => { r with curtailed := false } := by
    unfold State.clearCurtailed
    split
    · split <;> [exact .inr ⟨_, rfl⟩; exact .inl rfl]
    · exact .inl rfl
  refine ⟨.clearCurtailed s u p, ?_, ?_⟩ <;> rcases cases with same | ⟨h, changed⟩
  · rw [same]; exact fun _ => id
  · intro k none
    rw [changed, order?_modOrder]
    split
    · next own => rw [← own, none]; rfl
    · exact none
  · rw [same]; exact fun _ => rfl
  · rw [changed]; simp

theorem ofFlows (same : s.OnlyFlows t) : s.OnlyPower t where
  order k r hr := ⟨r.curtailed, (same.order k).trans hr⟩
  context := same.context
  home := same.home
  current v := by rw [same.link]
  waterway := same.waterway
  latches := same.latches
  named := same.named
  blank k none := (same.order k).trans none
  ceiling v := by obtain ⟨_, _, e⟩ := same.unit v; rw [e]

theorem ask (s : State) (u : UnitNo) (d : Directive) : s.OnlyPower (s.ask u d) :=
  ⟨.ask s u d, fun k none => by rw [ask_order?]; exact none, fun v => by obtain ⟨_, _, e, -⟩ := ask_unit s u d v; rw [e]⟩

variable (same : s.OnlyPower t)
include same

theorem rests {w : WaterwayNo} (rests : s.GateRests w) : t.GateRests w := by
  obtain ⟨_, e⟩ := same.waterway w
  unfold State.GateRests
  rw [e]
  exact rests

/-- The only engaged order stays so, with all its record but perhaps the curtailed flag. -/
theorem lone {h : Handle} {r : Order} (lone : s.OnlyEngaged h r) : ∃ c, t.OnlyEngaged h { r with curtailed := c } := by
  obtain ⟨c, record⟩ := same.order h r lone.record
  refine ⟨c, record, lone.engaged, fun k q hq live => ?_⟩
  cases found : s.order? k with
  | none => cases hq.symm.trans (same.blank k found)
  | some q' =>
    obtain ⟨_, changed⟩ := same.order k q' found
    cases hq.symm.trans changed
    exact lone.only k q' found live

end State.OnlyPower

/-- A setpoint set while the gate of its waterway rests stands in its unit (R113, R124). -/
theorem commitSetpoint_rests {s : State} {u : UnitNo} (p : Nat) (rests : s.GateRests (s.unit u).waterway) :
    s.OnlyPower (s.commitSetpoint u p) ∧ ((s.commitSetpoint u p).unit u).setpoint = some p := by
  let set := s.modUnit u fun b => { b with setpoint := some p }
  have cleared : s.OnlyPower (set.clearCurtailed u p) :=
    State.OnlyPower.trans (t := set) (.modUnit u (fun _ => ⟨rfl, rfl, rfl⟩) fun _ => rfl) (.clearCurtailed set u p)
  have flows : (set.clearCurtailed u p).OnlyFlows ((set.clearCurtailed u p).recompute u) :=
    .recompute_rests (by rw [cleared.home]; exact cleared.rests rests)
  have stands : ((set.clearCurtailed u p).unit u).setpoint = some p := by
    unfold State.clearCurtailed
    split
    · split <;> simp [set]
    · simp [set]
  exact ⟨(cleared.trans (.ofFlows flows)).trans (.ask _ u (.setPower p)),
    (ask_setpoint ..).trans ((flows.setpoint u).trans stands)⟩

/-! ## What a trial depends on (R39) -/

/-- The record of the unit and its live head give its trial flows and Pmin. -/
theorem headFor_congr {s t : State} {u : UnitNo} (home : (t.unit u).waterway = (s.unit u).waterway)
    (head : (t.waterway (s.unit u).waterway).liveHead = (s.waterway (s.unit u).waterway).liveHead) : t.headFor u = s.headFor u := by
  unfold State.headFor; rw [home, head]

theorem flowChange_congr {s t : State} {u : UnitNo} (current : (t.unit u).link.current = (s.unit u).link.current)
    (head : t.headFor u = s.headFor u) : t.flowChange u = s.flowChange u := by
  funext a b
  unfold State.flowChange State.trialFlow
  rw [current, head]

theorem capTime_congr {s t : State} {u : UnitNo} (current : (t.unit u).link.current = (s.unit u).link.current)
    (f : Capability → Nat) : t.capTime u f = s.capTime u f := by
  unfold State.capTime; rw [current]

/-- An order without a ceiling goes toward its target (R113). -/
theorem rampGoal_none {s : State} {u : UnitNo} {target : Nat} (free : (s.unit u).ceiling = none) : s.rampGoal u target = target := by
  unfold State.rampGoal; rw [free]; rfl

/-- An order with a ceiling goes toward the lower of both, where a ceiling below Pmin counts as Pmin (R113, R114, log entry 44). -/
theorem rampGoal_some {s : State} {u : UnitNo} {target c : Nat} (ceiling : (s.unit u).ceiling = some c) :
    s.rampGoal u target = min target (max (s.capTime u (·.pmin)) c) := by
  unfold State.rampGoal; rw [ceiling]; rfl

/-! ## The parts of a ramp period (R115) -/

/-- The first of the five steps: curtailment above the limit, and the removal of ceilings within it (R115, R119, R120). -/
def State.judgeLimit (s : State) (w : WaterwayNo) : State :=
  if ((s.waterway w).qgLim : Int) < (s.waterway w).netFlow then s.curtail w else s.removeCeilings w

theorem rampPeriod_eq (s : State) (w : WaterwayNo) :
    s.rampPeriod w = (((s.judgeLimit w).walk w).unload w).judgePumpExcess w := rfl

/-- With no order unloading there is nothing to do in the fourth step (R122). -/
theorem unload_none {s : State} (none : ∀ u, s.isUnloading u = false) (w : WaterwayNo) : s.unload w = s := by
  have empty : (s.unitsOf w).filter s.isUnloading = [] := List.filter_eq_nil_iff.2 fun u _ => by simp [none u]
  unfold State.unload
  rw [empty]
  rfl

section
variable (s : State) (w : WaterwayNo)

/-- The pump excess indication is an item of its waterway, and its event a latch (R121). -/
theorem judgePumpExcess_frame :
    s.judgePumpExcess w = { s with waterways := (s.judgePumpExcess w).waterways, latches := (s.judgePumpExcess w).latches } := by
  unfold State.judgePumpExcess; dsimp only; split <;> rfl

@[simp] theorem judgePumpExcess_order? (k : Handle) : (s.judgePumpExcess w).order? k = s.order? k := by rw [judgePumpExcess_frame]; rfl
@[simp] theorem judgePumpExcess_slots : (s.judgePumpExcess w).slots = s.slots := by rw [judgePumpExcess_frame]
@[simp] theorem judgePumpExcess_unit (u : UnitNo) : (s.judgePumpExcess w).unit u = s.unit u := by rw [judgePumpExcess_frame]; rfl
@[simp] theorem judgePumpExcess_linkOut : (s.judgePumpExcess w).linkOut = s.linkOut := by rw [judgePumpExcess_frame]
@[simp] theorem judgePumpExcess_waterway : (s.judgePumpExcess w).waterway w =
    { s.waterway w with pumpExcess := decide ((s.waterway w).netFlow < -((s.waterway w).qpLim : Int)) } := by
  unfold State.judgePumpExcess; dsimp only; split <;> simp
theorem judgePumpExcess_latched (e : EventKind) (set : s.latched e = true) : (s.judgePumpExcess w).latched e = true := by
  unfold State.judgePumpExcess; dsimp only; split <;> simp [set]

/-- The excess unresolved indication is an item of its waterway, and its event a latch (R121). -/
theorem setUnresolved_frame :
    s.setUnresolved w = { s with waterways := (s.setUnresolved w).waterways, latches := (s.setUnresolved w).latches } := by
  unfold State.setUnresolved; split <;> rfl

@[simp] theorem setUnresolved_order? (k : Handle) : (s.setUnresolved w).order? k = s.order? k := by rw [setUnresolved_frame]; rfl
@[simp] theorem setUnresolved_slots : (s.setUnresolved w).slots = s.slots := by rw [setUnresolved_frame]
@[simp] theorem setUnresolved_unit (u : UnitNo) : (s.setUnresolved w).unit u = s.unit u := by rw [setUnresolved_frame]; rfl
@[simp] theorem setUnresolved_linkOut : (s.setUnresolved w).linkOut = s.linkOut := by rw [setUnresolved_frame]
@[simp] theorem setUnresolved_waterway : (s.setUnresolved w).waterway w = { s.waterway w with excessUnresolved := true } := by
  unfold State.setUnresolved
  split
  · next already => rw [← already]
  · simp
theorem setUnresolved_latched (clear : (s.waterway w).excessUnresolved = false) : (s.setUnresolved w).latched .inhibitChange = true := by
  unfold State.setUnresolved; rw [clear]; simp

end

/-! ## The removal of ceilings (R120, R122) -/

section
variable (s : State) (us : List UnitNo)

theorem removeCeiling_frame (u : UnitNo) : s.removeCeiling u = { s with units := (s.removeCeiling u).units } := by
  unfold State.removeCeiling; split <;> rfl

theorem foldl_removeCeiling_frame :
    us.foldl State.removeCeiling s = { s with units := (us.foldl State.removeCeiling s).units } := by
  induction us generalizing s with
  | nil => rfl
  | cons u us ih => rw [List.foldl_cons, ih, removeCeiling_frame]

theorem foldl_removeCeiling_unit (v : UnitNo) : (us.foldl State.removeCeiling s).unit v =
    if v ∈ us ∧ s.isUnloading v = false then { s.unit v with ceiling := none } else s.unit v := by
  induction us generalizing s with
  | nil => simp
  | cons u us ih =>
    have alike : (s.removeCeiling u).isUnloading v = s.isUnloading v := by rw [removeCeiling_frame]; rfl
    rw [List.foldl_cons, ih, alike]
    rcases removeCeiling_eq s u with ⟨same, unloading⟩ | ⟨removed, other⟩
    · rw [same]
      by_cases own : v = u
      · subst own; simp [unloading]
      · simp [own]
    · rw [removed, unit_setUnit]
      by_cases own : u = v
      · subst own; simp [other]
      · simp [own, Ne.symm own]

variable (w : WaterwayNo)

theorem removeCeilings_frame : s.removeCeilings w =
    { s with units := (s.removeCeilings w).units, waterways := (s.removeCeilings w).waterways } := by
  unfold State.removeCeilings; rw [foldl_removeCeiling_frame]; rfl

@[simp] theorem removeCeilings_order? (k : Handle) : (s.removeCeilings w).order? k = s.order? k := by rw [removeCeilings_frame]; rfl
@[simp] theorem removeCeilings_slots : (s.removeCeilings w).slots = s.slots := by rw [removeCeilings_frame]
@[simp] theorem removeCeilings_linkOut : (s.removeCeilings w).linkOut = s.linkOut := by rw [removeCeilings_frame]

/-- The orders of the waterway lose their ceilings, but for those that unload (R120, R122). -/
theorem removeCeilings_unit (v : UnitNo) : (s.removeCeilings w).unit v =
    if (s.unit v).waterway = w ∧ s.isUnloading v = false then { s.unit v with ceiling := none } else s.unit v := by
  unfold State.removeCeilings
  rw [modWaterway_unit, foldl_removeCeiling_unit]
  simp only [mem_unitsOf]

@[simp] theorem removeCeilings_waterway : (s.removeCeilings w).waterway w = { s.waterway w with excessUnresolved := false } := by
  unfold State.removeCeilings
  rw [waterway_modWaterway, if_pos rfl, foldl_removeCeiling_frame]
  rfl

@[simp] theorem removeCeilings_home (v : UnitNo) : ((s.removeCeilings w).unit v).waterway = (s.unit v).waterway := by
  rw [removeCeilings_unit]; split <;> rfl
@[simp] theorem removeCeilings_link (v : UnitNo) : ((s.removeCeilings w).unit v).link = (s.unit v).link := by
  rw [removeCeilings_unit]; split <;> rfl
@[simp] theorem removeCeilings_setpoint (v : UnitNo) : ((s.removeCeilings w).unit v).setpoint = (s.unit v).setpoint := by
  rw [removeCeilings_unit]; split <;> rfl

end

/-! ## The walk (R116) -/

/-- The pointer of a waterway is moved (R116). -/
def State.pointTo (s : State) (w : WaterwayNo) (u : UnitNo) : State := s.modWaterway w fun x => { x with pointer := u }

section
variable (s : State) (w : WaterwayNo) (u : UnitNo)

@[simp] theorem pointTo_order? (k : Handle) : (s.pointTo w u).order? k = s.order? k := rfl
@[simp] theorem pointTo_unit (v : UnitNo) : (s.pointTo w u).unit v = s.unit v := rfl
@[simp] theorem pointTo_waterway : (s.pointTo w u).waterway w = { s.waterway w with pointer := u } := by
  unfold State.pointTo; rw [waterway_modWaterway, if_pos rfl]

end

section
variable {s : State} {w : WaterwayNo}

/-- A walk in which no order is stepped moves the pointer alone. -/
theorem walk_still (still : ∀ u n, State.visit (s, n) u = (s, n)) :
    s.walk w = s.pointTo w (nextPointer (s.unitsOf w) (s.waterway w).pointer) := by
  unfold State.walk
  dsimp only
  rw [foldl_still fun u _ => still u _]
  rfl

/-- A walk that steps the only engaged order leaves the rest to the pointer. -/
theorem walk_single {h : Handle} {r q : Order} {t : State} {n : Nat} (lone : s.OnlyEngaged h r) (home : (s.unit r.unit).waterway = w)
    (step : State.visit (s, (s.waterway w).allowance) r.unit = (t, n)) (after : t.OnlyEngaged h q) (unit : q.unit = r.unit) :
    s.walk w = t.pointTo w (nextPointer (s.unitsOf w) (s.waterway w).pointer) := by
  have order := rotation_perm (s.unitsOf w) (s.waterway w).pointer
  have walked := foldl_single (f := State.visit) (x := (s, (s.waterway w).allowance)) (order.nodup_iff.2 (nodup_unitsOf s w))
    (order.mem_iff.2 (mem_unitsOf.2 home)) (fun v other => visit_none (lone.rampOrder_other other) _) fun v other => by
      rw [step]; exact visit_none (after.rampOrder_other (by rwa [unit])) _
  unfold State.walk
  dsimp only
  rw [walked, step]
  rfl

end

end Sys2Proof.Machine
end

section
/-! # A ramp period of a RUNNING order (R113 to R120) -/

namespace Sys2Proof.Machine

/-! ## One step of the walk (R117, R118) -/

section
variable {s : State} {u : UnitNo} {p : Nat}

/-- A step that is 0 leaves the setpoint, and any other sets it, with the indication of a saturated trial before it (R32, R117). -/
theorem stepTaken_setpoint (rests : s.GateRests (s.unit u).waterway) (saturates : Bool) (k : Nat) {q : Nat}
    (unmoved : k = 0 → (s.unit u).setpoint = some q) :
    s.OnlyPower (if k = 0 then s.markSaturated u saturates else (s.markSaturated u saturates).commitSetpoint u q) ∧
    ((if k = 0 then s.markSaturated u saturates else (s.markSaturated u saturates).commitSetpoint u q).unit u).setpoint = some q := by
  have marked := State.OnlyPower.markSaturated s u saturates
  split
  · next none => exact ⟨marked, by rw [unit_markSaturated]; exact unmoved none⟩
  · have set := commitSetpoint_rests q (by rw [marked.home]; exact marked.rests rests)
    exact ⟨marked.trans set.1, set.2⟩

/-- Whether an upward step's flow change fits the allowance and the limit (R117). -/
def State.fitsUp (s : State) (u : UnitNo) (p n k : Nat) : Bool :=
  decide (s.flowChange u p (p + k) ≤ n) &&
    decide ((s.waterway (s.unit u).waterway).netFlow + s.flowChange u p (p + k) ≤ (s.waterway (s.unit u).waterway).qgLim)

/-- Whether a downward step's flow change fits the allowance (R118). -/
def State.fitsDown (s : State) (u : UnitNo) (p n k : Nat) : Bool := decide (s.flowChange u (p - k) p ≤ n)

variable (rests : s.GateRests (s.unit u).waterway) (setpoint : (s.unit u).setpoint = some p) (d n : Nat)
include rests setpoint

/-- The upward step is the largest whose flow change fits the allowance and the limit (R117). -/
theorem stepUp_spec : ∃ t m k, s.stepUp u p d n = (t, m) ∧ s.OnlyPower t ∧ (t.unit u).setpoint = some (p + k) ∧ k ≤ d ∧
    (0 < k → s.flowChange u p (p + k) ≤ n ∧
      (s.waterway (s.unit u).waterway).netFlow + s.flowChange u p (p + k) ≤ (s.waterway (s.unit u).waterway).qgLim) ∧
    ∀ j, k < j → j ≤ d → n < s.flowChange u p (p + j) ∨
      ((s.waterway (s.unit u).waterway).qgLim : Int) < (s.waterway (s.unit u).waterway).netFlow + s.flowChange u p (p + j) := by
  obtain ⟨within, fits, largest⟩ := largestStep_spec (s.fitsUp u p n) d
  obtain ⟨power, stands⟩ := stepTaken_setpoint rests (s.trialSaturates u (p + d)) (largestStep (s.fitsUp u p n) d)
    (q := p + largestStep (s.fitsUp u p n) d) fun none => by rw [none]; exact setpoint
  refine ⟨_, _, _, rfl, power, stands, within, fun moved => by simpa [State.fitsUp] using fits moved, fun j above below => ?_⟩
  have barred := largest j above below
  rw [State.fitsUp, Bool.and_eq_false_iff, decide_eq_false_iff_not, decide_eq_false_iff_not, not_le, not_le] at barred
  exact barred

/-- The downward step is the largest whose flow change fits the allowance (R118). -/
theorem stepDown_spec : ∃ t m k, s.stepDown u p d n = (t, m) ∧ s.OnlyPower t ∧ (t.unit u).setpoint = some (p - k) ∧ k ≤ d ∧
    (0 < k → s.flowChange u (p - k) p ≤ n) ∧ ∀ j, k < j → j ≤ d → n < s.flowChange u (p - j) p := by
  obtain ⟨within, fits, largest⟩ := largestStep_spec (s.fitsDown u p n) d
  obtain ⟨power, stands⟩ := stepTaken_setpoint rests (s.trialSaturates u p) (largestStep (s.fitsDown u p n) d)
    (q := p - largestStep (s.fitsDown u p n) d) fun none => by rw [none]; exact setpoint
  exact ⟨_, _, _, rfl, power, stands, within, fun moved => of_decide_eq_true (fits moved),
    fun j above below => not_le.1 (of_decide_eq_false (largest j above below))⟩

end

section
variable {s : State} {h : Handle} {r : Order} {p : Nat} (lone : s.OnlyEngaged h r) (running : r.life = .running)
  (generate : r.mode = .generate) (setpoint : (s.unit r.unit).setpoint = some p)
include lone running generate setpoint

/-- The only engaged order is stepped toward its goal, unless it is held for silence (R113, R116, R123). -/
theorem visit_lone (n : Nat) : State.visit (s, n) r.unit =
    if s.isHeld r.unit || s.rampGoal r.unit r.target = p then (s, n)
    else if p < s.rampGoal r.unit r.target then s.stepUp r.unit p (min r.ramp (s.rampGoal r.unit r.target - p)) n
    else s.stepDown r.unit p (min r.ramp (p - s.rampGoal r.unit r.target)) n := by
  unfold State.visit
  dsimp only
  rw [lone.rampOrder running generate setpoint]

theorem visit_atGoal (goal : s.rampGoal r.unit r.target = p) (v : UnitNo) (n : Nat) : State.visit (s, n) v = (s, n) := by
  by_cases same : v = r.unit
  · rw [same, visit_lone lone running generate setpoint, if_pos (by simp [goal])]
  · exact visit_none (lone.rampOrder_other same) n

/-- After curtailment an order at its goal takes no further step in the period (R115, R116). -/
theorem periodEnd_atGoal (goal : s.rampGoal r.unit r.target = p) (w : WaterwayNo) :
    (∀ k, (((s.walk w).unload w).judgePumpExcess w).order? k = s.order? k) ∧
    (∀ v, (((s.walk w).unload w).judgePumpExcess w).unit v = s.unit v) ∧
    (((s.walk w).unload w).judgePumpExcess w).linkOut = s.linkOut := by
  rw [walk_still (visit_atGoal lone running generate setpoint goal), unload_none (s := s.pointTo w _) (lone.isUnloading_running running)]
  exact ⟨fun _ => judgePumpExcess_order? .., fun _ => judgePumpExcess_unit .., judgePumpExcess_linkOut ..⟩

end

/-! ## A ramp period within the limit (R117, R118, R120) -/

section
variable {s : State} {h : Handle} {r : Order} {p : Nat} {w : WaterwayNo} (lone : s.OnlyEngaged h r) (running : r.life = .running)
  (home : (s.unit r.unit).waterway = w) (within : (s.waterway w).netFlow ≤ (s.waterway w).qgLim)
include lone running home within

/-- Within the limit the period leaves the only engaged order where its step puts it, and without a ceiling (R115, R116, R120). -/
theorem rampPeriod_steps {t : State} {n : Nat}
    (step : State.visit (s.removeCeilings w, (s.waterway w).allowance) r.unit = (t, n)) (power : (s.removeCeilings w).OnlyPower t) :
    ((s.rampPeriod w).unit r.unit).setpoint = (t.unit r.unit).setpoint ∧ ((s.rampPeriod w).unit r.unit).ceiling = none := by
  have cleared : (s.removeCeilings w).OnlyEngaged h r := lone.congr (removeCeilings_order? s w)
  obtain ⟨c, after⟩ := power.lone cleared
  have walked := walk_single (w := w) cleared (by rw [removeCeilings_home, home]) (by rw [removeCeilings_waterway]; exact step) after rfl
  rw [rampPeriod_eq, State.judgeLimit, if_neg (not_lt.2 within), walked,
    unload_none (s := t.pointTo w _) (after.isUnloading_running running), judgePumpExcess_unit, pointTo_unit, power.ceiling,
    removeCeilings_unit, if_pos ⟨home, lone.isUnloading_running running _⟩]
  exact ⟨rfl, rfl⟩

omit within
variable (generate : r.mode = .generate) (setpoint : (s.unit r.unit).setpoint = some p) (loud : (s.unit r.unit).link.silent = false)
include generate setpoint loud

/-- The step within the limit goes toward the target itself, the ceiling being removed (R113, R120). -/
theorem visit_within (n : Nat) (apart : r.target ≠ p) : State.visit (s.removeCeilings w, n) r.unit =
    if p < r.target then (s.removeCeilings w).stepUp r.unit p (min r.ramp (r.target - p)) n
    else (s.removeCeilings w).stepDown r.unit p (min r.ramp (p - r.target)) n := by
  have goal : (s.removeCeilings w).rampGoal r.unit r.target = r.target :=
    rampGoal_none (by rw [removeCeilings_unit, if_pos ⟨home, lone.isUnloading_running running _⟩])
  rw [visit_lone (lone.congr (removeCeilings_order? s w)) running generate (by rw [removeCeilings_setpoint, setpoint]), goal, if_neg ?_]
  simp [State.isHeld, loud, apart]

end

section
variable {s : State} {h : Handle} {r : Order} {p : Nat} {w : WaterwayNo} (rests : s.GateRests w)
include rests

omit rests in
theorem removeCeilings_flowChange (u : UnitNo) (home : (s.unit u).waterway = w) :
    (s.removeCeilings w).flowChange u = s.flowChange u :=
  flowChange_congr (by rw [removeCeilings_link]) (headFor_congr (removeCeilings_home ..) (by rw [home, removeCeilings_waterway]))

theorem removeCeilings_rests : (s.removeCeilings w).GateRests w := by
  unfold State.GateRests; rw [removeCeilings_waterway]; exact rests

variable (lone : s.OnlyEngaged h r) (running : r.life = .running)
  (generate : r.mode = .generate) (home : (s.unit r.unit).waterway = w) (setpoint : (s.unit r.unit).setpoint = some p)
  (loud : (s.unit r.unit).link.silent = false) (within : (s.waterway w).netFlow ≤ (s.waterway w).qgLim)
include lone running generate home setpoint loud within

theorem rampPeriod_raises (below : p < r.target) : ∃ k, ((s.rampPeriod w).unit r.unit).setpoint = some (p + k) ∧
    ((s.rampPeriod w).unit r.unit).ceiling = none ∧ k ≤ min r.ramp (r.target - p) ∧
    (0 < k → s.flowChange r.unit p (p + k) ≤ (s.waterway w).allowance ∧
      (s.waterway w).netFlow + s.flowChange r.unit p (p + k) ≤ (s.waterway w).qgLim) ∧
    ∀ j, k < j → j ≤ min r.ramp (r.target - p) → (s.waterway w).allowance < s.flowChange r.unit p (p + j) ∨
      ((s.waterway w).qgLim : Int) < (s.waterway w).netFlow + s.flowChange r.unit p (p + j) := by
  have step := visit_within lone running home generate setpoint loud (s.waterway w).allowance below.ne'
  rw [if_pos below] at step
  obtain ⟨t, m, k, taken, power, stands, atMost, fits, largest⟩ := stepUp_spec (s := s.removeCeilings w)
    (by rw [removeCeilings_home, home]; exact removeCeilings_rests rests) ((removeCeilings_setpoint ..).trans setpoint)
    (min r.ramp (r.target - p)) (s.waterway w).allowance
  rw [removeCeilings_home, home, removeCeilings_waterway, removeCeilings_flowChange _ home] at fits largest
  obtain ⟨setpoint, ceiling⟩ := rampPeriod_steps lone running home within (step.trans taken) power
  exact ⟨k, setpoint.trans stands, ceiling, atMost, fits, largest⟩

theorem rampPeriod_lowers (above : r.target < p) : ∃ k, ((s.rampPeriod w).unit r.unit).setpoint = some (p - k) ∧
    ((s.rampPeriod w).unit r.unit).ceiling = none ∧ k ≤ min r.ramp (p - r.target) ∧
    (0 < k → s.flowChange r.unit (p - k) p ≤ (s.waterway w).allowance) ∧
    ∀ j, k < j → j ≤ min r.ramp (p - r.target) → (s.waterway w).allowance < s.flowChange r.unit (p - j) p := by
  have step := visit_within lone running home generate setpoint loud (s.waterway w).allowance above.ne
  rw [if_neg above.not_gt] at step
  obtain ⟨t, m, k, taken, power, stands, atMost, fits, largest⟩ := stepDown_spec (s := s.removeCeilings w)
    (by rw [removeCeilings_home, home]; exact removeCeilings_rests rests) ((removeCeilings_setpoint ..).trans setpoint)
    (min r.ramp (p - r.target)) (s.waterway w).allowance
  rw [removeCeilings_flowChange _ home] at fits largest
  obtain ⟨setpoint, ceiling⟩ := rampPeriod_steps lone running home within (step.trans taken) power
  exact ⟨k, setpoint.trans stands, ceiling, atMost, fits, largest⟩

end

/-! ## Curtailment above the limit (R119, R121) -/

section
variable {s : State} {h : Handle} {r : Order} {p : Nat}

/-- Both passes of curtailment, the higher unit first within a class (R119). -/
def State.curtailWalk (s : State) (w : WaterwayNo) : State × Int :=
  (s.unitsOf w).reverse.foldl (State.curtailUnit .firm)
    ((s.unitsOf w).reverse.foldl (State.curtailUnit .flexible) (s, (s.waterway w).netFlow - (s.waterway w).qgLim))

/-- What curtailment adds to its passes is the excess unresolved indication (R121). -/
theorem curtail_eq (s : State) (w : WaterwayNo) :
    s.curtail w = (s.curtailWalk w).1 ∨ s.curtail w = (s.curtailWalk w).1.setUnresolved w := by
  unfold State.curtail State.curtailWalk
  dsimp only
  split
  · exact .inr rfl
  · exact .inl rfl

theorem curtail_order? (w : WaterwayNo) (k : Handle) : (s.curtail w).order? k = (s.curtailWalk w).1.order? k := by
  rcases curtail_eq s w with e | e <;> rw [e]
  exact setUnresolved_order? ..

theorem curtail_unit (w : WaterwayNo) (v : UnitNo) : (s.curtail w).unit v = (s.curtailWalk w).1.unit v := by
  rcases curtail_eq s w with e | e <;> rw [e]
  exact setUnresolved_unit ..

theorem curtail_linkOut (w : WaterwayNo) : (s.curtail w).linkOut = (s.curtailWalk w).1.linkOut := by
  rcases curtail_eq s w with e | e <;> rw [e]
  exact setUnresolved_linkOut ..

/-- The state after an order is lowered by `d`: the new setpoint becomes its ceiling, and the order is curtailed (R114, R119). -/
def State.loweredTo (s : State) (h : Handle) (u : UnitNo) (p d : Nat) : State :=
  (((s.markSaturated u (s.trialSaturates u p)).commitSetpoint u (p - d)).modUnit u fun b => { b with ceiling := some (p - d) }).modOrder h
    fun r => { r with curtailed := true }

variable (lone : s.OnlyEngaged h r)
include lone

/-- Curtailment passes what is of another class, and units without an order to lower (R119). -/
theorem curtailUnit_other {cls : DispatchClass} {v : UnitNo} (other : v ≠ r.unit ∨ r.cls ≠ cls) (excess : Int) :
    State.curtailUnit cls (s, excess) v = (s, excess) := by
  by_cases same : v = r.unit
  · subst same
    unfold State.curtailUnit
    dsimp only
    split
    · next k q n found =>
      cases (engagedOrder_of_rampOrder found).symm.trans lone.engagedOrder
      exact if_neg fun now => other.elim (· rfl) (· now.2.1)
    · rfl
  · exact curtailUnit_none (lone.rampOrder_other same) _ _

/-- Of the two passes the one of its class alone meets the only engaged order (R119). -/
theorem curtailWalk_single {w : WaterwayNo} (home : (s.unit r.unit).waterway = w) {t : State} {left : Int} {q : Order}
    (step : State.curtailUnit r.cls (s, (s.waterway w).netFlow - (s.waterway w).qgLim) r.unit = (t, left)) (after : t.OnlyEngaged h q)
    (unit : q.unit = r.unit) (cls : q.cls = r.cls) : s.curtailWalk w = (t, left) := by
  have pass : (s.unitsOf w).reverse.foldl (State.curtailUnit r.cls) (s, (s.waterway w).netFlow - (s.waterway w).qgLim) = (t, left) := by
    rw [← step]
    exact foldl_single (List.nodup_reverse.2 (nodup_unitsOf s w)) (List.mem_reverse.2 (mem_unitsOf.2 home))
      (fun v other => curtailUnit_other lone (.inl other) _)
      (fun v other => by rw [step]; exact curtailUnit_other after (.inl (by rwa [unit])) _)
  unfold State.curtailWalk
  cases ofClass : r.cls with
  | flexible =>
    rw [ofClass] at pass
    rw [pass]
    exact foldl_still fun v _ => curtailUnit_other after (.inr (by rw [cls, ofClass]; nofun)) _
  | firm =>
    rw [ofClass] at pass
    rw [foldl_still fun v _ => curtailUnit_other lone (.inr (by rw [ofClass]; nofun)) _, pass]

variable (running : r.life = .running) (generate : r.mode = .generate) (setpoint : (s.unit r.unit).setpoint = some p)
include running generate setpoint

theorem curtailUnit_lowers {excess : Int} (exceeds : 0 < excess) (above : s.capTime r.unit (·.pmin) < p)
    (loud : (s.unit r.unit).link.silent = false) : State.curtailUnit r.cls (s, excess) r.unit =
      (s.loweredTo h r.unit p (s.curtailStep r.unit p r.ramp excess),
        excess - s.flowChange r.unit (p - s.curtailStep r.unit p r.ramp excess) p) := by
  unfold State.curtailUnit
  dsimp only
  rw [lone.rampOrder running generate setpoint]
  exact if_pos ⟨exceeds, rfl, by simp [State.canCurtail, State.isHeld, loud, above]⟩

theorem curtailUnit_atPmin (excess : Int) (least : p ≤ s.capTime r.unit (·.pmin)) :
    State.curtailUnit r.cls (s, excess) r.unit = (s, excess) := by
  unfold State.curtailUnit
  dsimp only
  rw [lone.rampOrder running generate setpoint]
  exact if_neg fun now => by
    have can := now.2.2
    simp only [State.canCurtail, Bool.and_eq_true, decide_eq_true_eq] at can
    omega

omit running generate setpoint in
theorem loweredTo_spec (rests : s.GateRests (s.unit r.unit).waterway) (d : Nat) :
    (s.loweredTo h r.unit p d).OnlyEngaged h { r with curtailed := true } ∧
    ((s.loweredTo h r.unit p d).unit r.unit).setpoint = some (p - d) ∧
    ((s.loweredTo h r.unit p d).unit r.unit).ceiling = some (p - d) ∧
    ((s.loweredTo h r.unit p d).unit r.unit).link.current = (s.unit r.unit).link.current := by
  have marked := State.OnlyPower.markSaturated s r.unit (s.trialSaturates r.unit p)
  obtain ⟨set, stands⟩ := commitSetpoint_rests (p - d) (by rw [marked.home]; exact marked.rests rests)
  obtain ⟨c, after⟩ := (marked.trans set).lone lone
  have current := (marked.trans set).current r.unit
  unfold State.loweredTo
  generalize (s.markSaturated r.unit (s.trialSaturates r.unit p)).commitSetpoint r.unit (p - d) = t at stands after current
  rw [modOrder_unit, unit_modUnit, if_pos rfl]
  exact ⟨(after.congr (modUnit_order? t r.unit _)).modOrder (f := fun r => { r with curtailed := true }) lone.engaged,
    stands, rfl, current⟩

variable {w : WaterwayNo} (home : (s.unit r.unit).waterway = w) (exceeds : (s.waterway w).qgLim < (s.waterway w).netFlow)
  (modest : p ≤ r.target)
include home exceeds modest

theorem rampPeriod_curtails (rests : s.GateRests w) (rate : 1 ≤ r.ramp) (loud : (s.unit r.unit).link.silent = false)
    (above : s.capTime r.unit (·.pmin) < p) :
    ∃ k q, ((s.rampPeriod w).unit r.unit).setpoint = some (p - k) ∧ ((s.rampPeriod w).unit r.unit).ceiling = some (p - k) ∧
      (s.rampPeriod w).order? h = some q ∧ q.curtailed = true ∧ 1 ≤ k ∧ k ≤ min r.ramp (p - s.capTime r.unit (·.pmin)) ∧
      (∀ j, 1 ≤ j → j < k → s.flowChange r.unit (p - j) p < (s.waterway w).netFlow - (s.waterway w).qgLim) ∧
      ((s.waterway w).netFlow - (s.waterway w).qgLim ≤ s.flowChange r.unit (p - k) p ∨
        k = min r.ramp (p - s.capTime r.unit (·.pmin))) := by
  obtain ⟨atLeast, atMost, smaller, covers⟩ := curtailStep_spec above rate ((s.waterway w).netFlow - (s.waterway w).qgLim)
  generalize step : s.curtailStep r.unit p r.ramp ((s.waterway w).netFlow - (s.waterway w).qgLim) = k at atLeast atMost smaller covers
  obtain ⟨after, stands, ceiling, current⟩ := loweredTo_spec (p := p) lone (by rw [home]; exact rests) k
  have lowered := curtailWalk_single lone home (curtailUnit_lowers lone running generate setpoint (by omega) above loud)
    (q := { r with curtailed := true }) (by rw [step]; exact after) rfl rfl
  rw [step] at lowered
  have unit : (s.curtail w).unit r.unit = (s.loweredTo h r.unit p k).unit r.unit := by rw [curtail_unit, lowered]
  have after' : (s.curtail w).OnlyEngaged h { r with curtailed := true } :=
    after.congr fun _ => by rw [curtail_order?, lowered]
  have goal : (s.curtail w).rampGoal r.unit r.target = p - k := by
    rw [rampGoal_some (by rw [unit, ceiling]), capTime_congr (s := s) (by rw [unit, current])]
    omega
  obtain ⟨order, units, -⟩ := periodEnd_atGoal after' running generate (by rw [unit]; exact stands) goal w
  rw [rampPeriod_eq, State.judgeLimit, if_pos exceeds, order, units, unit]
  exact ⟨k, _, stands, ceiling, after'.record, rfl, atLeast, atMost, smaller, covers⟩

/-- A setpoint at Pmin stands, and so does its ceiling: a ceiling below Pmin counts as Pmin (R114, R119, log entry 44). -/
theorem rampPeriod_atPmin {c : Nat} (least : s.capTime r.unit (·.pmin) = p) (ceiling : (s.unit r.unit).ceiling = some c) (low : c ≤ p) :
    (s.rampPeriod w).unit r.unit = s.unit r.unit ∧ (s.rampPeriod w).linkOut = s.linkOut := by
  have still := curtailWalk_single lone home (curtailUnit_atPmin lone running generate setpoint _ least.ge) lone rfl rfl
  have unit : (s.curtail w).unit r.unit = s.unit r.unit := by rw [curtail_unit, still]
  have goal : (s.curtail w).rampGoal r.unit r.target = p := by
    rw [rampGoal_some (by rw [unit, ceiling]), capTime_congr (s := s) (by rw [unit]), least]
    omega
  obtain ⟨-, units, quiet⟩ := periodEnd_atGoal (lone.congr fun _ => by rw [curtail_order?, still]) running generate
    (by rw [unit]; exact setpoint) goal w
  rw [rampPeriod_eq, State.judgeLimit, if_pos exceeds, units, quiet, unit, curtail_linkOut, still]
  exact ⟨rfl, rfl⟩

end

/-! ## The command (R115) -/

/-- A ramp period that is due is taken (R115, log entry 1). -/
theorem exec_rampPeriodExpiry {s : State} {w : WaterwayNo} (due : DueEvent.ramp w ∈ s.due) :
    exec (.rampPeriodExpiry w) s = .next ((s.takes (.ramp w)).rampPeriod w) := by
  rw [exec_event rfl, takeDue_quiet due]; rfl

/-- Settles O43: within the limit by the walk's one step, above it by the one step of curtailment. -/
theorem rampPeriodSteps : Obligations.RampPeriodSteps := by
  intro s u h r p x change due water queue hr unit running generate rate only setpoint loud changes
  subst unit water
  obtain rfl : change = s.flowChange r.unit := funext fun a => funext fun b => changes a b
  let a := s.takes (.ramp (s.unit r.unit).waterway)
  have lone : a.OnlyEngaged h r := ⟨hr, by rw [running]; rfl, only⟩
  have rests : a.GateRests (s.unit r.unit).waterway := .inr queue
  refine ⟨fun within below => ?_, fun within above => ?_, fun exceeds above modest => ?_, fun c exceeds least modest ceiling low => ?_⟩
  · obtain ⟨k, facts⟩ := rampPeriod_raises rests lone running generate rfl setpoint loud within below
    exact ⟨_, k, exec_rampPeriodExpiry due, facts⟩
  · obtain ⟨k, facts⟩ := rampPeriod_lowers rests lone running generate rfl setpoint loud within above
    exact ⟨_, k, exec_rampPeriodExpiry due, facts⟩
  · obtain ⟨k, q, facts⟩ := rampPeriod_curtails lone running generate setpoint rfl exceeds modest rests rate loud above
    exact ⟨_, k, q, exec_rampPeriodExpiry due, facts⟩
  · obtain ⟨unit, quiet⟩ := rampPeriod_atPmin lone running generate setpoint rfl exceeds modest least ceiling low
    exact ⟨_, exec_rampPeriodExpiry due, (congrArg UnitBlock.setpoint unit).trans setpoint,
      (congrArg UnitBlock.ceiling unit).trans ceiling, quiet⟩

end Sys2Proof.Machine
end

section
/-! # A ramp period without a RUNNING order: the pointer, the excess indications, and unloading (R115, R116, R120 to R122) -/

namespace Sys2Proof.Machine

/-! ## The pointer (R116) -/

/-- In an increasing list the least element from a member on is that member, and the least above it the next. -/
theorem filter_atLeast {us : List UnitNo} (increasing : us.Pairwise (· < ·)) {a b : UnitNo} (ha : a ∈ us) (hb : b ∈ us)
    (above : a < b) (next : ∀ v ∈ us, a < v → b ≤ v) : ∃ rest, us.filter (fun u => a ≤ u) = a :: b :: rest := by
  induction us with
  | nil => cases ha
  | cons x xs ih =>
    obtain ⟨least, rising⟩ := List.pairwise_cons.1 increasing
    rcases List.mem_cons.1 ha with same | later
    · subst same
      have hb : b ∈ xs := (List.mem_cons.1 hb).resolve_left above.ne'
      rw [List.filter_cons_of_pos (by simp), List.filter_eq_self.2 fun v hv => by simpa using (least v hv).le]
      cases xs with
      | nil => cases hb
      | cons y ys =>
        have second : b = y := le_antisymm (next y (by simp) (least y (by simp))) <| by
          rcases List.mem_cons.1 hb with same | further
          · exact same.ge
          · exact ((List.pairwise_cons.1 rising).1 b further).le
        exact ⟨ys, by rw [second]⟩
    · have below := least a later
      have hb : b ∈ xs := (List.mem_cons.1 hb).resolve_left (below.trans above).ne'
      rw [List.filter_cons_of_neg (by simpa using below)]
      exact ih rising later hb fun v hv => next v (List.mem_cons_of_mem x hv)

/-- The pointer moves from a unit of the waterway to the next one above it (R116). -/
theorem nextPointer_above {s : State} {w : WaterwayNo} {a u : UnitNo} (start : (s.unit a).waterway = w) (home : (s.unit u).waterway = w)
    (above : a < u) (next : ∀ v, (s.unit v).waterway = w → a < v → u ≤ v) : nextPointer (s.unitsOf w) a = u := by
  have increasing : (s.unitsOf w).Pairwise (· < ·) := List.Pairwise.filter _ (by decide)
  obtain ⟨rest, found⟩ := filter_atLeast increasing (mem_unitsOf.2 start) (mem_unitsOf.2 home) above
    fun v hv => next v (mem_unitsOf.1 hv)
  unfold nextPointer rotation
  rw [found]
  rfl

theorem unitsOf_congr {s t : State} (homes : ∀ u, (t.unit u).waterway = (s.unit u).waterway) (w : WaterwayNo) :
    t.unitsOf w = s.unitsOf w := by
  unfold State.unitsOf; simp only [homes]

/-! ## A waterway with no engaged order (R116, R121) -/

section
variable {s : State} {w : WaterwayNo} (idle : ∀ u, s.engagedOrder u = none)
include idle

/-- Curtailment lowers nothing, and an excess is unresolved (R121). -/
theorem curtail_idle (exceeds : (s.waterway w).qgLim < (s.waterway w).netFlow) : s.curtail w = s.setUnresolved w := by
  have pass : ∀ cls, (s.unitsOf w).reverse.foldl (State.curtailUnit cls) (s, (s.waterway w).netFlow - (s.waterway w).qgLim) =
      (s, (s.waterway w).netFlow - (s.waterway w).qgLim) :=
    fun cls => foldl_still fun u _ => curtailUnit_none (rampOrder_none (idle u)) cls _
  have stuck : s.couldLower w = false := by
    unfold State.couldLower
    simp [rampOrder_none (idle _)]
  unfold State.curtail
  dsimp only
  rw [pass, pass]
  exact if_pos ⟨by dsimp only; omega, by simp [stuck]⟩

/-- The first step of the period judges the excess unresolved indication alone, ceilings of units aside (R120, R121). -/
theorem judgeLimit_idle : (s.judgeLimit w).slots = s.slots ∧ (s.judgeLimit w).linkOut = s.linkOut ∧
    (∀ u, ((s.judgeLimit w).unit u).waterway = (s.unit u).waterway) ∧
    (s.judgeLimit w).waterway w =
      { s.waterway w with excessUnresolved := decide (((s.waterway w).qgLim : Int) < (s.waterway w).netFlow) } ∧
    (((s.waterway w).qgLim : Int) < (s.waterway w).netFlow → (s.waterway w).excessUnresolved = false →
      (s.judgeLimit w).latched .inhibitChange = true) := by
  unfold State.judgeLimit
  split
  · next exceeds =>
    rw [curtail_idle idle exceeds]
    exact ⟨setUnresolved_slots .., setUnresolved_linkOut .., fun u => by rw [setUnresolved_unit],
      by rw [setUnresolved_waterway, decide_eq_true exceeds], fun _ clear => setUnresolved_latched s w clear⟩
  · next within =>
    exact ⟨removeCeilings_slots .., removeCeilings_linkOut .., removeCeilings_home s w,
      by rw [removeCeilings_waterway, decide_eq_false within], fun exceeds => absurd exceeds within⟩

/-- After the first step the pointer moves, and the pump excess indication is judged (R116, R121). -/
theorem rampPeriod_idle : s.rampPeriod w =
    ((s.judgeLimit w).pointTo w (nextPointer (s.unitsOf w) (s.waterway w).pointer)).judgePumpExcess w := by
  obtain ⟨slots, -, homes, water, -⟩ := judgeLimit_idle (w := w) idle
  have idle' : ∀ u, (s.judgeLimit w).engagedOrder u = none := fun u => by
    rw [← idle u]; unfold State.engagedOrder State.orders; rw [slots]
  rw [rampPeriod_eq, walk_still fun u n => visit_none (rampOrder_none (idle' u)) n, unitsOf_congr homes, water,
    unload_none (s := (s.judgeLimit w).pointTo w _) fun u => isUnloading_none (idle' u)]

end

/-! ## An order that unloads (R76, R120, R122) -/

section
variable {s : State} {h : Handle} {r : Order} {c : DoneCause} {w : WaterwayNo} (lone : s.OnlyEngaged h r)
  (unloading : r.life = .stopping .unloading c)
include lone unloading

/-- Where the only engaged order unloads, the fourth step of the period is its step (R122). -/
theorem unload_lone (home : (s.unit r.unit).waterway = w) : ∃ t : State, t.OnlyEngaged h r ∧ (∀ v, t.unit v = s.unit v) ∧
    (∀ v, t.waterway v = s.waterway v) ∧ s.unload w = t.unloadUnit r.unit := by
  obtain ⟨us, n, order, steps⟩ := unload_spec s w
  have only : ∀ v ∈ us, v = r.unit := fun v hv => by
    by_contra other
    have unloads := (List.mem_filter.1 (order.mem_iff.1 hv)).2
    rw [isUnloading_none (lone.engagedOrder_other other)] at unloads
    cases unloads
  have member : r.unit ∈ us := order.mem_iff.2 (List.mem_filter.2 ⟨mem_unitsOf.2 home, by rw [lone.isUnloading, unloading]; rfl⟩)
  have single : us = [r.unit] := by
    rw [List.eq_replicate_of_mem only]
    have once := order.nodup_iff.2 ((nodup_unitsOf s w).filter _)
    rw [List.eq_replicate_of_mem only, List.nodup_replicate] at once
    have some := List.length_pos_of_mem member
    rw [show us.length = 1 by omega]
    rfl
  exact ⟨{ s with picks := n }, lone.congr fun _ => rfl, fun _ => rfl, fun _ => rfl, by rw [steps, single]; rfl⟩

/-- The walk passes an order that unloads, and moves the pointer before the unloading step (R115, R116). -/
theorem unload_walk (home : (s.unit r.unit).waterway = w) : ∃ t : State, t.OnlyEngaged h r ∧ (∀ v, t.unit v = s.unit v) ∧
    (t.waterway w).spacing = (s.waterway w).spacing ∧ (s.walk w).unload w = t.unloadUnit r.unit := by
  have passed : ∀ u n, State.visit (s, n) u = (s, n) := fun u n => visit_none (by
    by_cases same : u = r.unit
    · rw [same]; exact lone.rampOrder_stopping (by rw [unloading]; rfl)
    · exact lone.rampOrder_other same) n
  rw [walk_still passed]
  obtain ⟨t, alone, units, waters, steps⟩ := unload_lone (w := w) (lone.congr (pointTo_order? s w _)) unloading home
  exact ⟨t, alone, units, by rw [waters, pointTo_waterway], steps⟩

/-- The ceiling of an order that unloads stays as it stood (R120, R122, log entry 45). -/
theorem removeCeilings_unloading (w : WaterwayNo) : (s.removeCeilings w).unit r.unit = s.unit r.unit := by
  have stays : s.isUnloading r.unit = true := by rw [lone.isUnloading, unloading]; rfl
  rw [removeCeilings_unit, if_neg (by simp [stays])]

/-- The period of an order that unloads takes its unloading step, its ceiling and its gate as they stood (R115, R120, R122). -/
theorem rampPeriod_unloads (home : (s.unit r.unit).waterway = w) (within : (s.waterway w).netFlow ≤ (s.waterway w).qgLim) :
    ∃ t : State, t.OnlyEngaged h r ∧ t.unit r.unit = s.unit r.unit ∧ (t.waterway w).spacing = (s.waterway w).spacing ∧
      s.rampPeriod w = (t.unloadUnit r.unit).judgePumpExcess w := by
  have removed : (s.removeCeilings w).OnlyEngaged h r := lone.congr (removeCeilings_order? s w)
  obtain ⟨t, alone, units, gate, steps⟩ := unload_walk (w := w) removed unloading ((removeCeilings_home ..).trans home)
  refine ⟨t, alone, (units _).trans (removeCeilings_unloading lone unloading w), by rw [gate, removeCeilings_waterway], ?_⟩
  rw [rampPeriod_eq, State.judgeLimit, if_neg (not_lt.2 within), steps]

variable {p : Nat} (setpoint : (s.unit r.unit).setpoint = some p) (loud : (s.unit r.unit).link.silent = false)
  (above : s.capTime r.unit (·.pmin) < p)
include setpoint loud above

/-- An order that unloads is lowered by its ramp rate, and waits for the gate once it stands at Pmin (R76, R122). -/
theorem unloadUnit_lone : s.unloadUnit r.unit =
    let t := s.commitSetpoint r.unit (max (s.capTime r.unit (·.pmin)) (p - r.ramp))
    if t.atPmin r.unit then t.awaitStopGate h r c else t := by
  unfold State.unloadUnit
  rw [lone.engagedOrder, setpoint]
  dsimp only
  rw [unloading]
  dsimp only
  rw [if_neg (c := (s.isHeld r.unit || decide (p ≤ s.capTime r.unit (·.pmin))) = true) (by simp [State.isHeld, loud, above])]

variable (home : (s.unit r.unit).waterway = w) (spaced : (s.waterway w).spacing.isSome = true)
include home spaced

theorem unloadUnit_spec : ((s.unloadUnit r.unit).unit r.unit).setpoint = some (max (s.capTime r.unit (·.pmin)) (p - r.ramp)) ∧
    ((s.unloadUnit r.unit).unit r.unit).ceiling = (s.unit r.unit).ceiling ∧
    (s.capTime r.unit (·.pmin) < p - r.ramp → (s.unloadUnit r.unit).order? h = some r) ∧
    (p - r.ramp ≤ s.capTime r.unit (·.pmin) →
      (s.unloadUnit r.unit).order? h = some { r with life := .stopping .awaitingGate c } ∧
      ∃ e ∈ ((s.unloadUnit r.unit).waterway w).queue, e.handle = h ∧ e.kind = .stop ∧ e.unit = r.unit) := by
  have spaced' : (s.waterway (s.unit r.unit).waterway).spacing.isSome = true := by rw [home]; exact spaced
  obtain ⟨power, stands⟩ := commitSetpoint_rests (max (s.capTime r.unit (·.pmin)) (p - r.ramp)) (.inl spaced')
  have record := order?_commitSetpoint (p := max (s.capTime r.unit (·.pmin)) (p - r.ramp)) spaced' lone.record
    (.inl (by rw [unloading]; nofun))
  have ceiling := power.ceiling r.unit
  have spacedAfter := power.spaced spaced'
  have homeAfter := power.home r.unit
  have pmin := capTime_congr (power.current r.unit) (·.pmin)
  rw [unloadUnit_lone lone unloading setpoint loud above]
  dsimp only
  generalize s.commitSetpoint r.unit (max (s.capTime r.unit (·.pmin)) (p - r.ramp)) = t at stands record ceiling spacedAfter homeAfter pmin
  have judged : t.atPmin r.unit = decide (p - r.ramp ≤ s.capTime r.unit (·.pmin)) := by
    unfold State.atPmin
    rw [stands, pmin]
    exact decide_eq_decide.2 (by omega)
  rw [judged]
  by_cases reached : p - r.ramp ≤ s.capTime r.unit (·.pmin)
  · let waiting := t.modOrder h fun r => { r with life := .stopping .awaitingGate c }
    have stillSpaced : (waiting.waterway (waiting.unit r.unit).waterway).spacing.isSome = true := by simpa [waiting] using spacedAfter
    have joined := exists_mem_joinGate stillSpaced h .stop
    rw [modOrder_unit, homeAfter, home] at joined
    rw [if_pos (by simpa using reached), State.awaitStopGate]
    refine ⟨?_, ?_, fun further => absurd reached (by omega), fun _ => ⟨?_, joined⟩⟩
    all_goals rw [joinGate_spaced stillSpaced]
    · simpa [waiting] using stands
    · simpa [waiting] using ceiling
    · simp [waiting, record]
  · rw [if_neg (by simpa using reached)]
    exact ⟨stands, ceiling, fun _ => record, fun now => absurd now reached⟩

end

/-- Settles O44: a period with no engaged order step by step, then the one step of an order that unloads. -/
theorem rampPeriodUnloadsAndIndicates : Obligations.RampPeriodUnloadsAndIndicates := by
  intro s w due
  refine ⟨fun none => ?_, fun u h r c p home within spaced hr unit unloading only setpoint loud above => ?_⟩
  · have idle : ∀ u, (s.takes (.ramp w)).engagedOrder u = .none := fun u => engagedOrder_none fun k q hq _ => none k q hq
    obtain ⟨slots, quiet, -, water, told⟩ := judgeLimit_idle (w := w) idle
    refine ⟨_, exec_rampPeriodExpiry due, ?_⟩
    rw [rampPeriod_idle idle]
    refine ⟨?_, (judgePumpExcess_slots ..).trans slots, (judgePumpExcess_linkOut ..).trans quiet, fun u home above next start => ?_,
      fun exceeds clear => judgePumpExcess_latched _ w _ (told exceeds clear)⟩
    · rw [judgePumpExcess_waterway, pointTo_waterway, water]; rfl
    · rw [judgePumpExcess_waterway, pointTo_waterway]
      exact nextPointer_above (s := s) start home above next
  · subst unit
    have lone : (s.takes (.ramp w)).OnlyEngaged h r := ⟨hr, by rw [unloading]; rfl, only⟩
    obtain ⟨t, lone', stands, gate, result⟩ := rampPeriod_unloads lone unloading home within
    rw [takes_unit] at stands
    have pmin : t.capTime r.unit (·.pmin) = s.capTime r.unit (·.pmin) := capTime_congr (by rw [stands]) _
    have facts := unloadUnit_spec (w := w) lone' unloading (by rw [stands]; exact setpoint) (by rw [stands]; exact loud)
      (by rw [pmin]; exact above) (by rw [stands]; exact home) (by rw [gate]; exact spaced)
    rw [pmin, stands] at facts
    obtain ⟨lowered, ceiling, unloads, waits⟩ := facts
    refine ⟨_, exec_rampPeriodExpiry due, ?_⟩
    rw [result, judgePumpExcess_unit, judgePumpExcess_order?, judgePumpExcess_waterway]
    exact ⟨lowered, ceiling, unloads, waits⟩

end Sys2Proof.Machine
end

section
/-! # The law of the Unit Links (R127, R128, R136, R138, R141, R143, R144) -/

namespace Sys2Proof.Machine

/-- A unit is written so that its link keeps its law. -/
theorem linkLaw_modUnit {s : State} {u : UnitNo} {f : UnitBlock → UnitBlock} (l : s.LinkLaw) (h : (f (s.unit u)).LinkLaw) :
    (s.modUnit u f).LinkLaw := by
  intro v
  rw [unit_modUnit]
  split <;> [exact h; exact l v]

/-- What the law of a unit's link does not speak of may change. -/
theorem UnitBlock.LinkLaw.congr {b c : UnitBlock} (l : b.LinkLaw) (present : c.present = b.present := by rfl)
    (link : c.link = b.link := by rfl) (pending : c.pendingSetpoint = b.pendingSetpoint := by rfl) : c.LinkLaw := by
  obtain ⟨ackTimer, held, waits, outstanding, current, burst, silent, absent⟩ := l
  constructor <;> simp only [present, link, pending] <;> assumption

/-- A directive sent on an UP link, behind which something may wait (R136, R143). -/
theorem linkLaw_send {s : State} {u : UnitNo} (d : Directive) (up : (s.unit u).link.state = .up) (l : s.LinkLaw) :
    (s.send u d).LinkLaw := by
  have own := l u
  exact linkLaw_modUnit (s := s) (f := fun b => { b with
      link := { b.link with outstanding := some d, ackTimer := some s.supervision.ackTimeout } }) l
    ⟨rfl, fun _ => rfl, fun _ => rfl, fun _ => up, own.current, own.burst, own.silent, own.absent⟩

theorem linkLaw_refresh {s : State} (u : UnitNo) (l : s.LinkLaw) : (s.refreshContribution u).LinkLaw := by
  unfold State.refreshContribution
  split <;> [exact linkLaw_modUnit l (l u).congr; exact l]

/-- Within an event no link leaves its law. -/
theorem kept_linkLaw : KeptFreely State.LinkLaw where
  raise _ _ p := p
  order s h f p := by unfold State.modOrder; split <;> exact p
  unlinkTo _ _ p := p
  free s h p := by unfold State.freeOrder; split <;> exact p
  record _ _ _ p := p
  picks _ _ p := p
  leaveStart _ _ p := p
  joinStart _ _ p := p
  handOver _ _ _ _ p := p
  unit _ u _ b p := linkLaw_modUnit p (b.law (p u))
  send _ _ d up _ p := linkLaw_send d up p
  contribution _ u p := linkLaw_refresh u p
  water _ _ _ _ p := p
  joinGate _ _ _ _ _ _ p := p
  converter _ _ _ _ p := p
  refresh _ u p := linkLaw_refresh u p
  waterItems _ _ _ _ _ p := p
  anyGauge _ _ _ p := p

/-- Of two writes of a unit the second stands. -/
theorem setUnit_setUnit (s : State) (u : UnitNo) (b c : UnitBlock) : (s.setUnit u b).setUnit u c = s.setUnit u c := by
  simp [State.setUnit]

/-! ## What a matching ACK sends (R137, R138) -/

/-- What goes at a matching ACK: the held directive, or else the pending setpoint (R138). -/
def UnitBlock.next (b : UnitBlock) : Option Directive := b.link.held.or (b.pendingSetpoint.map .setPower)

/-- A unit after a matching ACK behind which a directive has gone (R137, R138, R143). -/
def UnitBlock.goesOn (b : UnitBlock) (d : Directive) (timeout : Nat) : UnitBlock :=
  { b with
    pendingSetpoint := if b.link.held.isSome then b.pendingSetpoint else none
    link := { b.link with outstanding := some d, held := none, ackTimer := some timeout, toggle := !b.link.toggle } }

section
variable {s : State} {u : UnitNo}

theorem acknowledged_idle (nothing : (s.unit u).next = none) : s.acknowledged u =
    s.modLink u fun l => { l with outstanding := none, ackTimer := none, toggle := !l.toggle } := by
  obtain ⟨held, pending⟩ : (s.unit u).link.held = none ∧ (s.unit u).pendingSetpoint = none := by
    simpa [UnitBlock.next] using nothing
  unfold State.acknowledged State.sendNext
  simp only [unit_modLink, if_true, held, pending]

theorem acknowledged_sends {d : Directive} (next : (s.unit u).next = some d) : s.acknowledged u =
    (s.setUnit u ((s.unit u).goesOn d s.supervision.ackTimeout)).emit u (.directive (!(s.unit u).link.toggle) d) := by
  unfold State.acknowledged State.sendNext
  simp only [unit_modLink, if_true]
  cases held : (s.unit u).link.held with
  | some x =>
    obtain rfl : x = d := by simpa [UnitBlock.next, held] using next
    simp [State.send, State.modLink, State.modUnit, UnitBlock.goesOn, held, setUnit_setUnit]
  | none =>
    obtain ⟨p, pending, rfl⟩ : ∃ p, (s.unit u).pendingSetpoint = some p ∧ Directive.setPower p = d := by
      simpa [UnitBlock.next, held] using next
    simp [State.send, State.modLink, State.modUnit, UnitBlock.goesOn, held, pending, setUnit_setUnit]

/-- What follows a matching ACK keeps the law: what waited goes out, or nothing waits any more. -/
theorem linkLaw_acknowledged (up : (s.unit u).link.state = .up) (l : s.LinkLaw) : (s.acknowledged u).LinkLaw := by
  obtain ⟨-, -, -, -, current, burst, silent, absent⟩ := l u
  cases next : (s.unit u).next with
  | none =>
    obtain ⟨held, pending⟩ : (s.unit u).link.held = none ∧ (s.unit u).pendingSetpoint = none := by
      simpa [UnitBlock.next] using next
    rw [acknowledged_idle next]
    exact linkLaw_modUnit l ⟨rfl, by simp [held], by simp [pending], nofun, current, burst, silent, absent⟩
  | some d =>
    rw [acknowledged_sends next]
    exact linkLaw_modUnit (f := fun b => b.goesOn d s.supervision.ackTimeout) l
      ⟨rfl, nofun, fun _ => rfl, fun _ => up, current, burst, silent, absent⟩

end

/-! ## Every step -/

theorem linkLaw_countMark {s : State} (l : s.LinkLaw) : s.countMark.LinkLaw := by
  intro u
  rw [unit_countMark]
  obtain ⟨ackTimer, held, waits, outstanding, current, burst, silent, absent⟩ := l u
  have runs : ∀ t : Option Nat, (countDown t).isSome = t.isSome := fun t => by cases t <;> rfl
  exact ⟨(runs _).trans ackTimer, held, waits, outstanding, current, (runs _).trans burst, silent, absent⟩

/-- At RESET and at power-on every link is DOWN with nothing on its way. -/
theorem linkLaw_of_reset {b : UnitBlock} {report : Option Report} (pending : b.pendingSetpoint = none)
    (link : b.link = { Link.reset with lastReport := report }) : b.LinkLaw := by
  constructor <;> simp [pending, link, Link.reset, LinkState.supervised]

/-- Every command keeps the law of the Unit Links. -/
theorem commands_keep_linkLaw : KeptByCommands State.LinkLaw where
  toKept := kept_linkLaw.toKept
  apart _ u _ b p := linkLaw_modUnit p (b.law (p u))
  acknowledged _ _ up p := linkLaw_acknowledged up p
  linkOut _ _ p := p
  silence _ g p := kept_linkLaw.silence g p
  named _ _ p := p
  latches _ _ p := p
  mask _ _ p := p
  due _ _ p := p
  time _ _ _ p := p
  trim _ _ _ p := p
  count _ p := linkLaw_countMark p
  telegram _ g bytes p := kept_linkLaw.telegram g bytes p
  waterwaySettings _ _ c _ p := kept_linkLaw.waterwaySettings c p
  gaugeSettings _ _ c _ p := kept_linkLaw.gaugeSettings c p
  eligible _ u _ p := linkLaw_modUnit p (p u).congr
  moved _ u _ _ p := kept_linkLaw.movedTo _ _ (linkLaw_modUnit p (p u).congr)
  converterSettings _ _ _ _ p := p
  supervisionSettings _ _ _ _ p := p
  mode _ _ p := p
  cleared s _ u := by
    rw [unit_cleared]
    exact linkLaw_of_reset rfl rfl
  port _ _ p := p
  portOut _ _ p := p
  powerOn s straps _ u := by
    have unit : (s.poweredOn straps).unit u = (State.reset.unit u).strapped (straps.getLsbD u) := by
      simp [State.unit, State.poweredOn, unitsAtPowerOn]
    rw [unit]
    have e : ∀ u, (State.reset.unit u).pendingSetpoint = none ∧ (State.reset.unit u).link = Link.reset := by decide
    obtain ⟨pending, link⟩ := e u
    exact linkLaw_of_reset (report := none) pending link

/-- Settles O59: the law is one that every elementary change keeps. -/
theorem stepKeepsLinks : Obligations.StepKeepsLinks := by
  intro s t h
  unfold step at h
  split at h
  · cases h; exact id
  · exact fun l => commands_keep_linkLaw.exec h l

end Sys2Proof.Machine
end

section
/-! # The frames of a Unit Link (R128, R131, R137 to R143) -/

namespace Sys2Proof.Machine

section
variable {s : State} {u : UnitNo}

/-! ## Events as commands -/

/-- What a command has sent so far is no part of a unit. -/
theorem quiet_unit : s.quiet.unit u = s.unit u := rfl

/-- The command of an event that is due: its effect. -/
theorem exec_due {c : Instr} {e : DueEvent} (event : eventOf c = some (·.takeDue e)) (due : e ∈ s.due) :
    exec c s = .next (e.effect (s.takes e)) := by
  rw [exec_event event, takeDue_quiet due]

/-- A frame from the panel of a present unit (R128). -/
theorem exec_fromPresent {c : Instr} {f : State → State} (event : eventOf c = some (·.fromPresent u f))
    (present : (s.unit u).present = true) : exec c s = .next (f s.quiet) := by
  rw [exec_event event]
  exact congrArg _ (if_pos present)

/-- A frame from the panel of an absent unit (R128). -/
theorem exec_fromAbsent {c : Instr} {f : State → State} (event : eventOf c = some (·.fromPresent u f))
    (absent : (s.unit u).present = false) : exec c s = .next s.quiet := by
  rw [exec_event event]
  exact congrArg _ (if_neg (by rw [quiet_unit, absent]; decide))

theorem supervised_iff (l : LinkState) : l.supervised = true ↔ l = .exchange ∨ l = .up := by
  cases l <;> simp [LinkState.supervised]

theorem modLink_modLink (f g : Link → Link) : (s.modLink u f).modLink u g = s.modLink u fun l => g (f l) := by
  unfold State.modLink
  rw [modUnit_modUnit]

/-- The link of a unit that has been written holds what was written. -/
theorem link_modLink (f : Link → Link) : ((s.modLink u f).unit u).link = f (s.unit u).link := by
  rw [unit_modLink, if_pos rfl]

/-- A frame error below the burst count, after a write of the link (R141). -/
theorem frameError_modLink {f : Link → Link} (below : (f (s.unit u).link).frameErrors + 1 < s.supervision.burstCount) :
    (s.modLink u f).frameError u = s.modLink u fun l => { f l with frameErrors := (f l).frameErrors + 1 } := by
  rw [frameError_counts (by rw [link_modLink]; exact below), modLink_modLink]

/-! ## The supervisions of a link (R128, R141, R142) -/

theorem helloDue_sends (present : (s.unit u).present = true) (state : (s.unit u).link.state = .down ∨ (s.unit u).link.state = .lost) :
    s.helloDue u = s.emit u .hello :=
  if_pos (by rcases state with state | state <;> simp [present, state])

theorem burstExpired_clears (timer : (s.unit u).link.burstTimer = some 0) : s.burstExpired u =
    s.modLink u fun l => { l with frameErrors := 0, burstTimer := some s.supervision.burstWindow } := if_pos timer

/-- A frame came between the last two marks (R142). -/
theorem silenceLook_heard (supervised : (s.unit u).link.state.supervised = true) (heard : (s.unit u).link.heardBefore = true) :
    s.silenceLook u = s.modLink u fun l => { l with silenceCount := 0, silent := false } := by
  rw [State.silenceLook, if_pos supervised, if_pos heard]

/-- No frame came, and the hold is not reached yet (R142). -/
theorem silenceLook_counts (supervised : (s.unit u).link.state.supervised = true) (unheard : (s.unit u).link.heardBefore = false)
    (below : (s.unit u).link.silenceCount + 1 < s.supervision.silenceHold) :
    s.silenceLook u = s.modLink u fun l => { l with silenceCount := l.silenceCount + 1, silent := !l.heard } := by
  rw [State.silenceLook, if_pos supervised, if_neg (by simp [unheard])]
  exact if_neg (by rw [link_modLink]; exact not_le.2 below)

end

/-- Settles O46: each event by the one branch of its supervision. -/
theorem linkSupervised : Obligations.LinkSupervised := by
  intro s u
  refine ⟨fun due present state => ?hello, fun due timer => ?burst, fun out => ?bad, fun absent => ?absent,
    fun present state below => ?counted, fun due state => ⟨fun heard => ?heard, fun unheard below => ?unheard⟩⟩
  case hello =>
    rw [exec_due rfl due]
    exact congrArg _ (helloDue_sends present state)
  case burst =>
    rw [exec_due rfl due]
    exact congrArg _ (burstExpired_clears timer)
  case bad =>
    cases present : (s.unit u).present with
    | false => exact exec_fromAbsent rfl present
    | true =>
      have unsupervised : ¬ (s.unit u).link.state.supervised = true := by
        rw [supervised_iff]
        rintro (state | state) <;> simp [present, state] at out
      rw [exec_fromPresent rfl present]
      exact congrArg _ (if_neg unsupervised)
  case absent =>
    exact ⟨fun p => exec_fromAbsent rfl absent, fun r => exec_fromAbsent rfl absent,
      fun kind toggle => exec_fromAbsent rfl absent⟩
  case counted =>
    rw [exec_fromPresent rfl present]
    exact congrArg _ ((if_pos ((supervised_iff _).2 state)).trans (frameError_counts below))
  case heard =>
    rw [exec_due rfl due]
    exact congrArg _ (silenceLook_heard ((supervised_iff _).2 state) heard)
  case unheard =>
    rw [exec_due rfl due]
    exact congrArg _ (silenceLook_counts ((supervised_iff _).2 state) unheard below)

/-! ## Pages judged by Table 7-3 (R131) -/

theorem startsCollection_iff (p : Page) : startsCollection p = true ↔ p.contents.number = 0 ∧ p.more = 1 := by
  simp [startsCollection]

/-- The page that follows the last one taken (Table 7-3, third row). -/
theorem followsLast_iff (last : Option (Nat × Byte)) (p : Page) : followsLast last p = true ↔
    ∃ n t, last = some (n, t) ∧ p.contents.number = n + 1 ∧ p.toggle ≠ t ∧
      p.more = if p.contents.number = 4 then 0 else 1 := by
  cases last with
  | none => simp [followsLast]
  | some x =>
    obtain ⟨n, t⟩ := x
    constructor
    · intro follows
      simp only [followsLast, moreRight, Bool.and_eq_true, beq_iff_eq, bne_iff_ne] at follows
      obtain ⟨⟨number, toggle⟩, more⟩ := follows
      exact ⟨n, t, rfl, number, toggle, more⟩
    · rintro ⟨_, _, ⟨⟩, number, toggle, more⟩
      simp only [followsLast, moreRight, Bool.and_eq_true, beq_iff_eq, bne_iff_ne]
      exact ⟨⟨number, toggle⟩, more⟩

section
variable {s : State} {u : UnitNo} {p : Page}

theorem judgePage_again (again : (s.unit u).link.lastPage = some (p.contents.number, p.toggle)) : s.judgePage u p = s.ackPage u p :=
  if_pos again

theorem judgePage_starts (new : (s.unit u).link.lastPage ≠ some (p.contents.number, p.toggle)) (starts : startsCollection p = true) :
    s.judgePage u p = s.takePage u p [] := by
  rw [State.judgePage, if_neg new, if_pos starts]

/-- The page that follows the last one is taken, and the fifth completes the record (R131, R132). -/
theorem judgePage_follows (new : (s.unit u).link.lastPage ≠ some (p.contents.number, p.toggle))
    (starts : ¬ startsCollection p = true) (follows : followsLast (s.unit u).link.lastPage p = true) {ps : List Page}
    (collecting : (s.unit u).link.collecting = some ps) : s.judgePage u p =
      if p.contents.number = 4 then (s.takePage u p ps).completeRecord u (ps ++ [p]) else s.takePage u p ps := by
  rw [State.judgePage, if_neg new, if_neg starts, if_pos follows, collecting]
  rfl

theorem judgePage_outOfSequence (new : (s.unit u).link.lastPage ≠ some (p.contents.number, p.toggle))
    (starts : ¬ startsCollection p = true) (follows : ¬ followsLast (s.unit u).link.lastPage p = true) :
    s.judgePage u p = s.outOfSequence u := by
  rw [State.judgePage, if_neg new, if_neg starts, if_neg follows]

theorem pageReceived_supervised (supervised : (s.unit u).link.state.supervised = true) :
    s.pageReceived u p = (s.validFrame u).judgePage u p := if_pos supervised

/-- PAGE 0 out of EXCHANGE and UP: the link enters EXCHANGE and the page is taken (R128, R129). -/
theorem pageReceived_enters (unsupervised : ¬ (s.unit u).link.state.supervised = true) (starts : startsCollection p = true) :
    s.pageReceived u p = (s.modLink u fun l => l.enterExchange s.supervision.burstWindow).takePage u p [] := by
  rw [State.pageReceived, if_neg unsupervised, if_pos starts]
  exact judgePage_starts (by rw [link_modLink]; exact nofun) starts

end

/-- Settles O48: the four rows of Table 7-3, and the page that starts an exchange. -/
theorem pageJudged : Obligations.PageJudged := by
  rintro s u p l present rfl
  rw [exec_fromPresent rfl present]
  refine ⟨fun state => ⟨fun again => ?again, fun ps short new taken => ?taken, fun new starts other below => ?other⟩,
    fun state => ?_⟩
  case again =>
    rw [pageReceived_supervised (s := s.quiet) ((supervised_iff _).2 state),
      judgePage_again (by rw [State.validFrame, link_modLink]; exact again)]
    rfl
  case taken =>
    rw [pageReceived_supervised (s := s.quiet) ((supervised_iff _).2 state)]
    have valid : ((s.quiet.validFrame u).unit u).link = { (s.unit u).link with heard := true, silent := false } := link_modLink _
    have result : (s.quiet.validFrame u).judgePage u p = (s.quiet.validFrame u).takePage u p ps := by
      rcases taken with ⟨number, more, rfl⟩ | ⟨number, more, collecting, toggle, last, flips⟩
      · exact judgePage_starts (by rw [valid]; exact new) ((startsCollection_iff p).2 ⟨number, more⟩)
      · rw [judgePage_follows (by rw [valid]; exact new) (by rw [startsCollection_iff]; exact fun x => number x.1)
          (by rw [valid, followsLast_iff]
              exact ⟨_, toggle, last, by omega, flips.symm, by rw [if_neg (by omega), more]⟩)
          (by rw [valid]; exact collecting), if_neg (by omega)]
    rw [result]
    exact congrArg (fun x : State => Host.Outcome.next (x.ackPage u p)) (modLink_modLink _ _)
  case other =>
    rw [pageReceived_supervised (s := s.quiet) ((supervised_iff _).2 state)]
    have valid : ((s.quiet.validFrame u).unit u).link = { (s.unit u).link with heard := true, silent := false } := link_modLink _
    rw [judgePage_outOfSequence (by rw [valid]; exact new) (by rw [startsCollection_iff]; exact starts)]
    · rw [State.outOfSequence, State.validFrame, modLink_modLink]
      exact congrArg _ (frameError_modLink below)
    · rw [valid, followsLast_iff]
      rintro ⟨n, toggle, last, number, flips, more⟩
      rcases other n toggle last with x | x | x
      exacts [x number, flips x, x more]
  have unsupervised : ¬ (s.unit u).link.state.supervised = true := by
    rcases state with state | state | state <;> simp [state, LinkState.supervised]
  refine ⟨fun number more => ?enters, fun starts => ?discarded⟩
  case enters =>
    rw [pageReceived_enters (s := s.quiet) unsupervised ((startsCollection_iff p).2 ⟨number, more⟩), State.takePage,
      State.ackPage, number, modLink_modLink]
    rfl
  case discarded =>
    rw [State.pageReceived, quiet_unit, if_neg unsupervised, if_neg (by rw [startsCollection_iff]; exact starts)]

/-! ## ACKs judged by Table 7-5 (R137, R138, R143) -/

section
variable {s : State} {u : UnitNo} {kind toggle : Byte}

theorem judgeAck_other (other : toggle ≠ toggleByte (s.unit u).link.toggle) : s.judgeAck u kind toggle = s := if_pos other

theorem judgeAck_matching {d : Directive} (right : toggle = toggleByte (s.unit u).link.toggle)
    (outstanding : (s.unit u).link.outstanding = some d) (code : d.code = kind.toNat) :
    s.judgeAck u kind toggle = s.acknowledged u := by
  rw [State.judgeAck, if_neg (not_not.2 right), outstanding]
  exact if_pos code

theorem judgeAck_wrong (right : toggle = toggleByte (s.unit u).link.toggle)
    (wrong : ∀ d, (s.unit u).link.outstanding = some d → d.code ≠ kind.toNat) : s.judgeAck u kind toggle = s.frameError u := by
  rw [State.judgeAck, if_neg (not_not.2 right)]
  cases outstanding : (s.unit u).link.outstanding with
  | none => rfl
  | some d => exact if_neg (wrong d outstanding)

end

/-- Settles O50: the rows of Table 7-5, and what a matching ACK sends. -/
theorem ackJudged : Obligations.AckJudged := by
  rintro s u kind toggle b present rfl
  rw [exec_fromPresent rfl present]
  have received : (s.unit u).link.state = .up →
      s.quiet.ackReceived u kind toggle = (s.quiet.validFrame u).judgeAck u kind toggle := fun up => by
    rw [State.ackReceived, quiet_unit, up]
  have valid : (s.quiet.validFrame u).unit u = { s.unit u with link := { (s.unit u).link with heard := true, silent := false } } :=
    (unit_modLink ..).trans (if_pos rfl)
  refine ⟨fun state => ?unsupervised, fun state => ?only, fun up right => ?_⟩
  case unsupervised => rcases state with state | state | state <;> rw [State.ackReceived, quiet_unit, state]
  case only =>
    rcases state with state | ⟨up, other⟩
    · rw [State.ackReceived, quiet_unit, state]
      rfl
    · rw [received up, judgeAck_other (by rw [valid]; exact other)]
      rfl
  rw [received up]
  refine ⟨fun wrong below => ?_, fun d outstanding code => ?_⟩
  · rw [judgeAck_wrong (by rw [valid]; exact right) (by rw [valid]; exact wrong)]
    exact congrArg _ (frameError_modLink below)
  rw [judgeAck_matching (by rw [valid]; exact right) (by rw [valid]; exact outstanding) code]
  refine ⟨fun held pending => ?_, fun next waits => ?_⟩
  · rw [acknowledged_idle (by rw [valid, UnitBlock.next, held, pending]; rfl)]
    exact congrArg _ (modLink_modLink _ _)
  · have sends : ((s.quiet.validFrame u).unit u).next = some next := by
      rw [valid, UnitBlock.next]
      rcases waits with held | ⟨held, p, pending, rfl⟩
      · rw [held]; rfl
      · rw [held, pending]; rfl
    rw [acknowledged_sends sends, valid, State.validFrame, State.modLink, State.modUnit, setUnit_setUnit]
    rfl

end Sys2Proof.Machine
end

section
/-! # What grants leave alone (R69 to R71, R77, R95 to R100, R109, R110) -/

namespace Sys2Proof.Machine

/-! ## A unit that is steered -/

/-- Of a unit there differ only the directives on its link and the setpoint in waiting, the working values of a start or stop under
way, and the two indications. -/
def UnitBlock.Steered (b c : UnitBlock) : Prop :=
  ∃ outstanding held ackTimer pending supervision motion converter saturated outside,
    c = { b with
      link := { b.link with outstanding := outstanding, held := held, ackTimer := ackTimer }
      pendingSetpoint := pending
      supervision := supervision
      motion := motion
      lastConverter := converter
      saturated := saturated
      headOutside := outside }

namespace UnitBlock.Steered

variable {b c d : UnitBlock}

theorem refl (b : UnitBlock) : b.Steered b := ⟨_, _, _, _, _, _, _, _, _, rfl⟩

theorem trans (x : b.Steered c) (y : c.Steered d) : b.Steered d := by
  obtain ⟨_, _, _, _, _, _, _, _, _, rfl⟩ := x
  obtain ⟨_, _, _, _, _, _, _, _, _, rfl⟩ := y
  exact ⟨_, _, _, _, _, _, _, _, _, rfl⟩

variable (same : b.Steered c)
include same

theorem present : c.present = b.present := by obtain ⟨_, _, _, _, _, _, _, _, _, rfl⟩ := same; rfl
theorem waterway : c.waterway = b.waterway := by obtain ⟨_, _, _, _, _, _, _, _, _, rfl⟩ := same; rfl
theorem context : c.context = b.context := by obtain ⟨_, _, _, _, _, _, _, _, _, rfl⟩ := same; rfl
theorem contribution : c.contribution = b.contribution := by obtain ⟨_, _, _, _, _, _, _, _, _, rfl⟩ := same; rfl
theorem setpoint : c.setpoint = b.setpoint := by obtain ⟨_, _, _, _, _, _, _, _, _, rfl⟩ := same; rfl
theorem state : c.link.state = b.link.state := by obtain ⟨_, _, _, _, _, _, _, _, _, rfl⟩ := same; rfl
theorem current : c.link.current = b.link.current := by obtain ⟨_, _, _, _, _, _, _, _, _, rfl⟩ := same; rfl
theorem lostLatch : c.link.lostLatch = b.link.lostLatch := by obtain ⟨_, _, _, _, _, _, _, _, _, rfl⟩ := same; rfl
theorem lastReport : c.link.lastReport = b.link.lastReport := by obtain ⟨_, _, _, _, _, _, _, _, _, rfl⟩ := same; rfl
theorem sinceUp : c.link.sinceUp = b.link.sinceUp := by obtain ⟨_, _, _, _, _, _, _, _, _, rfl⟩ := same; rfl
theorem silent : c.link.silent = b.link.silent := by obtain ⟨_, _, _, _, _, _, _, _, _, rfl⟩ := same; rfl

end UnitBlock.Steered

section
variable {s t a : State}

/-- A unit written so that it is steered. -/
theorem steered_modUnit (u : UnitNo) {f : UnitBlock → UnitBlock} (steers : (s.unit u).Steered (f (s.unit u))) (v : UnitNo) :
    (s.unit v).Steered ((s.modUnit u f).unit v) := by
  rw [unit_modUnit]
  split
  · next same => subst same; exact steers
  · exact .refl _

/-- A directive asked for steers its unit (R138). -/
theorem steered_ask (u : UnitNo) (d : Directive) (v : UnitNo) : (s.unit v).Steered ((s.ask u d).unit v) := by
  unfold State.ask
  dsimp only
  split
  · exact .refl _
  split
  · rw [unit_send]
    split
    · next same => subst same; exact ⟨_, _, _, _, _, _, _, _, _, rfl⟩
    · exact .refl _
  split
  · split
    · exact .refl _
    · exact steered_modUnit u ⟨_, _, _, _, _, _, _, _, _, rfl⟩ v
  · exact steered_modUnit u ⟨_, _, _, _, _, _, _, _, _, rfl⟩ v

theorem State.OnlyMarks.steered (marks : s.OnlyMarks t) (v : UnitNo) : (s.unit v).Steered (t.unit v) := by
  obtain ⟨_, _, unit⟩ := marks.unit v
  rw [unit]
  exact ⟨_, _, _, _, _, _, _, _, _, rfl⟩

/-! ## Converters granted to other orders (R95 to R99) -/

/-- What the grants of converters to other orders leave alone: the record, every unit but for its steering, and every waterway. -/
structure State.Spares (s t : State) (h : Handle) : Prop where
  order : t.order? h = s.order? h
  unit : ∀ v, (s.unit v).Steered (t.unit v)
  waterway : ∀ w, t.waterway w = s.waterway w

namespace State.Spares

variable {h : Handle}

theorem refl (s : State) (h : Handle) : s.Spares s h := ⟨rfl, fun _ => .refl _, fun _ => rfl⟩

theorem trans (x : s.Spares a h) (y : a.Spares t h) : s.Spares t h :=
  ⟨y.order.trans x.order, fun v => (x.unit v).trans (y.unit v), fun w => (y.waterway w).trans (x.waterway w)⟩

theorem setConverterState (s : State) (c : ConverterNo) (st : ConverterState) : s.Spares (s.setConverterState c st) h :=
  ⟨rfl, fun _ => .refl _, fun _ => rfl⟩

theorem modConverter (s : State) (c : ConverterNo) (f : Converter → Converter) : s.Spares (s.modConverter c f) h :=
  ⟨rfl, fun _ => .refl _, fun _ => rfl⟩

theorem ask (s : State) (u : UnitNo) (d : Directive) : s.Spares (s.ask u d) h :=
  ⟨ask_order? .., steered_ask u d, ask_waterway d⟩

theorem grantConverter (c : ConverterNo) {e : StartEntry} (other : e.handle ≠ h) : s.Spares (s.grantConverter c e) h := by
  have lent : s.Spares (s.converterLent c e) h :=
    ⟨rfl, steered_modUnit (s := s) e.unit (f := fun b => { b with lastConverter := some c, motion := false })
      ⟨_, _, _, _, _, _, _, _, _, rfl⟩, fun _ => rfl⟩
  have granted : s.grantConverter c e = match (s.converterLent c e).order? e.handle with
    | none => s.converterLent c e
    | some r =>
      ((s.converterLent c e).modOrder e.handle fun r => { r with attempts := r.attempts + 1, life := .starting .converterRun }).ask
        e.unit (if r.mode = .pump then .startPump c else .startCondenseP c) := rfl
  rw [granted]
  split
  · exact lent
  · refine lent.trans (.trans ⟨?_, fun v => ?_, fun w => ?_⟩ (ask _ _ _))
    · rw [order?_modOrder, if_neg other.symm]
    · rw [modOrder_unit]; exact .refl _
    · rw [modOrder_waterway]

theorem walk {es : List StartEntry} (others : ∀ e ∈ es, e.handle ≠ h) (s : State) : s.Spares (es.foldl State.walkEntry s) h := by
  induction es generalizing s with
  | nil => exact refl s h
  | cons e es ih =>
    have entry : s.Spares (s.walkEntry e) h := by
      unfold State.walkEntry
      split
      · exact grantConverter _ (others e (.head _))
      · exact refl s h
    exact entry.trans (ih (fun x hx => others x (.tail _ hx)) _)

variable {g : Handle} (absent : ∀ e ∈ s.startQueue, e.handle ≠ h)
include absent

theorem cooled (c : ConverterNo) : s.Spares (s.cooled c) h := by
  unfold State.cooled
  split
  · exact setConverterState s c _
  · exact (setConverterState s c _).trans (walk absent _)

theorem endRun (c : ConverterNo) : s.Spares (s.endRun c) h := by
  unfold State.endRun State.startCooling
  split
  · exact (modConverter s c _).trans (setConverterState _ c _)
  · dsimp only
    split
    · exact (setConverterState s c _).trans (cooled (s := s.setConverterState c _) absent c)
    · exact setConverterState s c _

/-- The release of a converter is no matter of an order that is not in the start queue (R97 to R99). -/
theorem releaseConverter : s.Spares (s.releaseConverter g) h := by
  unfold State.releaseConverter
  split
  · exact endRun absent _
  · exact refl s h

end State.Spares

/-! ## Grants of a gate (R109, R110) -/

/-- A record as a grant of one of the entries may leave it: in RUNUP, or, from STOPPING, in RUNDOWN (R69, R71, R77). -/
def Order.GrantedBy (q : List GateEntry) (k : Handle) (r r' : Order) : Prop :=
  r' = r ∨ ∃ e ∈ q, e.handle = k ∧
    ((e.kind = .start ∧ r' = { r with life := .starting .runup }) ∨ (e.kind = .stop ∧ r' = r.toRundown))

theorem Order.GrantedBy.mono {p q : List GateEntry} {k : Handle} {r r' : Order} (sub : ∀ e ∈ p, e ∈ q)
    (granted : r.GrantedBy p k r') : r.GrantedBy q k r' :=
  granted.imp id fun ⟨e, he, x⟩ => ⟨e, sub e he, x⟩

theorem Order.toRundown_eq (r : Order) : ∃ l, r.toRundown = { r with life := l } ∧ l.isStopping = r.life.isStopping ∧
    (l = r.life ∨ ∃ c, l = .stopping .rundown c) := by
  unfold Order.toRundown
  split
  · next life => exact ⟨_, rfl, by rw [life]; rfl, .inr ⟨_, rfl⟩⟩
  · exact ⟨_, rfl, rfl, .inl rfl⟩

/-- What the grants of a gate leave: records in RUNUP and RUNDOWN, steered units, and the gate's queue and spacing. -/
structure State.Grants (s t : State) (w : WaterwayNo) : Prop where
  order : ∀ k, Option.Rel (Order.GrantedBy (s.waterway w).queue k) (s.order? k) (t.order? k)
  unit : ∀ v, (s.unit v).Steered (t.unit v)
  own : ∃ q sp, q.Sublist (s.waterway w).queue ∧
    (sp = (s.waterway w).spacing ∨ sp = if (s.waterway w).spacingTime = 0 then none else some (s.waterway w).spacingTime) ∧
    t.waterway w = { s.waterway w with queue := q, spacing := sp }
  others : ∀ v, v ≠ w → t.waterway v = s.waterway v

/-- Without an entry of its own a record stands. -/
theorem Order.GrantedBy.eq {q : List GateEntry} {k : Handle} (absent : ∀ e ∈ q, e.handle ≠ k) {x y : Option Order}
    (granted : Option.Rel (Order.GrantedBy q k) x y) : y = x := by
  cases granted with
  | none => rfl
  | some same =>
    rcases same with rfl | ⟨e, he, own, -⟩
    · rfl
    · exact absurd own (absent e he)

namespace State.Grants

variable {w : WaterwayNo}

theorem ofMarks (marks : s.OnlyMarks t) : s.Grants t w where
  order k := by
    rw [marks.order]
    cases s.order? k with
    | none => exact .none
    | some r => exact .some (.inl rfl)
  unit := marks.steered
  own := ⟨_, _, .refl _, .inl rfl, marks.waterway w⟩
  others v _ := marks.waterway v

theorem afterMarks (marks : s.OnlyMarks a) (grants : a.Grants t w) : s.Grants t w where
  order k := by have order := grants.order k; rwa [marks.waterway, marks.order] at order
  unit v := (marks.steered v).trans (grants.unit v)
  own := by have own := grants.own; rwa [marks.waterway] at own
  others v other := (grants.others v other).trans (marks.waterway v)

/-- One grant: the entry's record, the steering of a unit, and the entry gone. -/
structure One (s t : State) (w : WaterwayNo) (e : GateEntry) : Prop where
  order : Option.Rel (Order.GrantedBy [e] e.handle) (s.order? e.handle) (t.order? e.handle)
  others : ∀ k, k ≠ e.handle → t.order? k = s.order? k
  unit : ∀ v, (s.unit v).Steered (t.unit v)
  waterway : ∀ v, t.waterway v = (s.entryGone w e).waterway v

theorem startGranted (s : State) (h : Handle) :
    (s.startGranted h).order? h = (s.order? h).map (fun r => { r with life := .starting .runup }) ∧
    (∀ k, k ≠ h → (s.startGranted h).order? k = s.order? k) ∧ (∀ v, (s.unit v).Steered ((s.startGranted h).unit v)) ∧
    ∀ v, (s.startGranted h).waterway v = s.waterway v := by
  cases hr : s.order? h with
  | none =>
    have idle : s.startGranted h = s := by unfold State.startGranted; rw [hr]
    rw [idle]
    exact ⟨hr, fun _ _ => rfl, fun _ => .refl _, fun _ => rfl⟩
  | some r =>
    obtain ⟨m, acted⟩ := startGranted_eq hr
    rw [acted]
    refine ⟨by simp [hr], fun k other => by simp [other], fun v => ?_, fun v => by simp⟩
    refine .trans ?_ (steered_ask _ _ v)
    have steered := steered_modUnit (s := s.modOrder h fun r => { r with life := .starting .runup }) r.unit
      (f := fun b => { b with motion := m b, supervision := some (s.startTime r.unit r.mode) }) ⟨_, _, _, _, _, _, _, _, _, rfl⟩ v
    rwa [modOrder_unit] at steered

theorem steered_stopGranted (s : State) (h : Handle) (v : UnitNo) : (s.unit v).Steered ((s.stopGranted h).unit v) := by
  unfold State.stopGranted
  split
  · exact .refl _
  · next r hr =>
    split
    · refine .trans ?_ (steered_ask _ _ v)
      have steered := steered_modUnit (s := s.modOrder h fun r => { r with life := .stopping .rundown ‹_› }) r.unit
        (f := fun b => { b with supervision := some (s.rundownTime r.unit r.mode) }) ⟨_, _, _, _, _, _, _, _, _, rfl⟩ v
      rwa [modOrder_unit] at steered
    · exact .refl _

theorem one (s : State) (w : WaterwayNo) (e : GateEntry) : One s (s.grantGate w e) w e := by
  cases kind : e.kind with
  | start =>
    have granted : s.grantGate w e = (s.entryGone w e).startGranted e.handle := by unfold State.grantGate; rw [kind]; rfl
    obtain ⟨own, others, unit, waterway⟩ := startGranted (s.entryGone w e) e.handle
    rw [granted]
    refine ⟨?_, others, unit, waterway⟩
    rw [own, show (s.entryGone w e).order? e.handle = s.order? e.handle from rfl]
    cases s.order? e.handle with
    | none => exact .none
    | some r => exact .some (.inr ⟨e, .head _, rfl, .inl ⟨kind, rfl⟩⟩)
  | stop =>
    have granted : s.grantGate w e = (s.entryGone w e).stopGranted e.handle := by unfold State.grantGate; rw [kind]; rfl
    rw [granted]
    refine ⟨?_, fun k other => ?_, steered_stopGranted (s.entryGone w e) e.handle, stopGranted_waterway _⟩
    · rw [stopGranted_order?, if_pos rfl, show (s.entryGone w e).order? e.handle = s.order? e.handle from rfl]
      cases s.order? e.handle with
      | none => exact .none
      | some r => exact .some (.inr ⟨e, .head _, rfl, .inr ⟨kind, rfl⟩⟩)
    · rw [stopGranted_order?, if_neg other]; rfl

/-- One grant, and those after it. -/
theorem andThen {e : GateEntry} (he : e ∈ (s.waterway w).queue) (first : One s a w e) (rest : a.Grants t w) : s.Grants t w := by
  have own : a.waterway w = (s.entryGone w e).waterway w := first.waterway w
  rw [State.entryGone, waterway_modWaterway, if_pos rfl] at own
  have gone : (a.waterway w).queue = withoutGate e.handle (s.waterway w).queue := by rw [own]
  have sub : ∀ x ∈ (a.waterway w).queue, x ∈ (s.waterway w).queue := by
    rw [gone]; exact fun x hx => List.mem_of_mem_filter hx
  refine ⟨fun k => ?_, fun v => (first.unit v).trans (rest.unit v), ?_, fun v other => ?_⟩
  · by_cases same : k = e.handle
    · subst same
      have stays : t.order? e.handle = a.order? e.handle := by
        refine Order.GrantedBy.eq (fun x hx => ?_) (rest.order e.handle)
        rw [gone] at hx
        simpa using List.of_mem_filter hx
      rw [stays]
      have granted := first.order
      revert granted
      cases s.order? e.handle <;> cases a.order? e.handle <;> intro granted <;> cases granted
      · exact .none
      · next granted => exact .some (granted.mono (by simpa using he))
    · rw [← first.others k same]
      have granted := rest.order k
      revert granted
      cases a.order? k <;> cases t.order? k <;> intro granted <;> cases granted
      · exact .none
      · next granted => exact .some (granted.mono sub)
  · obtain ⟨q, sp, sublist, spacing, after⟩ := rest.own
    rw [own] at after spacing
    rw [gone] at sublist
    exact ⟨q, sp, sublist.trans List.filter_sublist, .inr (spacing.elim id id), after⟩
  · rw [rest.others v other, first.waterway, State.entryGone, waterway_modWaterway, if_neg other.symm]

theorem gateLoop (n : Nat) (s : State) : s.Grants (State.gateLoop w n s) w := by
  induction n generalizing s with
  | zero => exact ofMarks (.refl s)
  | succ n ih =>
    obtain ⟨a, marks, turn⟩ := gateLoop_succ w n s
    rw [turn]
    split
    · exact ofMarks marks
    · next e found =>
      have he : e ∈ (a.waterway w).queue := by rw [marks.waterway]; exact List.mem_of_find?_eq_some found
      refine afterMarks marks (andThen he (one a w e) ?_)
      split
      · exact ih _
      · exact ofMarks (.refl _)

theorem gateOpportunity (s : State) (w : WaterwayNo) : s.Grants (s.gateOpportunity w) w := by
  unfold State.gateOpportunity
  split
  · exact ofMarks (.refl s)
  · exact gateLoop _ s

/-- The live net flow stands, or is brought up to date, after which the gate may grant (R36, R109). -/
theorem updateFlow (s : State) (w : WaterwayNo) : ∃ a, (a = s ∨ a = s.refreshFlow w) ∧ a.Grants (s.updateFlow w) w := by
  unfold State.updateFlow
  split
  · exact ⟨s, .inl rfl, ofMarks (.refl s)⟩
  · exact ⟨_, .inr rfl, gateOpportunity _ w⟩

end State.Grants

end

end Sys2Proof.Machine
end

section
/-! # A link that is lost (R88, R141 to R145) -/

namespace Sys2Proof.Machine

/-! ## Released and ended with a gate that may grant (R83, R109) -/

section
variable {s : State} {h : Handle} {r : Order}

/-- The entries of the order have left the start queue and its gate (R83). -/
def State.withoutEntries (s : State) (h : Handle) (r : Order) : State :=
  (s.leaveStartQueue h).leaveGate (s.unit r.unit).waterway h

theorem withoutEntries_queue (s : State) (h : Handle) (r : Order) :
    ((s.withoutEntries h r).waterway (s.unit r.unit).waterway).queue = withoutGate h (s.waterway (s.unit r.unit).waterway).queue := by
  unfold State.withoutEntries State.leaveGate
  rw [waterway_modWaterway, if_pos rfl]
  rfl

/-- The items of an order that is no leg: its entries leave, and what is granted then is granted to others (R83). -/
theorem releaseItems_spares (single : r.partner = none) : ∃ a, (s.withoutEntries h r).Spares a h ∧
    s.releaseItems h r = a.modUnit r.unit UnitBlock.released := by
  have leg : ¬ (r.mode = .pump ∧ r.isPairLeg = true) := by simp [Order.isPairLeg, single]
  have absent : ∀ e ∈ (s.withoutEntries h r).startQueue, e.handle ≠ h := fun e he => by simpa using List.of_mem_filter he
  unfold State.releaseItems
  dsimp only
  rw [if_neg leg]
  split
  · exact ⟨_, .releaseConverter absent, rfl⟩
  · exact ⟨_, .refl _ h, rfl⟩

/-- The contribution of a present unit that is DARK stands (R35). -/
theorem recompute_dark {u : UnitNo} (present : (s.unit u).present = true) (dark : (s.unit u).context = .dark) :
    s.recompute u = s.updateFlow (s.unit u).waterway := by
  have stands : s.contributionOf u = none := by unfold State.contributionOf; simp [present, dark]
  unfold State.recompute State.refreshContribution
  rw [stands]

/-- The live net flow brought up to date, with no entry of the order in the gate: its record and the units stand, but for their
steering. -/
theorem updateFlow_spares {w : WaterwayNo} (absent : ∀ e ∈ (s.waterway w).queue, e.handle ≠ h) :
    (s.updateFlow w).order? h = s.order? h ∧ ∀ v, (s.unit v).Steered ((s.updateFlow w).unit v) := by
  obtain ⟨a, from_, grants⟩ := State.Grants.updateFlow s w
  have same : a.order? h = s.order? h ∧ (∀ v, a.unit v = s.unit v) ∧ (a.waterway w).queue = (s.waterway w).queue := by
    rcases from_ with rfl | rfl
    · exact ⟨rfl, fun _ => rfl, rfl⟩
    · refine ⟨rfl, fun _ => rfl, ?_⟩
      rw [State.refreshFlow, waterway_modWaterway, if_pos rfl]
  obtain ⟨order, unit, queue⟩ := same
  rw [← order]
  refine ⟨Order.GrantedBy.eq (by rw [queue]; exact absent) (grants.order h), fun v => ?_⟩
  rw [← unit v]
  exact grants.unit v

end

/-! ## The loss of a link with an engaged order (R88) -/

/-- The unit whose link has been left, before its context follows (R144). -/
def State.linkLeft (s : State) (u : UnitNo) (next : LinkState) : State :=
  (s.modUnit u fun b => { b with link := b.link.drop next, pendingSetpoint := none }).raise .linkChange

/-- What the loss of its link leaves of an engaged order, and of its unit (R88, R144, R149). -/
structure State.LosesOrder (s t : State) (u : UnitNo) (h : Handle) (r : Order) (next : LinkState) : Prop where
  record : t.order? h = some { r with life := .failed .linkLost s.plantTime, unseen := true }
  context : (t.unit u).context = .dark
  state : (t.unit u).link.state = next
  lostLatch : (t.unit u).link.lostLatch = ((s.unit u).link.lostLatch || next == .lost)
  contribution : (t.unit u).contribution = (s.unit u).contribution
  setpoint : (t.unit u).setpoint = none
  linkChange : t.latched .linkChange = true
  orderFailed : t.latched .orderFailed = true

section
variable {s : State} {u : UnitNo} {h : Handle} {r : Order} {next : LinkState}

theorem linkLeft_unit : (s.linkLeft u next).unit u =
    { s.unit u with link := (s.unit u).link.drop next, pendingSetpoint := none } := by
  unfold State.linkLeft
  rw [raise_unit, unit_modUnit, if_pos rfl]

theorem darken_engaged (context : (s.unit u).context = .engaged) (engaged : s.engagedOrder u = some (h, r)) :
    s.darken u = (s.endOrder h (.failed .linkLost)).finish := by
  unfold State.darken; rw [context, engaged]

theorem darken_idle (context : (s.unit u).context ≠ .engaged) : s.darken u = s.setContext u .dark := by
  unfold State.darken
  split
  · next engaged _ => exact absurd engaged context
  · rfl

/-- The table and the unit once an order has released its items and its record is closed as LINK_LOST (R83). -/
def State.lostOrder (s : State) (h : Handle) (r : Order) : State := ((s.releaseItems h r).unlink h).closeOrder h (.failed .linkLost)

/-- What a record closed as LINK_LOST leaves, whatever the converters then grant: its unit without the working values, and no entry of
its own in the gate. -/
structure State.ClosesLost (s b : State) (h : Handle) (r : Order) : Prop where
  record : b.order? h = some (r.into (.failed .linkLost s.plantTime))
  event : b.latched .orderFailed = true
  unit : (s.unit r.unit).released.Steered (b.unit r.unit)
  gate : ∀ e ∈ (b.waterway (s.unit r.unit).waterway).queue, e.handle ≠ h

theorem lostOrder_closes (hr : s.order? h = some r) (free : s.named = []) (single : r.partner = none) (last : r.successor = none)
    (stays : r.retirePending = false) : s.ClosesLost (s.lostOrder h r) h r := by
  obtain ⟨a, spares, items⟩ := releaseItems_spares (s := s) (h := h) single
  have clock := (kept_clock fun n _ _ l => n = s.plantTime ∧ l = []).toKept.releaseItems h r
    (show s.plantTime = s.plantTime ∧ s.named = [] from ⟨rfl, free⟩)
  obtain ⟨time, names⟩ : (s.releaseItems h r).plantTime = s.plantTime ∧ (s.releaseItems h r).named = [] := clock
  have record : (s.releaseItems h r).order? h = some r := by rw [items]; exact spares.order.trans hr
  have closed : (s.releaseItems h r).EndsIn (s.lostOrder h r) h r (.failed .linkLost) :=
    endsIn_closed names record stays (.failed .linkLost)
  refine ⟨?_, closed.event, ?_, fun e he => ?_⟩
  · rw [closed.record, Order.ended_last last, time]
    rfl
  · have unit : (s.lostOrder h r).unit r.unit = (a.unit r.unit).released := by
      unfold State.lostOrder
      rw [closeOrder_unit, unlink_unit, items, unit_modUnit, if_pos rfl]
    obtain ⟨_, _, _, _, _, _, _, _, _, same⟩ := spares.unit r.unit
    rw [unit, same]
    exact ⟨_, _, _, _, _, _, _, _, _, rfl⟩
  · unfold State.lostOrder at he
    rw [closeOrder_waterway, unlink_waterway, items, modUnit_waterway, spares.waterway, withoutEntries_queue] at he
    simpa using List.of_mem_filter he

/-- The engaged order of a present unit ends as LINK_LOST, whatever its phase and whatever its gate and the converters then grant: its
record is closed, and the unit is DARK and without its working values. -/
theorem endOrder_linkLost (present : (s.unit r.unit).present = true) (engaged : s.engagedOrder r.unit = some (h, r))
    (free : s.named = []) (single : r.partner = none) (last : r.successor = none) (stays : r.retirePending = false) :
    ∃ t, s.endOrder h (.failed .linkLost) = (t, []) ∧
      t.order? h = some (r.into (.failed .linkLost s.plantTime)) ∧ t.latched .orderFailed = true ∧
      ∃ m c, UnitBlock.Steered { (s.unit r.unit).released with context := .dark, motion := m, lastConverter := c } (t.unit r.unit) := by
  obtain ⟨hr, -, isEngaged⟩ := engagedOrder_some engaged
  have live : r.life.live = true := by revert isEngaged; cases r.life <;> simp [Life.live, Life.engaged]
  have closes := lostOrder_closes hr free single last stays
  let c := (s.lostOrder h r).setContext r.unit .dark
  have steered : UnitBlock.Steered { (s.unit r.unit).released with
      context := .dark, motion := (c.unit r.unit).motion, lastConverter := (c.unit r.unit).lastConverter } (c.unit r.unit) := by
    obtain ⟨_, _, _, _, _, _, _, _, _, same⟩ := closes.unit
    simp only [c]
    rw [unit_setContext, if_pos rfl, same]
    exact ⟨_, _, _, _, _, _, _, _, _, rfl⟩
  have home : (c.unit r.unit).waterway = (s.unit r.unit).waterway := steered.waterway
  have absent : ∀ e ∈ (c.waterway (c.unit r.unit).waterway).queue, e.handle ≠ h := by
    rw [home, setContext_waterway]
    exact closes.gate
  have ended : c.order? h = some (r.into (.failed .linkLost s.plantTime)) := (setContext_order? ..).trans closes.record
  have failed : c.latched .orderFailed = true := (kept_latched .orderFailed).toKept.setContext _ _ closes.event
  have result : s.endOrder h (.failed .linkLost) = (if r.life = .running then c.updateFlow (c.unit r.unit).waterway else c, []) := by
    rw [State.endOrder, hr]
    dsimp only
    rw [if_pos live, if_pos isEngaged, if_pos isEngaged, endTasks_last last, single, isEngaged,
      ← recompute_dark (s := c) (steered.present.trans present) steered.context]
    rfl
  refine ⟨_, result, ?_⟩
  split
  · obtain ⟨order, unit⟩ := updateFlow_spares absent
    exact ⟨order.trans ended, (kept_latched .orderFailed).updateFlow _ failed, _, _, steered.trans (unit r.unit)⟩
  · exact ⟨ended, failed, _, _, steered⟩

/-- The engaged order of the unit fails as LINK_LOST. -/
theorem loseLink_engaged (present : (s.unit u).present = true) (context : (s.unit u).context = .engaged)
    (engaged : s.engagedOrder u = some (h, r)) (free : s.named = []) (single : r.partner = none) (last : r.successor = none)
    (stays : r.retirePending = false) : s.LosesOrder (s.loseLink u next) u h r next := by
  obtain ⟨hr, rfl, isEngaged⟩ := engagedOrder_some engaged
  obtain ⟨t, ends, record, failed, m, c, steered⟩ := endOrder_linkLost (s := s.linkLeft r.unit next)
    (by rw [linkLeft_unit]; exact present) engaged free single last stays
  have lost : s.loseLink r.unit next = t := by
    have dark := darken_engaged (s := s.linkLeft r.unit next) (by rw [linkLeft_unit]; exact context) engaged
    rw [ends] at dark
    exact dark
  have change : t.latched .linkChange = true := by
    have kept := (kept_latched .linkChange).toKept.endOrder h (.failed .linkLost)
      (show (s.linkLeft r.unit next).latched .linkChange = true from (latched_raise ..).trans (by simp))
    rwa [ends] at kept
  rw [linkLeft_unit] at steered
  rw [lost]
  exact ⟨record, steered.context, steered.state, steered.lostLatch, steered.contribution, steered.setpoint, change, failed⟩

/-! ## The loss of a link without an engaged order (R144, R149) -/

/-- What the loss of its link leaves of a unit without an engaged order, and of the rest (R144, R149). -/
structure State.LosesLink (s t : State) (u : UnitNo) (next : LinkState) : Prop where
  unit : t.unit u = (s.unit u).disconnected next
  linkChange : t.latched .linkChange = true
  unitChange : (s.unit u).context ≠ .dark → t.latched .unitChange = true
  others : ∀ v, v ≠ u → t.unit v = s.unit v
  slots : t.slots = s.slots
  waterways : t.waterways = s.waterways
  linkOut : t.linkOut = s.linkOut

theorem setContext_raises (fresh : (s.unit u).context ≠ .dark) (context : (s.unit u).context ≠ .engaged) :
    (s.setContext u .dark).latched .unitChange = true := by
  unfold State.setContext
  dsimp only
  rw [if_neg (by simp [fresh, context]), latched_raise]
  simp

theorem loseLink_idle (context : (s.unit u).context ≠ .engaged) : s.LosesLink (s.loseLink u next) u next := by
  have lost : s.loseLink u next = (s.linkLeft u next).setContext u .dark :=
    darken_idle (s := s.linkLeft u next) (by rw [linkLeft_unit]; exact context)
  rw [lost]
  refine ⟨?_, ?_, fun fresh => ?_, fun v other => ?_, ?_, ?_, ?_⟩
  · rw [unit_setContext, if_pos rfl, linkLeft_unit]
    simp [context, UnitBlock.disconnected, Link.drop]
  · exact (kept_latched .linkChange).toKept.setContext _ _ ((latched_raise ..).trans (by simp))
  · exact setContext_raises (by rw [linkLeft_unit]; exact fresh) (by rw [linkLeft_unit]; exact context)
  · rw [unit_setContext, if_neg other.symm, State.linkLeft, raise_unit, unit_modUnit, if_neg other.symm]
  all_goals rw [setContext_frame]; rfl

/-! ## The three causes of a loss (R141 to R143) -/

theorem setUnit_unit (s : State) (u : UnitNo) : s.setUnit u (s.unit u) = s := by
  unfold State.setUnit State.unit
  rw [show s.units.set u s.units[u] = s.units from Vector.set_getElem_self _]

/-- The state in which a supervision finds that the link is lost: its counts as they have come to stand, nothing sent. -/
def State.overrun (s : State) (due : List DueEvent) (u : UnitNo) (count silence : Nat) (silent : Bool) : State :=
  State.modLink { s with due := due, linkOut := [], portOut := [] } u fun l =>
    { l with frameErrors := count, silenceCount := silence, silent := silent }

theorem overrun_unit (due : List DueEvent) (count silence : Nat) (silent : Bool) : (s.overrun due u count silence silent).unit u =
    { s.unit u with
      link := { (s.unit u).link with frameErrors := count, silenceCount := silence, silent := silent } } := by
  unfold State.overrun; rw [unit_modLink, if_pos rfl]; rfl

theorem overrun_other {v : UnitNo} (other : v ≠ u) (due : List DueEvent) (count silence : Nat) (silent : Bool) :
    (s.overrun due u count silence silent).unit v = s.unit v := by
  unfold State.overrun; rw [unit_modLink, if_neg other.symm]; rfl

/-- The ack timer expires (R143). -/
theorem ackExpired_loses (due : DueEvent.ack u ∈ s.due) (expired : (s.unit u).link.ackTimer = some 0)
    (supervised : (s.unit u).link.state.supervised = true) : exec (.ackTimerExpiry u) s = .next
      ((s.overrun (s.due.erase (.ack u)) u (s.unit u).link.frameErrors (s.unit u).link.silenceCount
        (s.unit u).link.silent).loseLink u .lost) := by
  rw [exec_due rfl due]
  have stands : s.takes (.ack u) = s.overrun (s.due.erase (.ack u)) u (s.unit u).link.frameErrors (s.unit u).link.silenceCount
      (s.unit u).link.silent := (setUnit_unit (s.takes (.ack u)) u).symm
  rw [← stands]
  exact congrArg _ (if_pos ⟨expired, supervised⟩)

/-- The silence count reaches the hold (R142). -/
theorem silenceLook_loses (due : DueEvent.linkSilence u ∈ s.due) (unheard : (s.unit u).link.heardBefore = false)
    (reached : s.supervision.silenceHold ≤ (s.unit u).link.silenceCount + 1)
    (supervised : (s.unit u).link.state.supervised = true) : exec (.linkSilenceCount u) s = .next
      ((s.overrun (s.due.erase (.linkSilence u)) u (s.unit u).link.frameErrors ((s.unit u).link.silenceCount + 1)
        (!(s.unit u).link.heard)).loseLink u .lost) := by
  rw [exec_due rfl due]
  refine congrArg _ ?_
  show (s.takes (.linkSilence u)).silenceLook u = _
  rw [State.silenceLook, takes_unit, if_pos supervised, if_neg (by simp [unheard])]
  exact if_pos (by rw [link_modLink]; exact reached)

/-- The frame errors reach the burst count (R141). -/
theorem frameBad_loses (present : (s.unit u).present = true)
    (reached : s.supervision.burstCount ≤ (s.unit u).link.frameErrors + 1)
    (supervised : (s.unit u).link.state.supervised = true) : exec (.linkFrameBad u) s = .next
      ((s.overrun s.due u ((s.unit u).link.frameErrors + 1) (s.unit u).link.silenceCount
        (s.unit u).link.silent).loseLink u .lost) := by
  rw [exec_fromPresent rfl present]
  refine congrArg _ ((if_pos supervised).trans ?_)
  exact if_pos (by rw [link_modLink]; exact reached)

end

/-- Settles O47: each cause reaches the loss of the link, which ends the engaged order or makes the unit DARK. -/
theorem linkLost : Obligations.LinkLost := by
  intro s u i count silence present state cause
  have supervised := (supervised_iff _).2 state
  obtain ⟨due, silent, lost⟩ : ∃ due silent, exec i s = .next ((s.overrun due u count silence silent).loseLink u .lost) := by
    rcases cause with ⟨rfl, due, expired, rfl, rfl⟩ | ⟨rfl, due, unheard, reached, rfl, rfl⟩ | ⟨rfl, reached, rfl, rfl⟩
    · exact ⟨_, _, ackExpired_loses due expired supervised⟩
    · exact ⟨_, _, silenceLook_loses due unheard reached supervised⟩
    · exact ⟨_, _, frameBad_loses present reached supervised⟩
  have unit := overrun_unit (s := s) (u := u) due count silence silent
  rw [lost]
  refine ⟨fun context => ?_, fun h r context engaged free single last stays => ?_⟩
  · have loses := loseLink_idle (s := s.overrun due u count silence silent) (u := u) (next := .lost) (by rw [unit]; exact context)
    refine ⟨_, _, rfl, rfl, ?_, loses.linkChange, fun fresh => loses.unitChange (by rw [unit]; exact fresh),
      fun v other => (loses.others v other).trans (overrun_other other ..), loses.slots, loses.waterways, loses.linkOut⟩
    rw [loses.unit, unit]
    rfl
  · have loses := loseLink_engaged (s := s.overrun due u count silence silent) (next := .lost) (by rw [unit]; exact present)
      (by rw [unit]; exact context) engaged free single last stays
    refine ⟨_, rfl, loses.record, loses.context, loses.state, ?_, ?_, loses.linkChange, loses.orderFailed⟩
    · rw [loses.lostLatch]; simp
    · rw [loses.contribution, unit]

end Sys2Proof.Machine
end

section
/-! # The requests about a Unit Link (R145, R146) -/

namespace Sys2Proof.Machine

/-! ## RELINK (R145) -/

section
variable {s : State} {u : UnitNo}

theorem relinkUnit_absent (absent : (s.unit u).present = false) : s.relinkUnit u = .refused .unitUnavailable :=
  if_pos (by simp [absent])

variable (present : (s.unit u).present = true)
include present

theorem relinkUnit_down (down : (s.unit u).link.state = .down) : s.relinkUnit u = .ok s [] := by
  unfold State.relinkUnit; rw [if_neg (by simp [present]), down]

theorem relinkUnit_idle (state : (s.unit u).link.state = .lost ∨ (s.unit u).link.state = .refused) : s.relinkUnit u =
    .ok ((s.modLink u fun l => { l with state := .down }).raise .linkChange) [] := by
  unfold State.relinkUnit; rw [if_neg (by simp [present])]
  rcases state with state | state <;> rw [state]

theorem relinkUnit_supervised (state : (s.unit u).link.state = .exchange ∨ (s.unit u).link.state = .up) :
    s.relinkUnit u = .ok (s.loseLink u .down) [] := by
  unfold State.relinkUnit; rw [if_neg (by simp [present])]
  rcases state with state | state <;> rw [state]

end

section
variable {s : State} {tag : Byte} {body : List Byte} {u : UnitNo} (length : body.length = 1) (named : byteAt body 0 = BitVec.ofNat 8 u)
include length named

theorem exec_relink :
    exec (.relink tag body) s = .next (s.delivered 16 tag 6 ((s.frameEnded (requestFrame 16 tag body)).relinkUnit u)) := by
  have carried := exec_carried (c := .relink tag body) rfl (s := s) (by cases s.mode <;> rfl) length
  simpa only [ownerOf, named, unitOf_some, withField, length] using carried

theorem exec_linkStatus :
    exec (.linkStatus tag body) s = .next (s.delivered 15 tag 6 ((s.frameEnded (requestFrame 15 tag body)).linkStatus u)) := by
  have carried := exec_carried (c := .linkStatus tag body) rfl (s := s) (by cases s.mode <;> rfl) length
  simpa only [ownerOf, named, unitOf_some, withField, length] using carried

end

/-! ## The body of LINK_STATUS (R146, Table 12-8) -/

/-- The items of LINK_STATUS. -/
def Link.statusItems (l : Link) : List (List Byte) :=
  [beBytes 1 l.state.code,
    beBytes 1 (bitsOf [l.lostLatch, l.silent, l.pendingExchange, l.current.isSome, l.refusal.isSome, l.burstTimer.isSome,
      l.outstanding.isSome, l.held.isSome]),
    optBytes 1 (l.refusal.map RefusalReason.code), beBytes 1 l.frameErrors, optBytes 2 l.burstTimer, beBytes 1 l.silenceCount,
    boolByte l.toggle, optBytes 1 (l.outstanding.map Directive.code), optBytes 2 l.ackTimer,
    optBytes 1 (l.held.map Directive.code), beBytes 1 l.pendingPages]

theorem linkStatusBody_eq (l : Link) : l.statusBody = l.statusItems.flatten := by
  simp [Link.statusBody, Link.statusItems]

theorem length_linkStatusItems (l : Link) : l.statusItems.map List.length = [1, 1, 1, 1, 2, 1, 1, 1, 2, 1, 1] := by
  simp [Link.statusItems, boolByte]

theorem pendingExchange_iff (l : Link) : l.pendingExchange = true ↔ l.state = .up ∧ l.collecting ≠ none := by
  simp [Link.pendingExchange, Option.isSome_iff_ne_none]

/-- The 13 bytes of LINK_STATUS, item by item. -/
theorem linkStatusBody_items (l : Link) :
    l.statusBody.length = 13 ∧ l.statusBody.take 1 = beBytes 1 l.state.code ∧
    (List.range 8).map (byteAt l.statusBody 1).getLsbD =
      [l.lostLatch, l.silent, l.pendingExchange, l.current.isSome, l.refusal.isSome, l.burstTimer.isSome, l.outstanding.isSome,
        l.held.isSome] ∧
    (l.statusBody.drop 2).take 6 = optBytes 1 (l.refusal.map RefusalReason.code) ++ beBytes 1 l.frameErrors ++
      optBytes 2 l.burstTimer ++ beBytes 1 l.silenceCount ++ boolByte l.toggle ∧
    (l.statusBody.drop 8).take 4 = optBytes 1 (l.outstanding.map Directive.code) ++ optBytes 2 l.ackTimer ++
      optBytes 1 (l.held.map Directive.code) ∧
    l.statusBody.drop 12 = beBytes 1 l.pendingPages := by
  have sizes := length_linkStatusItems l
  rw [linkStatusBody_eq]
  refine ⟨length_of_flatten sizes, ?_, ?_, ?_, ?_, ?_⟩
  · exact item_of_flatten sizes 0 rfl rfl rfl
  · exact bits_of_item (item_of_flatten sizes 1 rfl rfl rfl)
  · refine (items_of_flatten sizes 2 5 rfl rfl).trans ?_
    simp [Link.statusItems]
  · refine (items_of_flatten sizes 7 3 rfl rfl).trans ?_
    simp [Link.statusItems]
  · refine (rest_of_flatten sizes 10 rfl).trans ?_
    simp [Link.statusItems]

/-- Settles O54: RELINK by the state of the link, and LINK_STATUS item by item. -/
theorem linkRequestsTaken : Obligations.LinkRequestsTaken := by
  intro s tag body u length named
  let a := s.frameEnded (requestFrame 16 tag body)
  have unit : a.unit u = s.unit u := frameEnded_unit ..
  have relink {x : Answer} (answer : a.relinkUnit u = x) : exec (.relink tag body) s = .next (s.delivered 16 tag 6 x) := by
    rw [exec_relink length named, ← answer]
  refine ⟨fun absent => ?absent, fun present => ?present, ?status⟩
  case absent =>
    rw [relink (relinkUnit_absent (by rw [unit]; exact absent))]
    rfl
  case present =>
    have present' : (a.unit u).present = true := by rw [unit]; exact present
    refine ⟨fun down => ?_, fun state => ?_, fun state context => ?_, fun h r up context engaged free single last stays => ?_⟩
    · rw [relink (relinkUnit_down present' (by rw [unit]; exact down))]
      exact congrArg _ (answered_frameEnded ..)
    · rw [relink (relinkUnit_idle present' (by rw [unit]; exact state))]
      refine congrArg _ (answered_congr ?_)
      unfold State.modLink State.modUnit
      rw [unit, show a = _ from frameEnded_eq ..]
      rfl
    · rw [relink (relinkUnit_supervised present' (by rw [unit]; exact state))]
      have loses := loseLink_idle (s := a) (u := u) (next := .down) (by rw [unit]; exact context)
      refine ⟨_, rfl, loses.unit.trans (by rw [unit]), loses.linkChange, loses.slots.trans ?_⟩
      obtain ⟨l, p, o, fields⟩ := frameEnded_fields s (requestFrame 16 tag body)
      rw [show a = _ from fields]
    · rw [relink (relinkUnit_supervised present' (by rw [unit]; exact .inr up))]
      have found : a.engagedOrder u = some (h, r) := by unfold State.engagedOrder; rw [frameEnded_orders]; exact engaged
      have loses := loseLink_engaged (s := a) (next := .down) present' (by rw [unit]; exact context) found
        ((frameEnded_named ..).trans free) single last stays
      refine ⟨_, rfl, by rw [loses.record, frameEnded_plantTime], loses.context, loses.state, ?_, ?_, loses.setpoint,
        loses.linkChange, loses.orderFailed⟩
      · rw [loses.lostLatch, unit]; simp
      · rw [loses.contribution, unit]
  case status =>
    obtain ⟨size, state, bits, counts, directives, pages⟩ := linkStatusBody_items (s.unit u).link
    refine ⟨(s.unit u).link.statusBody, ?_, size, ?_⟩
    · rw [exec_linkStatus length named]
      unfold State.linkStatus State.modLink
      rw [frameEnded_unit]
      exact congrArg _ (answered_modUnit ..)
    · rintro l exchanging rfl exchange
      have same : (s.unit u).link.pendingExchange = exchanging := by
        rw [Bool.eq_iff_iff, pendingExchange_iff, exchange]
      refine ⟨state, by rw [bits, same], counts, directives, fun none => ?_, fun collected taken collecting => ?_⟩
      · rw [pages, Link.pendingPages, same, none]; rfl
      · rw [pages, Link.pendingPages, same, taken, collecting]; rfl

end Sys2Proof.Machine
end

section
/-! # A STATE report of a unit without an engaged order (R33, R85, R111, R140, R147, R148) -/

namespace Sys2Proof.Machine

/-! ## Grants make no order DUE -/

theorem Order.GrantedBy.unit {q : List GateEntry} {k : Handle} {r r' : Order} (granted : r.GrantedBy q k r') : r'.unit = r.unit := by
  rcases granted with rfl | ⟨e, -, -, ⟨-, rfl⟩ | ⟨-, rfl⟩⟩
  · rfl
  · rfl
  · obtain ⟨l, same, -⟩ := r.toRundown_eq
    rw [same]

theorem Order.GrantedBy.due {q : List GateEntry} {k : Handle} {r r' : Order} (granted : r.GrantedBy q k r') (due : r'.life = .due) :
    r.life = .due := by
  rcases granted with rfl | ⟨e, -, -, ⟨-, rfl⟩ | ⟨-, rfl⟩⟩
  · exact due
  · cases due
  · obtain ⟨l, same, -, rfl | ⟨c, rfl⟩⟩ := r.toRundown_eq <;> rw [same] at due
    · exact due
    · cases due

section
variable {s t : State} {u : UnitNo} {w : WaterwayNo}

theorem State.Grants.noDue (grants : s.Grants t w) (none : ∀ k q, s.order? k = some q → q.unit = u → q.life ≠ .due) :
    ∀ k q, t.order? k = some q → q.unit = u → q.life ≠ .due := by
  intro k q hq unit due
  have order := grants.order k
  rw [hq] at order
  cases found : s.order? k with
  | none => rw [found] at order; cases order
  | some r =>
    rw [found] at order
    cases order with
    | some granted => exact none k r found (granted.unit.symm.trans unit) (granted.due due)

/-- A gate whose spacing has just started has it so after grants (R110). -/
theorem State.Grants.spacing (grants : s.Grants t w)
    (fresh : (s.waterway w).spacing = if (s.waterway w).spacingTime = 0 then none else some (s.waterway w).spacingTime) :
    (t.waterway w).spacing = if (s.waterway w).spacingTime = 0 then none else some (s.waterway w).spacingTime := by
  obtain ⟨q, sp, -, spacing, after⟩ := grants.own
  rw [after]
  exact spacing.elim (fun same => same.trans fresh) id

/-! ## The contribution recomputed, whatever the gate then grants -/

/-- A contribution recomputed, and then the grants of the gate: the unit is steered, and the order table and the gate are as grants
leave them (R34, R36, R109). -/
theorem recompute_grants (s : State) (u : UnitNo) : ∃ a : State, (∀ k, a.order? k = s.order? k) ∧
    (∀ v, a.unit v = (s.refreshContribution u).unit v) ∧
    (∀ w, ∃ n, a.waterway w = { s.waterway w with netFlow := n }) ∧ a.Grants (s.recompute u) (s.unit u).waterway := by
  obtain ⟨a, from_, grants⟩ := State.Grants.updateFlow (s.refreshContribution u) (s.unit u).waterway
  have same := sameButFlow_refreshContribution s u
  refine ⟨a, ?_, ?_, ?_, grants⟩
  · rcases from_ with rfl | rfl <;> exact same.order
  · rcases from_ with rfl | rfl <;> exact fun _ => rfl
  · rcases from_ with rfl | rfl
    · exact same.waterway
    · intro w
      obtain ⟨n, water⟩ := same.waterway w
      rw [State.refreshFlow, waterway_modWaterway]
      split
      · next own => subst own; rw [water]; exact ⟨_, rfl⟩
      · exact ⟨n, water⟩

/-- The contribution that a report gives a unit without an engaged order, by Table 2-1; that of PUMPING without a pump table
stands (R33). -/
def reportedFlow (c : Capability) (p : Report) (head : Nat) (stands : Int) : Int :=
  match p.state with
  | .generating => (c.genFlow (c.clampPower p.power) head : Int)
  | .runupG => (c.genFlow c.pmin head : Int)
  | .pumping => match c.pump with
    | some x => -(x.pumpFlow head : Int)
    | none => stands
  | _ => 0

theorem contribution_reported {c : Capability} {p : Report} (present : (s.unit u).present = true) (lit : (s.unit u).context ≠ .dark)
    (told : (s.unit u).link.lastReport = some p) (record : (s.unit u).link.current = some c) (none : s.engagedOrder u = none) :
    ((s.refreshContribution u).unit u).contribution = reportedFlow c p (s.headFor u) (s.unit u).contribution := by
  have clamp : s.runningSetpoint u = Option.none := by unfold State.runningSetpoint; rw [none]
  unfold State.refreshContribution State.contributionOf reportedFlow
  simp only [told, record, present, lit, clamp, Bool.not_true, Bool.false_eq_true, if_false]
  cases p.state with
  | pumping => cases c.pump <;> simp
  | _ => simp

/-- A contribution recomputed leaves everything else of the unit, but for the indication of a saturated flow. -/
theorem refreshContribution_unit (v : UnitNo) : ∃ sat, (s.refreshContribution u).unit v =
    { s.unit v with contribution := ((s.refreshContribution u).unit v).contribution, saturated := sat } := by
  obtain ⟨q, sat, unit⟩ := (sameButFlow_refreshContribution s u).unit v
  exact ⟨sat, by rw [unit]⟩

/-! ## The context by a report (Tables 7-7, 7-8) -/

/-- The context that a report gives a unit that is not ENGAGED (R147, R148). -/
def UnitBlock.reportedContext (b : UnitBlock) (p : Report) : Context :=
  if b.link.sinceUp then contextAfter b.context p else placing p

theorem takeReport_placed {b : UnitBlock} {p : Report} (context : (s.unit u).context = b.context)
    (notEngaged : b.link.sinceUp = true → b.context ≠ .engaged) :
    s.takeReport u p (!b.link.sinceUp) = (s.reportContext u (b.reportedContext p), false) := by
  unfold State.takeReport UnitBlock.reportedContext
  cases since : b.link.sinceUp with
  | false => rfl
  | true => simp [context, notEngaged since]

theorem placing_ne_dark (p : Report) : placing p ≠ .dark := by
  unfold placing
  split
  · nofun
  · split <;> nofun

/-- The contexts of Table 7-8: the report places the unit, but a RECOVERING one that is not where it may be IDLE or LOCAL stays so. -/
theorem contextAfter_eq {c : Context} (known : c = .idle ∨ c = .orphan ∨ c = .recovering ∨ c = .locally) (p : Report) :
    contextAfter c p = if c = .recovering ∧ placing p = .orphan then .recovering else placing p := by
  have recovering : contextAfter .recovering p = if placing p = .orphan then .recovering else placing p := by
    unfold contextAfter placing
    by_cases atPanel : p.place = .locally
    · simp [atPanel]
    · by_cases still : p.state = .standstill <;> simp [atPanel, still]
  rcases known with rfl | rfl | rfl | rfl
  · simp [contextAfter]
  · simp [contextAfter]
  · simpa using recovering
  · simp [contextAfter]

/-- A trip that starts restarts the spacing of the gate of its unit (R85, R111). -/
theorem told_trip {p : Report} (trips : startsTrip (s.unit u).link.lastReport p = true) :
    ((s.told u p).waterway (s.unit u).waterway).spacing =
      if (s.waterway (s.unit u).waterway).spacingTime = 0 then none else some (s.waterway (s.unit u).waterway).spacingTime := by
  have home : ((s.validFrame u).unit u).waterway = (s.unit u).waterway := by
    unfold State.validFrame; rw [unit_modLink, if_pos rfl]
  unfold State.told
  rw [if_pos trips, home]
  unfold State.storeReport State.tripGate
  rw [modLink_waterway, waterway_modWaterway, if_pos rfl]
  rfl

end

/-- What a STATE report leaves of a unit without an engaged order, and of its gate (R33, R111, R140, R147, R148). -/
structure State.Placed (s t : State) (u : UnitNo) (p : Report) (c : Capability) : Prop where
  lastReport : (t.unit u).link.lastReport = some p
  sinceUp : (t.unit u).link.sinceUp = true
  silent : (t.unit u).link.silent = false
  context : (t.unit u).context = (s.unit u).reportedContext p
  contribution : (t.unit u).contribution = reportedFlow c p (s.headFor u) (s.unit u).contribution
  spacing : startsTrip (s.unit u).link.lastReport p = true → (t.waterway (s.unit u).waterway).spacing =
    if (s.waterway (s.unit u).waterway).spacingTime = 0 then none else some (s.waterway (s.unit u).waterway).spacingTime

section
variable {s : State} {u : UnitNo} {p : Report} {c : Capability}

/-- The state once the report has placed the unit, before its contribution is recomputed. -/
def State.placedBy (s : State) (u : UnitNo) (p : Report) : State := (s.told u p).setContext u ((s.unit u).reportedContext p)

theorem placedBy_unit : ∃ m l x, (s.placedBy u p).unit u = { s.unit u with
    context := (s.unit u).reportedContext p
    motion := m
    lastConverter := l
    link := { (s.unit u).link with heard := true, silent := false, lastReport := some p, sinceUp := true, held := x } } := by
  unfold State.placedBy
  rw [unit_setContext, if_pos rfl, told_unit, if_pos rfl]
  split
  · exact ⟨_, _, _, rfl⟩
  · exact ⟨_, _, _, rfl⟩

theorem placedBy_order? (k : Handle) : (s.placedBy u p).order? k = s.order? k := by
  unfold State.placedBy; rw [setContext_order?, told_order?]

theorem placedBy_waterway (w : WaterwayNo) : (s.placedBy u p).waterway w = (s.told u p).waterway w := setContext_waterway ..

theorem placedBy_headFor : (s.placedBy u p).headFor u = s.headFor u := by
  obtain ⟨_, _, _, own⟩ := placedBy_unit (s := s) (u := u) (p := p)
  obtain ⟨n, water, -⟩ := told_waterway s u p (s.unit u).waterway
  unfold State.headFor
  rw [own, placedBy_waterway, water]

/-- The report placed, its contribution given, and whatever the gate grants then. -/
theorem placed_recompute (present : (s.unit u).present = true) (record : (s.unit u).link.current = some c)
    (lit : (s.unit u).reportedContext p ≠ .dark) (none : ∀ k q, s.order? k = some q → q.unit = u → q.life.engaged = false) :
    s.Placed ((s.placedBy u p).recompute u) u p c := by
  obtain ⟨m, l, x, own⟩ := placedBy_unit (s := s) (u := u) (p := p)
  obtain ⟨a, -, unit, water, grants⟩ := recompute_grants (s.placedBy u p) u
  obtain ⟨sat, fresh⟩ := refreshContribution_unit (s := s.placedBy u p) (u := u) u
  have flow := contribution_reported (s := s.placedBy u p) (c := c) (p := p) (by rw [own]; exact present) (by rw [own]; exact lit)
    (by rw [own]) (by rw [own]; exact record) (engagedOrder_none fun k q hq => none k q ((placedBy_order? k).symm.trans hq))
  have steered := grants.unit u
  rw [unit, fresh, flow, placedBy_headFor, own] at steered
  rw [own] at grants
  refine ⟨steered.lastReport, steered.sinceUp, steered.silent, steered.context, steered.contribution, fun trips => ?_⟩
  obtain ⟨n, same⟩ := water (s.unit u).waterway
  obtain ⟨k, told, -⟩ := told_waterway s u p (s.unit u).waterway
  have time : (a.waterway (s.unit u).waterway).spacingTime = (s.waterway (s.unit u).waterway).spacingTime := by
    rw [same, placedBy_waterway, told]
  rw [← time]
  refine grants.spacing ?_
  rw [time, same, placedBy_waterway]
  exact told_trip trips

/-- The report taken as a command: without a DUE order nothing follows from the context (R65). -/
theorem exec_placed (present : (s.unit u).present = true) (up : (s.unit u).link.state = .up)
    (notEngaged : (s.unit u).link.sinceUp = true → (s.unit u).context ≠ .engaged)
    (noDue : ∀ k q, s.order? k = some q → q.unit = u → q.life ≠ .due) :
    exec (.stateReport u p) s = .next ((s.quiet.placedBy u p).recompute u) := by
  have taken := takeReport_placed (s := s.quiet.told u p) (u := u) (b := s.unit u) (p := p)
    (by rw [told_unit, if_pos rfl]; rfl) notEngaged
  have idle : ((s.quiet.placedBy u p).recompute u).runTask (.engagement u) = ((s.quiet.placedBy u p).recompute u, []) := by
    obtain ⟨a, order, -, -, grants⟩ := recompute_grants (s.quiet.placedBy u p) u
    refine engagement_idle (grants.noDue fun k q hq => noDue k q ?_)
    rw [order, placedBy_order?] at hq
    exact hq
  rw [exec_fromPresent rfl present, State.stateReceived, quiet_unit, up]
  refine congrArg _ ((reportReceived_taken taken).trans ?_)
  show ((s.quiet.placedBy u p).recompute u).settle (if _ then [Task.engagement u] else []) = _
  split
  · exact Settles.settle (.step idle .done)
  · exact Settles.settle .done

end

/-- Settles O51: the report places the unit, its contribution is given, and a trip that starts restarts the spacing. -/
theorem stateReportPlacesUnit : Obligations.StateReportPlacesUnit := by
  rintro s u p c b placed present rfl up record still hplaced known
  obtain rfl : placed = placing p := hplaced
  have context : (s.unit u).reportedContext p =
      if (s.unit u).link.sinceUp = true ∧ (s.unit u).context = .recovering ∧ placing p = .orphan then .recovering else placing p := by
    unfold UnitBlock.reportedContext
    by_cases since : (s.unit u).link.sinceUp = true
    · rw [if_pos since, contextAfter_eq (known since)]
      simp [since]
    · simp [since]
  have lit : (s.unit u).reportedContext p ≠ .dark := by
    rw [context]
    split
    · nofun
    · exact placing_ne_dark p
  have notEngaged : (s.unit u).link.sinceUp = true → (s.unit u).context ≠ .engaged := fun since => by
    rcases known since with x | x | x | x <;> rw [x] <;> nofun
  have facts := placed_recompute (s := s.quiet) (p := p) present record lit fun k q hq unit => (still k q hq unit).2
  refine ⟨_, exec_placed present up notEngaged fun k q hq unit => (still k q hq unit).1, facts.lastReport, facts.sinceUp,
    facts.silent, facts.context.trans context, facts.contribution, fun tripped fresh => facts.spacing ?_⟩
  unfold startsTrip
  cases last : (s.unit u).link.lastReport with
  | none => rw [quiet_unit, last]; simp [tripped]
  | some q => rw [quiet_unit, last]; simp [tripped, fresh q last]

end Sys2Proof.Machine
end

section
/-! # The plan and orders that go on (R50, R51, R61) -/

namespace Sys2Proof.Machine

/-- What an order brings to a plan: its window and its planned flow (R50). -/
def Order.planItem (r : Order) : Nat × Option Nat × Int := (r.start, r.finish, r.plannedFlow)

theorem planAt_of_items {rs qs : List Order} (same : rs.map Order.planItem = qs.map Order.planItem) (t : Nat) :
    planAt rs t = planAt qs t := by
  have items : ∀ xs : List Order, planAt xs t =
      (((xs.map Order.planItem).filter fun i => inWindow i.1 i.2.1 t).map (·.2.2)).sum := by
    intro xs
    rw [List.filter_map, List.map_map]
    rfl
  rw [items, items, same]

theorem breakpoints_of_items {rs qs : List Order} (same : rs.map Order.planItem = qs.map Order.planItem) :
    breakpoints rs = breakpoints qs := by
  have items : ∀ xs : List Order, breakpoints xs = (xs.map Order.planItem).flatMap fun i => i.1 :: i.2.1.toList := by
    intro xs
    rw [List.flatMap_map]
    rfl
  rw [items, items, same]

/-- An order that goes on in its waterway's plan: nothing but its life differs, and it is live, stopping, waiting and RUNNING as
before. -/
def Order.GoesOn (r r' : Order) : Prop :=
  ∃ l, r' = { r with life := l } ∧ l.live = r.life.live ∧ l.isStopping = r.life.isStopping ∧
    (r.life.engaged = false ∨ r.life = .running → l = r.life)

theorem Order.GoesOn.refl (r : Order) : r.GoesOn r := ⟨_, rfl, rfl, rfl, fun _ => rfl⟩

theorem Order.GoesOn.unit {r r' : Order} (goes : r.GoesOn r') : r'.unit = r.unit := by obtain ⟨_, rfl, -⟩ := goes; rfl
theorem Order.GoesOn.live {r r' : Order} (goes : r.GoesOn r') : r'.life.live = r.life.live := by
  obtain ⟨_, rfl, live, -⟩ := goes; exact live
theorem Order.GoesOn.planned {r r' : Order} (goes : r.GoesOn r') : r'.life.planned = r.life.planned := by
  obtain ⟨l, rfl, live, stopping, -⟩ := goes
  unfold Life.planned
  rw [live, stopping]
theorem Order.GoesOn.planItem {r r' : Order} (goes : r.GoesOn r') : r'.planItem = r.planItem := by
  obtain ⟨_, rfl, -⟩ := goes; rfl

/-- An order that waits, or is RUNNING, stands. -/
theorem Order.GoesOn.eq {r : Order} (rests : r.life.engaged = false ∨ r.life = .running) {y : Option Order}
    (goes : Option.Rel Order.GoesOn (some r) y) : y = some r := by
  cases goes with
  | some goes =>
    obtain ⟨l, rfl, -, -, same⟩ := goes
    rw [same rests]

section
variable {s t : State}

/-- The plan of a waterway as a list of handles with what their orders bring to it. -/
def State.planItems (s : State) (w : WaterwayNo) (out : List Handle) : List (Handle × Nat × Option Nat × Int) :=
  (s.orders.filter fun p => (s.unit p.2.unit).waterway == w && p.2.life.planned && !out.contains p.1).map fun p =>
    (p.1, p.2.planItem)

theorem planOrders_items (w : WaterwayNo) (out : List Handle) :
    (s.planOrders w out).map Order.planItem = (s.planItems w out).map (·.2) := by
  unfold State.planOrders State.planItems
  rw [List.map_map, List.map_map]
  rfl

theorem mem_planItems {w : WaterwayNo} {out : List Handle} {k : Handle} {i : Nat × Option Nat × Int} : (k, i) ∈ s.planItems w out ↔
    ∃ r, s.order? k = some r ∧ (s.unit r.unit).waterway = w ∧ r.life.planned = true ∧ k ∉ out ∧ r.planItem = i := by
  unfold State.planItems
  simp only [List.mem_map, List.mem_filter, Prod.exists, Prod.mk.injEq, Bool.and_eq_true, beq_iff_eq, Bool.not_eq_true',
    List.contains_eq_mem, decide_eq_false_iff_not]
  constructor
  · rintro ⟨_, r, ⟨found, ⟨home, planned⟩, kept⟩, rfl, rfl⟩
    exact ⟨r, mem_orders.1 found, home, planned, kept, rfl⟩
  · rintro ⟨r, found, home, planned, kept, rfl⟩
    exact ⟨k, r, ⟨mem_orders.2 found, ⟨home, planned⟩, kept⟩, rfl, rfl⟩

theorem planItems_slots (w : WaterwayNo) (out : List Handle) :
    (s.planItems w out).Pairwise fun a b => slotOf a.1 < slotOf b.1 :=
  List.pairwise_map.2 ((orders_slots s).sublist List.filter_sublist)

/-- Two plans with the same items are the same list: slot numbers order them. -/
theorem planItems_ext {w : WaterwayNo} {out : List Handle} (same : ∀ k i, (k, i) ∈ t.planItems w out ↔ (k, i) ∈ s.planItems w out) :
    t.planItems w out = s.planItems w out := by
  have nodup : ∀ a : State, (a.planItems w out).Nodup := fun a =>
    (planItems_slots w out).imp fun lt e => by rw [e] at lt; exact lt_irrefl _ lt
  refine List.Perm.eq_of_pairwise (fun a b _ _ lt gt => absurd lt (lt_asymm gt)) (planItems_slots w out) (planItems_slots w out)
    ((List.perm_ext_iff_of_nodup (nodup t) (nodup s)).2 fun x => same x.1 x.2)

/-- Check 9 without an order depends on the other orders of the plan and on the limits of the waterway (R50, R51). -/
theorem check9_congr {w : WaterwayNo} {h : Handle} (others : ∀ k, k ≠ h → Option.Rel Order.GoesOn (s.order? k) (t.order? k))
    (home : ∀ v, (t.unit v).waterway = (s.unit v).waterway) (gen : (t.waterway w).qgLim = (s.waterway w).qgLim)
    (pump : (t.waterway w).qpLim = (s.waterway w).qpLim) (flow : Int) (start : Nat) (finish : Option Nat) :
    t.check9 w [h] flow start finish = s.check9 w [h] flow start finish := by
  have items : t.planItems w [h] = s.planItems w [h] := planItems_ext fun k i => by
    rw [mem_planItems, mem_planItems]
    by_cases other : k = h
    · simp [other]
    have goes := others k other
    revert goes
    cases s.order? k <;> cases t.order? k <;> intro goes <;> cases goes
    · simp
    · next goes => simp [goes.unit, home, goes.planned, goes.planItem]
  have same : (t.planOrders w [h]).map Order.planItem = (s.planOrders w [h]).map Order.planItem := by
    rw [planOrders_items, planOrders_items, items]
  unfold State.check9 Waterway.keeps
  dsimp only
  rw [breakpoints_of_items same, gen, pump]
  simp only [planAt_of_items same]

end

end Sys2Proof.Machine
end

section
/-! # A capability swap and its re-check (R60, R61, R133, R135) -/

namespace Sys2Proof.Machine

/-! ## The record written, and what the gate then grants -/

/-- The record has become current on a link that is UP, and nothing but its unit's link, latches and frames differs. -/
structure State.Recorded (s d : State) (u : UnitNo) (c : Capability) : Prop where
  unit : ∃ l, d.unit u = { s.unit u with link := l } ∧ l.state = .up ∧ l.current = some c
  others : ∀ v, v ≠ u → d.unit v = s.unit v
  frame : d = { s with units := d.units, latches := d.latches, linkOut := d.linkOut, portOut := d.portOut }

/-- What the re-check finds after the contribution of the unit has been recomputed: orders that go on, setpoints, the record, and the
figures of the waterways but for flows, queues and spacings. -/
structure State.Rechecks (s e : State) (u : UnitNo) (c : Capability) : Prop where
  order : ∀ k, Option.Rel Order.GoesOn (s.order? k) (e.order? k)
  home : ∀ v, (e.unit v).waterway = (s.unit v).waterway
  setpoint : ∀ v, (e.unit v).setpoint = (s.unit v).setpoint
  state : (e.unit u).link.state = .up
  current : (e.unit u).link.current = some c
  waterway : ∀ w, ∃ n q sp, e.waterway w = { s.waterway w with netFlow := n, queue := q, spacing := sp }
  spaced : (s.waterway (s.unit u).waterway).spacing.isSome = true → (e.waterway (s.unit u).waterway).spacing.isSome = true
  named : e.named = s.named
  plantTime : e.plantTime = s.plantTime

/-- Every entry of the gate's queue names an order that waits for it (R106). -/
def State.QueueWaits (s : State) (w : WaterwayNo) : Prop :=
  ∀ e ∈ (s.waterway w).queue, ∃ x, s.order? e.handle = some x ∧
    ((e.kind = .start ∧ x.life = .starting .awaitingGate) ∨ (e.kind = .stop ∧ ∃ c, x.life = .stopping .awaitingGate c))

/-- What a gate grants to orders that wait for it are the next phases of orders that go on. -/
theorem Order.GrantedBy.goesOn {s : State} {w : WaterwayNo} (waits : s.QueueWaits w) {k : Handle} {r r' : Order}
    (hr : s.order? k = some r) (granted : r.GrantedBy (s.waterway w).queue k r') : r.GoesOn r' := by
  rcases granted with rfl | ⟨e, he, rfl, kind⟩
  · exact .refl _
  obtain ⟨x, found, awaits⟩ := waits e he
  cases hr.symm.trans found
  rcases kind with ⟨start, rfl⟩ | ⟨stop, rfl⟩
  · have life : r.life = .starting .awaitingGate := by simpa [start] using awaits
    exact ⟨.starting .runup, rfl, by rw [life]; rfl, by rw [life]; rfl, by rw [life]; rintro (x | x) <;> cases x⟩
  · obtain ⟨c, life⟩ : ∃ c, r.life = .stopping .awaitingGate c := by simpa [stop] using awaits
    refine ⟨.stopping .rundown c, ?_, by rw [life]; rfl, by rw [life]; rfl, by rw [life]; rintro (x | x) <;> cases x⟩
    unfold Order.toRundown
    rw [life]

section
variable {s d : State} {u : UnitNo} {c : Capability}

/-- The recomputing of a contribution, under a gate that is SPACING or whose queue holds orders that wait. -/
theorem recompute_goesOn (gate : (s.waterway (s.unit u).waterway).spacing.isSome = true ∨ s.QueueWaits (s.unit u).waterway) :
    (∀ k, Option.Rel Order.GoesOn (s.order? k) ((s.recompute u).order? k)) ∧
    (∀ v, ∃ q, UnitBlock.Steered { s.unit v with contribution := q } ((s.recompute u).unit v)) ∧
    (∀ w, ∃ n q sp, (s.recompute u).waterway w = { s.waterway w with netFlow := n, queue := q, spacing := sp }) ∧
    ((s.waterway (s.unit u).waterway).spacing.isSome = true →
      ((s.recompute u).waterway (s.unit u).waterway).spacing.isSome = true) := by
  by_cases spaced : (s.waterway (s.unit u).waterway).spacing.isSome = true
  · have same := State.OnlyFlows.recompute spaced
    refine ⟨fun k => ?_, fun v => ?_, fun w => ?_, fun _ => by rw [same.spacing]; exact spaced⟩
    · rw [same.order]
      cases s.order? k with
      | none => exact .none
      | some r => exact .some (.refl r)
    · obtain ⟨q, sat, unit⟩ := same.unit v
      exact ⟨q, by rw [unit]; exact ⟨_, _, _, _, _, _, _, _, _, rfl⟩⟩
    · obtain ⟨n, water⟩ := same.waterway w
      exact ⟨n, _, _, water⟩
  · obtain ⟨a, order, unit, water, grants⟩ := recompute_grants s u
    obtain ⟨n, own⟩ := water (s.unit u).waterway
    refine ⟨fun k => ?_, fun v => ?_, fun w => ?_, fun isSpaced => absurd isSpaced spaced⟩
    · have granted := grants.order k
      rw [order, own] at granted
      revert granted
      cases hr : s.order? k <;> cases (s.recompute u).order? k <;> intro granted <;> cases granted
      · exact .none
      · next granted => exact .some (granted.goesOn (gate.resolve_left spaced) hr)
    · obtain ⟨sat, fresh⟩ := refreshContribution_unit (s := s) (u := u) v
      have steered := grants.unit v
      rw [unit, fresh] at steered
      refine ⟨((s.refreshContribution u).unit v).contribution, .trans ?_ steered⟩
      exact ⟨_, _, _, _, _, _, _, _, _, rfl⟩
    · by_cases same : w = (s.unit u).waterway
      · obtain ⟨q, sp, -, -, after⟩ := grants.own
        rw [same, after, own]
        exact ⟨_, _, _, rfl⟩
      · obtain ⟨n, before⟩ := water w
        rw [grants.others w same, before]
        exact ⟨n, _, _, rfl⟩

/-- What the re-check of a swap finds. -/
theorem State.Recorded.rechecks (recorded : s.Recorded d u c)
    (gate : (s.waterway (s.unit u).waterway).spacing.isSome = true ∨ s.QueueWaits (s.unit u).waterway) :
    s.Rechecks ((d.recompute u).refreshOutside u) u c := by
  obtain ⟨l, own, state, current⟩ := recorded.unit
  have home : ∀ v, (d.unit v).waterway = (s.unit v).waterway ∧ (d.unit v).setpoint = (s.unit v).setpoint := by
    intro v
    by_cases same : v = u
    · rw [same, own]; exact ⟨rfl, rfl⟩
    · rw [recorded.others v same]; exact ⟨rfl, rfl⟩
  have orders : d.order? = s.order? := by rw [recorded.frame]; rfl
  have waters : d.waterway = s.waterway := by rw [recorded.frame]; rfl
  have times : d.plantTime = s.plantTime ∧ d.named = s.named := by rw [recorded.frame]; exact ⟨rfl, rfl⟩
  obtain ⟨order, unit, water, spaced⟩ := recompute_goesOn (s := d) (u := u) (by
    rw [(home u).1, waters]
    exact gate.imp id fun waits e he => by rw [waters] at he; rw [orders]; exact waits e he)
  rw [(home u).1, waters] at spaced
  have marks := State.OnlyMarks.refreshOutside (d.recompute u) u
  have clock := (kept_clock fun n _ _ l => n = s.plantTime ∧ l = s.named).toKept.refreshOutside u
    ((kept_clock fun n _ _ l => n = s.plantTime ∧ l = s.named).recompute u times)
  have steered : ∀ v, ∃ q, UnitBlock.Steered { d.unit v with contribution := q }
      (((d.recompute u).refreshOutside u).unit v) := fun v => by
    obtain ⟨q, steered⟩ := unit v
    exact ⟨q, steered.trans (marks.steered v)⟩
  obtain ⟨q, mine⟩ := steered u
  rw [own] at mine
  refine ⟨fun k => ?_, fun v => ?_, fun v => ?_, mine.state.trans state, mine.current.trans current, fun w => ?_, fun isSpaced => ?_,
    clock.2, clock.1⟩
  · rw [marks.order, ← orders]; exact order k
  · obtain ⟨_, steered⟩ := steered v
    exact steered.waterway.trans (home v).1
  · obtain ⟨_, steered⟩ := steered v
    exact steered.setpoint.trans (home v).2
  · rw [marks.waterway, ← waters]; exact water w
  · rw [marks.waterway]; exact spaced isSpaced

end

/-! ## The record rewritten (R60) -/

/-- One record has been rewritten, with whatever indications its flow gives. -/
structure State.Rewrites (s t : State) (h : Handle) (r : Order) : Prop where
  record : t.order? h = some r
  others : ∀ k, k ≠ h → t.order? k = s.order? k
  unit : ∀ v, (s.unit v).Steered (t.unit v)
  waterway : ∀ w, t.waterway w = s.waterway w
  named : t.named = s.named
  plantTime : t.plantTime = s.plantTime

/-- A record lowered to the Pmax of a new record (R60). -/
def Order.deratedTo (r : Order) (c : Capability) : Order :=
  if r.mode = .generate ∧ c.pmax < r.target then { r with target := c.pmax, derated := true, unseen := true } else r

/-- A record with its planned flow worked out anew (R60). -/
def Order.replannedTo (r : Order) (q : Int) : Order :=
  if q = r.plannedFlow then r else { r with plannedFlow := q, unseen := true }

section
variable {s a t : State} {h : Handle} {r r' : Order}

theorem State.Rewrites.refl (hr : s.order? h = some r) : s.Rewrites s h r :=
  ⟨hr, fun _ _ => rfl, fun _ => .refl _, fun _ => rfl, rfl, rfl⟩

theorem State.Rewrites.trans (x : s.Rewrites a h r) (y : a.Rewrites t h r') : s.Rewrites t h r' :=
  ⟨y.record, fun k other => (y.others k other).trans (x.others k other), fun v => (x.unit v).trans (y.unit v),
    fun w => (y.waterway w).trans (x.waterway w), y.named.trans x.named, y.plantTime.trans x.plantTime⟩

variable (free : s.named = []) (hr : s.order? h = some r)
include free hr

/-- A change of a record that is noted, outside a request (R9). -/
theorem rewrites_noted (f : Order → Order) (e : EventKind) :
    s.Rewrites ((s.modOrder h f).note h e) h { f r with unseen := true } := by
  unfold State.note
  rw [modOrder_named, free, if_neg (by simp), modOrder_modOrder]
  exact ⟨by simp [hr], fun k other => by simp [other], fun v => by simp [UnitBlock.Steered.refl], fun w => by simp, by simp, by simp⟩

theorem derate_rewrites (c : Capability) : s.Rewrites (s.derate h r c) h (r.deratedTo c) := by
  unfold State.derate Order.deratedTo
  split
  · exact rewrites_noted free hr _ _
  · exact .refl hr

theorem replan_rewrites : s.Rewrites (s.replan h) h
    (r.replannedTo (((s.plannedFlow r.unit r.mode r.target).map (·.1)).getD r.plannedFlow)) := by
  unfold State.replan Order.replannedTo
  rw [hr]
  dsimp only
  cases s.plannedFlow r.unit r.mode r.target with
  | none => simpa using State.Rewrites.refl hr
  | some x =>
    obtain ⟨q, sat⟩ := x
    have marked : s.Rewrites (s.markSaturated r.unit sat) h r := by
      unfold State.markSaturated
      split
      · exact ⟨hr, fun _ _ => rfl, steered_modUnit _ ⟨_, _, _, _, _, _, _, _, _, rfl⟩, fun _ => rfl, rfl, rfl⟩
      · exact .refl hr
    dsimp only [Option.map_some, Option.getD_some]
    split
    · exact marked
    · exact marked.trans (rewrites_noted (marked.named.trans free) marked.record _ _)

end

end Sys2Proof.Machine
end

section
/-! # The fifth page of a record (R60, R61, R132, R133, R135) -/

namespace Sys2Proof.Machine

/-! ## The re-check of the one order of a unit (R60, R61) -/

section
variable {s : State} {h : Handle} {r : Order}

/-- The one live order of a unit is its chain (R11). -/
theorem chain_single (hr : s.order? h = some r) (live : r.life.live = true)
    (only : ∀ k q, s.order? k = some q → q.unit = r.unit → q.life.live = true → k = h) : s.chain r.unit = [(h, r)] := by
  have nodup : (s.chain r.unit).Nodup := (chain_perm s r.unit).nodup_iff.2
    (((orders_nodup s).of_map _).filter _)
  refine List.perm_singleton.1 ((List.perm_ext_iff_of_nodup nodup (List.nodup_singleton _)).2 fun x => ?_)
  rw [List.mem_singleton]
  constructor
  · intro found
    obtain ⟨hx, unit, isLive⟩ := mem_chain.1 found
    obtain rfl : x.1 = h := only x.1 x.2 hx unit isLive
    cases hr.symm.trans hx
    rfl
  · rintro rfl
    exact mem_chain.2 ⟨hr, rfl, live⟩

/-- Without another live order of its unit an order has no neighbour (R61). -/
theorem recheckGap_single (chain : s.chain r.unit = [(h, r)]) : s.recheckGap h r [] = true := by
  unfold State.recheckGap State.recheckNeighbour
  rw [chain]
  simp

variable {c : Capability}

theorem feasible_iff (chain : s.chain r.unit = [(h, r)]) (current : (s.unit r.unit).link.current = some c) :
    s.feasible h r [] = true ↔ c.offers r.mode = true ∧ (r.mode = .generate → c.pmin ≤ r.target) ∧
      (r.mode = .pump ∨ r.mode = .condenseP → ∃ x, c.pump = some x ∧ x.head[0] ≤ (s.waterway (s.unit r.unit).waterway).hAdm ∧
        (s.waterway (s.unit r.unit).waterway).hAdm ≤ x.head[7]) ∧
      s.check9 (s.unit r.unit).waterway [h] r.plannedFlow r.start r.finish = true := by
  have pmin : s.capTime r.unit (·.pmin) = c.pmin := by unfold State.capTime; rw [current]; rfl
  have target : (r.mode != .generate || decide (s.capTime r.unit (·.pmin) ≤ r.target)) = true ↔
      (r.mode = .generate → c.pmin ≤ r.target) := by
    rw [pmin]; by_cases m : r.mode = .generate <;> simp [m]
  have offers : s.check3 r.unit r.mode = true ↔ c.offers r.mode = true := by rw [check3_iff, current]; simp
  have pumps : s.check6 r.unit r.mode = true ↔ (r.mode = .pump ∨ r.mode = .condenseP → ∃ x, c.pump = some x ∧
      x.head[0] ≤ (s.waterway (s.unit r.unit).waterway).hAdm ∧ (s.waterway (s.unit r.unit).waterway).hAdm ≤ x.head[7]) := by
    rw [check6_iff, current]; simp
  unfold State.feasible
  rw [recheckGap_single chain]
  simp only [Bool.and_eq_true, target, offers, pumps, and_true, and_assoc]

/-- The figures of an order under a new record of its unit: its target, its planned flow, and whether it is feasible (R60, R61). -/
structure State.SwapFigures (s : State) (c : Capability) (h : Handle) (r : Order) (target : Nat) (flow : Int)
    (lowered feasible : Prop) : Prop where
  lowered_iff : lowered ↔ r.mode = .generate ∧ c.pmax < r.target
  lowers : lowered → target = c.pmax
  keeps : ¬ lowered → target = r.target
  generates : r.mode = .generate → flow = c.genFlow target (s.waterway (s.unit r.unit).waterway).hAdm
  pumps : r.mode = .pump → ∀ x, c.pump = some x → flow = -(x.pumpFlow (s.waterway (s.unit r.unit).waterway).hAdm : Int)
  unpumped : r.mode = .pump → c.pump = none → flow = r.plannedFlow
  condenses : r.mode = .condenseG ∨ r.mode = .condenseP → flow = 0
  feasible_iff : feasible ↔ c.offers r.mode = true ∧ (r.mode = .generate → c.pmin ≤ target) ∧
    (r.mode = .pump ∨ r.mode = .condenseP → ∃ x, c.pump = some x ∧ x.head[0] ≤ (s.waterway (s.unit r.unit).waterway).hAdm ∧
      (s.waterway (s.unit r.unit).waterway).hAdm ≤ x.head[7]) ∧
    s.check9 (s.unit r.unit).waterway [h] flow r.start r.finish = true

namespace State.SwapFigures

variable {target : Nat} {flow : Int} {lowered feasible : Prop} (figures : s.SwapFigures c h r target flow lowered feasible)
include figures

/-- The record as the re-check leaves it, of a feasible order (R60). -/
theorem record : (r.deratedTo c).replannedTo flow =
      { r with
        target := target
        derated := ((r.deratedTo c).replannedTo flow).derated
        plannedFlow := flow
        unseen := ((r.deratedTo c).replannedTo flow).unseen } ∧
    (((r.deratedTo c).replannedTo flow).derated = true ↔ lowered ∨ r.derated = true) ∧
    (((r.deratedTo c).replannedTo flow).unseen = true ↔ lowered ∨ flow ≠ r.plannedFlow ∨ r.unseen = true) := by
  by_cases low : lowered
  · have lowers := figures.lowered_iff.1 low
    have target := figures.lowers low
    subst target
    unfold Order.deratedTo Order.replannedTo
    rw [if_pos lowers]
    split
    · next same => exact ⟨by rw [same], by simp [low], by simp [low]⟩
    · exact ⟨rfl, by simp [low], by simp [low]⟩
  · have stays := mt figures.lowered_iff.2 low
    have target := figures.keeps low
    subst target
    unfold Order.deratedTo Order.replannedTo
    rw [if_neg stays]
    split
    · next same => exact ⟨by rw [same], by simp [low], by simp [low, same]⟩
    · next other => exact ⟨rfl, by simp [low], by simp [low, other]⟩

theorem deratedTo_target : (r.deratedTo c).target = target := by
  unfold Order.deratedTo
  by_cases low : lowered
  · rw [if_pos (figures.lowered_iff.1 low), figures.lowers low]
  · rw [if_neg (mt figures.lowered_iff.2 low), figures.keeps low]

/-- The planned flow worked out anew (R37, R60). -/
theorem plannedFlow {a : State} (current : (a.unit r.unit).link.current = some c)
    (home : (a.unit r.unit).waterway = (s.unit r.unit).waterway)
    (hAdm : (a.waterway (s.unit r.unit).waterway).hAdm = (s.waterway (s.unit r.unit).waterway).hAdm) :
    ((a.plannedFlow r.unit r.mode target).map (·.1)).getD r.plannedFlow = flow := by
  unfold State.plannedFlow
  dsimp only
  rw [current, home, hAdm]
  cases mode : r.mode with
  | generate => exact (figures.generates mode).symm
  | pump =>
    cases pump : c.pump with
    | none => simpa [pump] using (figures.unpumped mode pump).symm
    | some x => simpa [pump] using (figures.pumps mode x pump).symm
  | condenseG => exact (figures.condenses (.inl mode)).symm
  | condenseP => exact (figures.condenses (.inr mode)).symm

end State.SwapFigures

theorem Order.deratedTo_same (r : Order) (c : Capability) : (r.deratedTo c).unit = r.unit ∧ (r.deratedTo c).mode = r.mode ∧
    (r.deratedTo c).plannedFlow = r.plannedFlow := by
  unfold Order.deratedTo; split <;> exact ⟨rfl, rfl, rfl⟩

/-- The re-check of one order writes its record, and then judges it (R60). -/
theorem recheckOrder_writes {e : State} {r' : Order} (found : e.order? h = some r) (live : r.life.live = true)
    (goes : r.life.isStopping = false) (written : ((e.derate h r c).replan h).order? h = some r') :
    (State.recheckOrder c (e, []) h).1 = if ((e.derate h r c).replan h).feasible h r' [] = true
      then ((e.derate h r c).replan h).boundSetpoint r' else ((e.derate h r c).replan h).endInfeasible h r' := by
  unfold State.recheckOrder
  dsimp only
  rw [found]
  dsimp only
  rw [if_pos (by simp [live, goes]), written]
  dsimp only
  split <;> rfl

section
variable {e f : State} {target : Nat} {flow : Int} {lowered feasible : Prop}
  (figures : s.SwapFigures c h r target flow lowered feasible) (rechecks : s.Rechecks e r.unit c)

/-- Among orders that go on, the one live order of its unit stays the only one. -/
theorem only_of_goesOn (goesOn : ∀ k, k ≠ h → Option.Rel Order.GoesOn (s.order? k) (f.order? k))
    (only : ∀ k q, s.order? k = some q → q.unit = r.unit → q.life.live = true → k = h) :
    ∀ k q, f.order? k = some q → q.unit = r.unit → q.life.live = true → k = h := by
  intro k q hq unit live
  by_contra other
  have goes := goesOn k other
  rw [hq] at goes
  cases hk : s.order? k with
  | none => rw [hk] at goes; cases goes
  | some q₀ =>
    rw [hk] at goes
    cases goes with
    | some goes => exact other (only k q₀ hk (goes.unit.symm.trans unit) (goes.live.symm.trans live))

include figures rechecks

/-- The record as the re-check writes it (R60). -/
theorem recheck_rewrites (free : s.named = []) (found : e.order? h = some r) :
    e.Rewrites ((e.derate h r c).replan h) h ((r.deratedTo c).replannedTo flow) := by
  obtain ⟨unit, mode, planned⟩ := r.deratedTo_same c
  obtain ⟨n, q, sp, water⟩ := rechecks.waterway (s.unit r.unit).waterway
  have derated := derate_rewrites (rechecks.named.trans free) found c
  have steered := derated.unit r.unit
  have replanned := replan_rewrites (derated.named.trans (rechecks.named.trans free)) derated.record
  rw [unit, mode, planned, figures.deratedTo_target, figures.plannedFlow (steered.current.trans rechecks.current)
    (steered.waterway.trans (rechecks.home r.unit)) (by rw [derated.waterway, water])] at replanned
  exact derated.trans replanned

/-- The record so written is feasible as the figures say: the other orders of the plan and the limits stand (R61). -/
theorem rewritten_feasible (live : r.life.live = true)
    (only : ∀ k q, s.order? k = some q → q.unit = r.unit → q.life.live = true → k = h)
    (writes : e.Rewrites f h ((r.deratedTo c).replannedTo flow)) :
    f.feasible h ((r.deratedTo c).replannedTo flow) [] = true ↔ feasible := by
  obtain ⟨same, -, -⟩ := figures.record
  generalize (r.deratedTo c).replannedTo flow = r' at *
  have unit : r'.unit = r.unit := by rw [same]
  have goesOn : ∀ k, k ≠ h → Option.Rel Order.GoesOn (s.order? k) (f.order? k) := fun k other => by
    rw [writes.others k other]; exact rechecks.order k
  have chain : f.chain r'.unit = [(h, r')] :=
    chain_single writes.record (by rw [same]; exact live) (by rw [unit]; exact only_of_goesOn goesOn only)
  have home : ∀ v, (f.unit v).waterway = (s.unit v).waterway := fun v => (writes.unit v).waterway.trans (rechecks.home v)
  obtain ⟨n, q, sp, before⟩ := rechecks.waterway (s.unit r.unit).waterway
  have water := (writes.waterway (s.unit r.unit).waterway).trans before
  have check9 := check9_congr goesOn home (w := (s.unit r.unit).waterway) (by rw [water]) (by rw [water]) flow r.start r.finish
  rw [feasible_iff (c := c) chain (by rw [unit]; exact (writes.unit r.unit).current.trans rechecks.current), figures.feasible_iff,
    unit, home, water, same]
  dsimp only
  rw [check9]

/-- The re-check of the one order of a unit: its record is rewritten, and then it goes on or ends (R60, R61). -/
theorem recheck_single (free : s.named = []) (found : e.order? h = some r) (live : r.life.live = true)
    (goes : r.life.isStopping = false) (only : ∀ k q, s.order? k = some q → q.unit = r.unit → q.life.live = true → k = h) :
    ∃ f, e.Rewrites f h ((r.deratedTo c).replannedTo flow) ∧
      (feasible → e.recheck r.unit c = f.boundSetpoint ((r.deratedTo c).replannedTo flow)) ∧
      (¬ feasible → e.recheck r.unit c = f.endInfeasible h ((r.deratedTo c).replannedTo flow)) := by
  have writes := recheck_rewrites figures rechecks free found
  have judged := rewritten_feasible figures rechecks live only writes
  have chain : e.chain r.unit = [(h, r)] := chain_single found live (only_of_goesOn (fun k _ => rechecks.order k) only)
  have result := recheckOrder_writes (c := c) found live goes writes.record
  have walk : e.recheck r.unit c = (State.recheckOrder c (e, []) h).1 := by unfold State.recheck; rw [chain]; rfl
  exact ⟨_, writes, fun fits => by rw [walk, result, if_pos (judged.2 fits)],
    fun unfit => by rw [walk, result, if_neg (mt judged.1 unfit)]⟩

end

/-! ## What the re-check makes of the order (R60, R61) -/

/-- A HELD or DUE order that is infeasible fails with cause CAPABILITY (R61). -/
theorem endInfeasible_waiting (free : s.named = []) (hr : s.order? h = some r) (waits : r.life = .held ∨ r.life = .due)
    (single : r.partner = none) (last : r.successor = none) (stays : r.retirePending = false) :
    s.EndsIn (s.endInfeasible h r) h r (.failed .capability) ∧ ∀ v, (s.endInfeasible h r).unit v = s.unit v := by
  have waiting : r.life.waiting = true := by rcases waits with life | life <;> rw [life] <;> rfl
  have ends := endOrder_waiting hr (by rcases waits with life | life <;> rw [life] <;> rfl)
    (by rcases waits with life | life <;> rw [life] <;> rfl) (.failed .capability)
  have result : s.endInfeasible h r = (s.unlink h).closeOrder h (.failed .capability) := by
    unfold State.endInfeasible
    rw [if_pos waiting, ends, endTasks_last last, single]
    exact finish_nil _
  rw [result]
  exact ⟨endsIn_closed free hr stays (.failed .capability), fun v => by rw [closeOrder_unit]; exact unlink_unit ..⟩

/-- The stop of a RUNNING GENERATE order at Pmin waits at its gate (R76). -/
theorem stopEffect_atPmin (free : s.named = []) (hr : s.order? h = some r)
    (spaced : (s.waterway (s.unit r.unit).waterway).spacing.isSome = true) (running : r.life = .running)
    (generate : r.mode = .generate) {sp : Nat} (setpoint : (s.unit r.unit).setpoint = some sp)
    (current : (s.unit r.unit).link.current = some c) (low : sp ≤ c.pmin) (cause : DoneCause) :
    ∃ t, s.stopEffect h r cause = (t, []) ∧ t.order? h = some (r.into (.stopping .awaitingGate cause)) ∧
      ∀ v, (t.unit v).link.current = (s.unit v).link.current := by
  have stops := stopBegins_recomputed free hr spaced .unloading cause
  generalize ha : (s.enter h (.stopping .unloading cause) .orderChanged).recompute r.unit = a at stops
  have unit : ∀ v, (a.unit v).link.current = (s.unit v).link.current ∧ (a.unit v).setpoint = (s.unit v).setpoint := fun v => by
    obtain ⟨_, _, same⟩ := stops.unit v
    rw [same]
    exact ⟨rfl, rfl⟩
  have atPmin : a.atPmin r.unit = true := by
    unfold State.atPmin State.capTime
    rw [(unit r.unit).1, (unit r.unit).2, setpoint, current]
    simpa using low
  have joined : a.awaitStopGate h r cause = _ := joinGate_spaced
    (s := a.modOrder h fun r => { r with life := .stopping .awaitingGate cause })
    (by rw [modOrder_unit, modOrder_waterway]; exact stops.spaced spaced) h .stop
  refine ⟨a.awaitStopGate h r cause, ?_, ?_, fun v => ?_⟩
  · unfold State.stopEffect
    rw [running]
    dsimp only
    rw [if_pos generate, if_pos generate, ha, if_pos atPmin]
  · rw [joined, modWaterway_order?, order?_modOrder, if_pos rfl, stops.record]
    rfl
  · rw [joined, modWaterway_unit, modOrder_unit]
    exact (unit v).1

/-- A RUNNING GENERATE order that is infeasible begins its stop: above Pmin it unloads (R61, R76). -/
theorem endInfeasible_running (free : s.named = []) (hr : s.order? h = some r)
    (spaced : (s.waterway (s.unit r.unit).waterway).spacing.isSome = true) (running : r.life = .running)
    (generate : r.mode = .generate) (single : r.partner = none) (last : r.successor = none) {sp : Nat}
    (setpoint : (s.unit r.unit).setpoint = some sp) (current : (s.unit r.unit).link.current = some c) :
    ∃ p, (s.endInfeasible h r).order? h = some (r.into (.stopping p .capability)) ∧
      ((s.endInfeasible h r).unit r.unit).link.current = some c ∧
      (c.pmin < sp → p = .unloading ∧ ((s.endInfeasible h r).unit r.unit).setpoint = some sp) := by
  have result : ∀ t, s.stopEffect h r .capability = (t, []) → s.endInfeasible h r = t := by
    intro t effect
    unfold State.endInfeasible
    rw [if_neg (by rw [running]; decide), beginStop_atOnce hr running (deferringLeg_single single), effect, stopTasks_last last,
      if_neg (by rw [generate]; decide)]
    exact finish_nil _
  by_cases above : c.pmin < sp
  · obtain ⟨t, effect, stops⟩ := stopEffect_unloads free hr spaced running generate setpoint current above .capability
    obtain ⟨_, _, unit⟩ := stops.unit r.unit
    rw [result t effect]
    exact ⟨.unloading, stops.record, by rw [unit]; exact current, fun _ => ⟨rfl, by rw [unit]; exact setpoint⟩⟩
  · obtain ⟨t, effect, record, unit⟩ :=
      stopEffect_atPmin free hr spaced running generate setpoint current (not_lt.1 above) .capability
    rw [result t effect]
    exact ⟨.awaitingGate, record, (unit r.unit).trans current, fun low => absurd low above⟩

/-- The setpoint of a RUNNING GENERATE order that goes on, within Pmin and its target (R60). -/
theorem boundSetpoint_running (hr : s.order? h = some r) (spaced : (s.waterway (s.unit r.unit).waterway).spacing.isSome = true)
    (running : r.life = .running) (generate : r.mode = .generate) {sp : Nat} (setpoint : (s.unit r.unit).setpoint = some sp)
    (current : (s.unit r.unit).link.current = some c) :
    (∃ curtailed, (s.boundSetpoint r).order? h = some { r with curtailed := curtailed }) ∧
      ((s.boundSetpoint r).unit r.unit).link.current = some c ∧
      ((s.boundSetpoint r).unit r.unit).setpoint = some (if r.target < sp then r.target else max sp c.pmin) := by
  have pmin : s.capTime r.unit (·.pmin) = c.pmin := by unfold State.capTime; rw [current]; rfl
  have bounded : s.boundSetpoint r = if r.target < sp then s.commitSetpoint r.unit r.target
      else if sp < c.pmin then s.commitSetpoint r.unit c.pmin else s := by
    unfold State.boundSetpoint
    rw [if_pos ⟨running, generate⟩, setpoint]
    dsimp only
    rw [pmin]
  have committed : ∀ p, (∃ curtailed, (s.commitSetpoint r.unit p).order? h = some { r with curtailed := curtailed }) ∧
      ((s.commitSetpoint r.unit p).unit r.unit).link.current = some c ∧
      ((s.commitSetpoint r.unit p).unit r.unit).setpoint = some p := fun p => by
    obtain ⟨same, set⟩ := commitSetpoint_spaced p spaced
    exact ⟨same.order h r hr, (same.current r.unit).trans current, set⟩
  rw [bounded]
  split
  · exact committed _
  · split
    · next low => rw [max_eq_right low.le]; exact committed _
    · next enough => rw [max_eq_left (not_lt.1 enough)]; exact ⟨⟨r.curtailed, hr⟩, current, setpoint⟩

/-! ## A swap and the order of its unit -/

section
variable {d : State} {target : Nat} {flow : Int} {lowered feasible : Prop} (recorded : s.Recorded d r.unit c)
  (figures : s.SwapFigures c h r target flow lowered feasible) (free : s.named = []) (hr : s.order? h = some r)
  (single : r.partner = none) (last : r.successor = none)
  (only : ∀ k q, s.order? k = some q → q.unit = r.unit → q.life.live = true → k = h)
include recorded figures free hr single last only

/-- A HELD or DUE order at a swap: it goes on with its new figures, or fails (R60, R61). -/
theorem swapped_waiting (stays : r.retirePending = false) (waits : r.life = .held ∨ r.life = .due)
    (gate : (s.waterway (s.unit r.unit).waterway).spacing.isSome = true ∨ s.QueueWaits (s.unit r.unit).waterway) :
    (d.swapped r.unit c).latched .capabilityChange = true ∧ ((d.swapped r.unit c).unit r.unit).link.state = .up ∧
      ((d.swapped r.unit c).unit r.unit).link.current = some c ∧
      (feasible → (d.swapped r.unit c).order? h = some ((r.deratedTo c).replannedTo flow)) ∧
      (¬ feasible → ∃ q, (d.swapped r.unit c).order? h = some q ∧ q.life = .failed .capability s.plantTime ∧ q.unseen = true ∧
        (d.swapped r.unit c).latched .orderFailed = true) := by
  have rechecks := recorded.rechecks gate
  have rests : r.life.engaged = false := by rcases waits with life | life <;> rw [life] <;> rfl
  have found : ((d.recompute r.unit).refreshOutside r.unit).order? h = some r :=
    Order.GoesOn.eq (.inl rests) (by have goes := rechecks.order h; rwa [hr] at goes)
  obtain ⟨f, writes, fits, unfit⟩ := recheck_single figures rechecks free found
    (by rcases waits with life | life <;> rw [life] <;> rfl) (by rcases waits with life | life <;> rw [life] <;> rfl) only
  obtain ⟨same, -, -⟩ := figures.record
  generalize (r.deratedTo c).replannedTo flow = r' at *
  have life : r'.life = r.life := by rw [same]
  have steered := writes.unit r.unit
  unfold State.swapped
  refine ⟨(latched_raise ..).trans (by simp), ?_⟩
  by_cases suits : feasible
  · have stands : f.boundSetpoint r' = f := if_neg fun running => by
      rw [life] at running; rw [running.1] at rests; cases rests
    rw [fits suits, stands]
    exact ⟨steered.state.trans rechecks.state, steered.current.trans rechecks.current, fun _ => writes.record,
      fun unfeasible => absurd suits unfeasible⟩
  · obtain ⟨ends, unit⟩ := endInfeasible_waiting (writes.named.trans (rechecks.named.trans free)) writes.record
      (by rw [life]; exact waits) (by rw [same]; exact single) (by rw [same]; exact last) (by rw [same]; exact stays)
    rw [unfit suits]
    refine ⟨?_, ?_, fun fits => absurd fits suits, fun _ => ⟨_, ends.record, ?_, rfl, ?_⟩⟩
    · rw [raise_unit, unit]; exact steered.state.trans rechecks.state
    · rw [raise_unit, unit]; exact steered.current.trans rechecks.current
    · rw [writes.plantTime, rechecks.plantTime]; rfl
    · rw [latched_raise]; exact Bool.or_eq_true_iff.2 (.inl ends.event)

/-- A RUNNING GENERATE order at a swap, under a gate that is SPACING: it goes on with its new figures, or its stop begins
(R60, R61). -/
theorem swapped_running (running : r.life = .running) (generate : r.mode = .generate)
    (spaced : (s.waterway (s.unit r.unit).waterway).spacing.isSome = true) {sp : Nat}
    (setpoint : (s.unit r.unit).setpoint = some sp) :
    ∃ q, (d.swapped r.unit c).latched .capabilityChange = true ∧ ((d.swapped r.unit c).unit r.unit).link.current = some c ∧
      (d.swapped r.unit c).order? h = some q ∧ q.target = target ∧ q.plannedFlow = flow ∧
      (feasible → q.life = .running ∧
        ((d.swapped r.unit c).unit r.unit).setpoint = some (if target < sp then target else max sp c.pmin)) ∧
      (¬ feasible → c.pmin < sp → q.life = .stopping .unloading .capability ∧ q.unseen = true ∧
        ((d.swapped r.unit c).unit r.unit).setpoint = some sp) := by
  have rechecks := recorded.rechecks (.inl spaced)
  have found : ((d.recompute r.unit).refreshOutside r.unit).order? h = some r :=
    Order.GoesOn.eq (.inr running) (by have goes := rechecks.order h; rwa [hr] at goes)
  obtain ⟨f, writes, fits, unfit⟩ := recheck_single figures rechecks free found (by rw [running]; rfl) (by rw [running]; rfl) only
  obtain ⟨same, -, -⟩ := figures.record
  generalize (r.deratedTo c).replannedTo flow = r' at *
  have unit : r'.unit = r.unit := by rw [same]
  have running' : r'.life = .running := by rw [same]; exact running
  have generate' : r'.mode = .generate := by rw [same]; exact generate
  have steered := writes.unit r.unit
  have current : (f.unit r'.unit).link.current = some c := by rw [unit]; exact steered.current.trans rechecks.current
  have setpoint' : (f.unit r'.unit).setpoint = some sp := by
    rw [unit]; exact steered.setpoint.trans ((rechecks.setpoint r.unit).trans setpoint)
  have spaced' : (f.waterway (f.unit r'.unit).waterway).spacing.isSome = true := by
    rw [unit, steered.waterway, rechecks.home, writes.waterway]; exact rechecks.spaced spaced
  have targets : r'.target = target ∧ r'.plannedFlow = flow := by rw [same]; exact ⟨rfl, rfl⟩
  unfold State.swapped
  by_cases suits : feasible
  · obtain ⟨⟨k, record⟩, current, setpoint⟩ := boundSetpoint_running writes.record spaced' running' generate' setpoint' current
    rw [unit, targets.1] at *
    rw [fits suits]
    exact ⟨_, (latched_raise ..).trans (by simp), current, record, targets.1, targets.2, fun _ => ⟨running', setpoint⟩,
      fun unfeasible => absurd suits unfeasible⟩
  · obtain ⟨p, record, current, low⟩ := endInfeasible_running (writes.named.trans (rechecks.named.trans free)) writes.record spaced'
      running' generate' (by rw [same]; exact single) (by rw [same]; exact last) setpoint' current
    rw [unit] at *
    rw [unfit suits]
    refine ⟨_, (latched_raise ..).trans (by simp), current, record, targets.1, targets.2, fun fits => absurd fits suits,
      fun _ above => ?_⟩
    obtain ⟨rfl, stands⟩ := low above
    exact ⟨rfl, rfl, stands⟩

end

end

end Sys2Proof.Machine
end

section
/-! # The fifth page completes a record (R132, R133, R135) -/

namespace Sys2Proof.Machine

/-- The page that follows the fourth of a record being collected (R130, R131). -/
structure State.FifthPage (s : State) (u : UnitNo) (p : Page) (ps : List Page) : Prop where
  present : (s.unit u).present = true
  collecting : (s.unit u).link.collecting = some ps
  last : ∃ t, (s.unit u).link.lastPage = some (3, t) ∧ t ≠ p.toggle
  number : p.contents.number = 4
  more : p.more = 0

/-- The link once the fifth page has been taken, before its record is judged. -/
def Link.paged (l : Link) (p : Page) (ps : List Page) : Link :=
  { l with heard := true, silent := false, collecting := some (ps ++ [p]), lastPage := some (4, p.toggle) }

/-- The state once the fifth page has been taken and acknowledged. -/
def State.paged (s : State) (u : UnitNo) (p : Page) (ps : List Page) : State :=
  State.emit (s.quiet.modLink u fun l => l.paged p ps) u (.pageAck 4 p.toggle)

section
variable {s : State} {u : UnitNo} {p : Page} {ps : List Page} {c : Capability}

theorem paged_unit : (s.paged u p ps).unit u = { s.unit u with link := (s.unit u).link.paged p ps } :=
  (unit_modLink s.quiet u u fun l => l.paged p ps).trans (if_pos rfl)

theorem paged_other {v : UnitNo} (other : v ≠ u) : (s.paged u p ps).unit v = s.unit v :=
  (unit_modLink s.quiet u v fun l => l.paged p ps).trans (if_neg other.symm)

/-- The fifth page is taken, and the record judged (R131, R132). -/
theorem exec_fifthPage (fifth : s.FifthPage u p ps) (supervised : (s.unit u).link.state = .exchange ∨ (s.unit u).link.state = .up) :
    exec (.pageReport u p) s = .next ((s.paged u p ps).completeRecord u (ps ++ [p])) := by
  obtain ⟨present, collecting, ⟨t, last, flips⟩, number, more⟩ := fifth
  have valid : ((s.quiet.validFrame u).unit u).link = { (s.unit u).link with heard := true, silent := false } := link_modLink _
  have judged : (s.quiet.validFrame u).judgePage u p =
      ((s.quiet.validFrame u).takePage u p ps).completeRecord u (ps ++ [p]) := by
    rw [judgePage_follows (by rw [valid, number]; simp [last]) (by rw [startsCollection_iff, number]; simp)
      (by rw [valid, followsLast_iff]; exact ⟨3, t, last, number, flips.symm, by rw [if_pos number, more]⟩)
      (by rw [valid]; exact collecting), if_pos number]
  have taken : (s.quiet.validFrame u).takePage u p ps = s.paged u p ps := by
    rw [State.takePage, State.validFrame, modLink_modLink, State.ackPage, number]
    rfl
  rw [exec_fromPresent rfl present, pageReceived_supervised (s := s.quiet) ((supervised_iff _).2 supervised), judged, taken]

/-- A record that becomes current by a change of the link. -/
theorem recorded_modLink (f : Link → Link) (up : (f ((s.unit u).link.paged p ps)).state = .up)
    (current : (f ((s.unit u).link.paged p ps)).current = some c) : s.Recorded ((s.paged u p ps).modLink u f) u c := by
  refine ⟨⟨_, ?_, up, current⟩, fun v other => ?_, rfl⟩
  · rw [unit_modLink, if_pos rfl, paged_unit]
  · rw [unit_modLink, if_neg other.symm, paged_other other]

theorem State.Recorded.raise {d : State} (recorded : s.Recorded d u c) (e : EventKind) : s.Recorded (d.raise e) u c :=
  ⟨recorded.unit, recorded.others, by rw [recorded.frame]; rfl⟩

/-! ## The record judged (R132, R135) -/

section
variable {pages : List Page} {e : RefusalReason}

theorem completeRecord_taken (up : (s.unit u).link.state = .up) (passes : recordOf u pages = .ok c) :
    s.completeRecord u pages = s.pendingTaken u c := by
  unfold State.completeRecord; rw [up, passes]

theorem completeRecord_pendingRefused (up : (s.unit u).link.state = .up) (fails : recordOf u pages = .error e) :
    s.completeRecord u pages = s.pendingRefused u e := by
  unfold State.completeRecord; rw [up, fails]

theorem completeRecord_linkUp (exchange : (s.unit u).link.state = .exchange) (passes : recordOf u pages = .ok c) :
    s.completeRecord u pages = s.linkUp u c := by
  unfold State.completeRecord; rw [exchange, passes]

theorem completeRecord_linkRefused (exchange : (s.unit u).link.state = .exchange) (fails : recordOf u pages = .error e) :
    s.completeRecord u pages = s.linkRefused u e := by
  unfold State.completeRecord; rw [exchange, fails]

/-- A record that differs from the one held is a swap (R133). -/
theorem linkUp_swaps {old : Capability} (current : (s.unit u).link.current = some old) (differs : old ≠ c) :
    s.linkUp u c = ((s.modLink u fun l => l.enterUp c).raise .linkChange).swapped u c :=
  if_pos (by rw [current]; simpa using differs)

/-- The first record, or the record held, brings the link UP without a swap (R132). -/
theorem linkUp_plain (same : (s.unit u).link.current = none ∨ (s.unit u).link.current = some c) :
    s.linkUp u c = ((s.modLink u fun l => l.enterUp c).raise .linkChange).refreshOutside u :=
  if_neg (by rcases same with current | current <;> rw [current] <;> simp)

end

/-- A record that passes while UP, or that differs from the one held, is a capability swap (R133, R135). -/
theorem exec_swaps (fifth : s.FifthPage u p ps) (passes : recordOf u (ps ++ [p]) = .ok c)
    (swaps : (s.unit u).link.state = .up ∨
      ((s.unit u).link.state = .exchange ∧ ∃ old, (s.unit u).link.current = some old ∧ old ≠ c)) :
    ∃ d, s.Recorded d u c ∧ exec (.pageReport u p) s = .next (d.swapped u c) := by
  have unit := paged_unit (s := s) (u := u) (p := p) (ps := ps)
  rcases swaps with up | ⟨exchange, old, current, differs⟩
  · refine ⟨_, recorded_modLink (p := p) (ps := ps) (fun l => { l with current := some c, collecting := none, refusal := none })
      up rfl, ?_⟩
    rw [exec_fifthPage fifth (.inr up), completeRecord_taken (by rw [unit]; exact up) passes]
    rfl
  · refine ⟨_, (recorded_modLink (p := p) (ps := ps) (fun l => l.enterUp c) rfl rfl).raise .linkChange, ?_⟩
    rw [exec_fifthPage fifth (.inl exchange), completeRecord_linkUp (by rw [unit]; exact exchange) passes,
      linkUp_swaps (by rw [unit]; exact current) differs]

end

/-- Settles O49: the record judged, and at a swap the re-check of the one order of the unit. -/
theorem recordCompleted : Obligations.RecordCompleted := by
  rintro s u p l ps last present rfl collecting lastPage flips number more
  have fifth : s.FifthPage u p ps := ⟨present, collecting, ⟨last, lastPage, flips⟩, number, more⟩
  refine ⟨?swap, fun c passes exchange same => ?linkUp, fun e fails => ⟨fun exchange => ?refused, fun up => ?pending⟩⟩
  case swap =>
    rintro c h r w target flow lowered feasible passes swaps free rfl hr rfl live goes single last stays only lowered_iff lowers keeps
      generates pumps unpumped condenses feasible_iff
    have figures : s.SwapFigures c h r target flow lowered feasible :=
      ⟨lowered_iff, lowers, keeps, generates, pumps, unpumped, condenses, feasible_iff⟩
    obtain ⟨d, recorded, taken⟩ := exec_swaps fifth passes swaps
    refine ⟨fun waits gate => ?_, fun sp up running generate engaged spaced setpoint => ?_⟩
    · obtain ⟨change, state, current, fits, unfit⟩ := swapped_waiting recorded figures free hr single last only stays waits gate
      obtain ⟨same, derated, unseen⟩ := figures.record
      exact ⟨_, taken, change, state, current, fun suits => ⟨_, fits suits, same, derated, unseen⟩, unfit⟩
    · obtain ⟨q, facts⟩ := swapped_running recorded figures free hr single last only running generate spaced setpoint
      exact ⟨_, q, taken, facts⟩
  case linkUp =>
    let d := ((s.paged u p ps).modLink u fun l => l.enterUp c).raise .linkChange
    have taken : exec (.pageReport u p) s = .next (d.refreshOutside u) := by
      rw [exec_fifthPage fifth (.inl exchange), completeRecord_linkUp (by rw [paged_unit]; exact exchange) passes,
        linkUp_plain (by rw [paged_unit]; exact same)]
    have marks := State.OnlyMarks.refreshOutside d u
    have unit : d.unit u = { s.unit u with link := ((s.unit u).link.paged p ps).enterUp c } := by
      simp only [d]
      rw [raise_unit, unit_modLink, if_pos rfl, paged_unit]
    have change : d.latched .linkChange = true := (latched_raise ..).trans (by simp)
    refine ⟨_, taken, (kept_latched .linkChange).toKept.refreshOutside u change, ?_, ?_, marks.linkOut⟩
    · rw [marks.link, unit]
      rfl
    · rw [(marks.steered u).context, unit]
  case refused =>
    rw [exec_fifthPage fifth (.inl exchange), completeRecord_linkRefused (by rw [paged_unit]; exact exchange) fails]
    refine ⟨_, rfl, (latched_raise ..).trans (by simp), ?_⟩
    unfold State.linkRefused
    rw [raise_unit, link_modLink, paged_unit]
    exact ⟨rfl, rfl, rfl, rfl, rfl⟩
  case pending =>
    rw [exec_fifthPage fifth (.inr up), completeRecord_pendingRefused (by rw [paged_unit]; exact up) fails]
    refine ⟨_, rfl, (latched_raise ..).trans (by simp), ?_⟩
    unfold State.pendingRefused
    rw [raise_unit, link_modLink, paged_unit]
    exact ⟨up, rfl, rfl, rfl⟩

end Sys2Proof.Machine
end

section
/-! # Telegrams and second marks of a gauge (R153 to R157) -/

namespace Sys2Proof.Machine

/-! ## Judging a telegram (R153) -/

section
variable {x : Gauge} {g : GaugeNo} {bytes : List Byte}

/-- The first check in the words of the spec (R153, R193). -/
theorem telegramHeard_iff : telegramHeard g bytes = true ↔
    bytes.length = 11 ∧ byteAt bytes 0 = 10 ∧ bytes = withCrc (bytes.take 9) ∧ byteAt bytes 1 = BitVec.ofNat 8 g := by
  have number : (byteAt bytes 1).toNat = g ↔ byteAt bytes 1 = BitVec.ofNat 8 g := by
    rw [BitVec.toNat_eq, BitVec.toNat_ofNat, Nat.mod_eq_of_lt (by omega)]
  unfold telegramHeard crcRight
  simp only [Bool.and_eq_true, beq_iff_eq, number, and_assoc]
  refine and_congr_right fun length => ?_
  rw [length]

/-- A telegram that passes all four checks is good (R153). -/
theorem judgeTelegram_eq_none_iff : judgeTelegram x g bytes = none ↔
    telegramHeard g bytes = true ∧ telegramValid bytes = true ∧ telegramLevel bytes ≤ 100000 ∧
      (x.state = .valid → levelDistance (telegramLevel bytes) (x.level.getD 0) ≤ x.jumpLimit) := by
  unfold judgeTelegram
  split
  · next unheard => simp [show telegramHeard g bytes = false by simpa using unheard]
  · split
    · next unfit => simp [show telegramValid bytes = false by simpa using unfit]
    · split
      · next high => simp [high]
      · next heard valid fits =>
        rw [Bool.not_eq_true', Bool.not_eq_false] at heard valid
        simp [heard, valid, not_lt.1 fits]

/-- A bad telegram is heard unless the first check fails (R153). -/
theorem judgeTelegram_frame_iff : judgeTelegram x g bytes = some .frame ↔ telegramHeard g bytes = false := by
  unfold judgeTelegram
  by_cases heard : telegramHeard g bytes = true
  · rw [if_neg (by simp [heard])]
    split_ifs <;> simp [heard]
  · simp [show telegramHeard g bytes = false by simpa using heard]

/-- The reason of a bad telegram is the first check it fails (R153). -/
theorem judgeTelegram_eq_some {reason : BadReason} (bad : judgeTelegram x g bytes ≠ none)
    (frame : reason = .frame ↔ ¬ telegramHeard g bytes = true)
    (notValid : telegramHeard g bytes = true → (reason = .notValid ↔ telegramValid bytes = false))
    (range : telegramHeard g bytes = true → telegramValid bytes = true → (reason = .range ↔ 100000 < telegramLevel bytes)) :
    judgeTelegram x g bytes = some reason := by
  unfold judgeTelegram at bad ⊢
  by_cases heard : telegramHeard g bytes = true
  · rw [if_neg (by simp [heard])] at bad ⊢
    by_cases valid : telegramValid bytes = true
    · rw [if_neg (by simp [valid])] at bad ⊢
      by_cases high : 100000 < telegramLevel bytes
      · rw [if_pos high, (range heard valid).2 high]
      · rw [if_neg high] at bad ⊢
        have notFrame : reason ≠ .frame := fun e => frame.1 e heard
        have notFlag : reason ≠ .notValid := fun e => absurd ((notValid heard).1 e) (by simp [valid])
        have notRange : reason ≠ .range := fun e => high ((range heard valid).1 e)
        have jump : reason = .jump := by
          cases reason with
          | frame => exact absurd rfl notFrame
          | notValid => exact absurd rfl notFlag
          | range => exact absurd rfl notRange
          | jump => rfl
        rw [if_pos (by by_contra near; exact bad (if_neg near)), jump]
    · rw [if_pos (by simpa using valid), (notValid heard).2 (by simpa using valid)]
  · rw [if_pos (by simpa using heard), frame.2 heard]

end

/-! ## The runs and the state (R154) -/

namespace Gauge

variable {x : Gauge}

/-- A good telegram for a VALID gauge raises the good run, to 3 at most (R154). -/
theorem takeGood_valid (valid : x.state = .valid) (v : Nat) :
    x.takeGood v = { x with goodRun := min (x.goodRun + 1) 3, badRun := 0, level := some v } :=
  if_neg fun h => h.1 valid

/-- A first or second good telegram raises the good run (R154). -/
theorem takeGood_short (short : x.goodRun < 2) (v : Nat) :
    x.takeGood v = { x with goodRun := x.goodRun + 1, badRun := 0, level := some v } := by
  have run : raiseRun x.goodRun = x.goodRun + 1 := Nat.min_eq_left (by show x.goodRun + 1 ≤ 3; omega)
  unfold takeGood
  dsimp only
  rw [run, if_neg fun h => absurd (h.2 : x.goodRun + 1 = 3) (by omega)]

/-- The third good telegram in a row makes a gauge VALID (R154). -/
theorem takeGood_third (other : x.state ≠ .valid) (third : 2 ≤ x.goodRun) (v : Nat) :
    x.takeGood v = { x with state := .valid, goodRun := 0, badRun := 0, level := some v } :=
  if_pos ⟨other, Nat.min_eq_right (by show 3 ≤ x.goodRun + 1; omega)⟩

/-- The third bad telegram in a row takes a VALID gauge to FAULT (R154). -/
theorem takeBad_third (valid : x.state = .valid) (third : 2 ≤ x.badRun) (reason : BadReason) :
    x.takeBad reason = { x with state := .fault, goodRun := 0, badRun := 0, lastBad := some reason } :=
  if_pos ⟨valid, Nat.min_eq_right (by show 3 ≤ x.badRun + 1; omega)⟩

/-- Any other bad telegram raises the bad run (R154). -/
theorem takeBad_short (short : x.state ≠ .valid ∨ x.badRun < 2) (reason : BadReason) :
    x.takeBad reason = { x with goodRun := 0, badRun := min (x.badRun + 1) 3, lastBad := some reason } := by
  refine if_neg fun h => short.elim (fun other => other h.1) fun short => ?_
  have third : min (x.badRun + 1) 3 = 3 := h.2
  omega

/-- The limit flags alone are evaluated (R157). -/
theorem evaluateFlags_frame (x : Gauge) : ∃ high low, x.evaluateFlags = { x with high := high, low := low } := by
  unfold evaluateFlags; split <;> exact ⟨_, _, rfl⟩

/-- A good telegram is taken, and the flags follow the level (R154, R156, R157). -/
theorem receive_good {g : GaugeNo} {bytes : List Byte} (good : judgeTelegram x g bytes = none) :
    ∃ high low, x.receive g bytes = { (x.hear bytes).takeGood (telegramLevel bytes) with high := high, low := low } := by
  unfold receive
  dsimp only
  rw [good, if_pos (judgeTelegram_eq_none_iff.1 good).1]
  dsimp only
  split
  · exact ⟨_, _, rfl⟩
  · exact evaluateFlags_frame _

/-- A bad telegram is taken; it clears the silence count unless its frame was wrong (R153 to R155). -/
theorem receive_bad {g : GaugeNo} {bytes : List Byte} {reason : BadReason} (bad : judgeTelegram x g bytes = some reason) :
    ∃ last, x.receive g bytes =
      { x with silence := if reason = BadReason.frame then x.silence else 0, lastTelegram := last }.takeBad reason := by
  unfold receive
  dsimp only
  rw [bad]
  by_cases frame : reason = .frame
  · rw [if_pos frame, if_neg (by simpa using judgeTelegram_frame_iff.1 (frame ▸ bad))]
    exact ⟨x.lastTelegram, rfl⟩
  · have heard : telegramHeard g bytes = true := by
      by_contra unheard
      exact frame (Option.some.inj (bad.symm.trans (judgeTelegram_frame_iff.2 (by simpa using unheard))))
    rw [if_neg frame, if_pos heard]
    exact ⟨_, rfl⟩

/-- What a good telegram leaves of a gauge, by the run it raises (R153 to R156). -/
theorem receive_good_leaves {g : GaugeNo} {bytes : List Byte} (good : judgeTelegram x g bytes = none) {y : Gauge}
    (received : y = x.receive g bytes) :
    y.level = some (telegramLevel bytes) ∧ y.lastBad = x.lastBad ∧ y.silence = 0 ∧
      (x.state = .valid → y.state = .valid ∧ y.goodRun = min (x.goodRun + 1) 3 ∧ y.badRun = 0) ∧
      (x.state ≠ .valid → x.goodRun < 2 → y.state = x.state ∧ y.goodRun = x.goodRun + 1 ∧ y.badRun = 0) ∧
      (x.state ≠ .valid → 2 ≤ x.goodRun → y.state = .valid ∧ y.goodRun = 0 ∧ y.badRun = 0) := by
  obtain ⟨high, low, e⟩ := receive_good good
  rw [received, e]
  by_cases valid : x.state = .valid
  · rw [takeGood_valid (x := x.hear bytes) valid]
    exact ⟨rfl, rfl, rfl, fun _ => ⟨valid, rfl, rfl⟩, fun other => absurd valid other, fun other => absurd valid other⟩
  · by_cases short : x.goodRun < 2
    · rw [takeGood_short (x := x.hear bytes) short]
      exact ⟨rfl, rfl, rfl, fun now => absurd now valid, fun _ _ => ⟨rfl, rfl, rfl⟩, fun _ third => absurd short (not_lt.2 third)⟩
    · rw [takeGood_third (x := x.hear bytes) valid (not_lt.1 short)]
      exact ⟨rfl, rfl, rfl, fun now => absurd now valid, fun _ now => absurd now short, fun _ _ => ⟨rfl, rfl, rfl⟩⟩

/-- What a bad telegram leaves of a gauge, by the run it raises (R153 to R155). -/
theorem receive_bad_leaves {g : GaugeNo} {bytes : List Byte} {reason : BadReason} (bad : judgeTelegram x g bytes = some reason)
    {y : Gauge} (received : y = x.receive g bytes) :
    y.level = x.level ∧ y.high = x.high ∧ y.low = x.low ∧ y.lastBad = some reason ∧
      y.silence = (if y.lastBad = some .frame then x.silence else 0) ∧
      (x.state = .valid ∧ 2 ≤ x.badRun → y.state = .fault ∧ y.goodRun = 0 ∧ y.badRun = 0) ∧
      (x.state ≠ .valid ∨ x.badRun < 2 → y.state = x.state ∧ y.goodRun = 0 ∧ y.badRun = min (x.badRun + 1) 3) := by
  obtain ⟨last, e⟩ := receive_bad bad
  rw [received, e]
  by_cases third : x.state = .valid ∧ 2 ≤ x.badRun
  · have notShort : ¬ (x.state ≠ .valid ∨ x.badRun < 2) := by rw [not_or, not_not, not_lt]; exact third
    rw [takeBad_third (by exact third.1) (by exact third.2)]
    exact ⟨rfl, rfl, rfl, rfl, by simp, fun _ => ⟨rfl, rfl, rfl⟩, fun short => absurd short notShort⟩
  · rw [takeBad_short (by rw [not_and_or, not_le] at third; exact third)]
    exact ⟨rfl, rfl, rfl, rfl, by simp, fun now => absurd now third, fun _ => ⟨rfl, rfl, rfl⟩⟩

/-- Past the setting a second mark takes a VALID gauge to FAULT (R155). -/
theorem silenceMark_fault (valid : x.state = .valid) (past : x.silenceLimit < min (x.silence + 1) 255) :
    x.silenceMark = { x with silence := min (x.silence + 1) 255, state := .fault, goodRun := 0, badRun := 0 } :=
  if_pos ⟨valid, past⟩

/-- Otherwise a second mark raises the silence count alone (R155). -/
theorem silenceMark_counts (stays : x.state ≠ .valid ∨ min (x.silence + 1) 255 ≤ x.silenceLimit) :
    x.silenceMark = { x with silence := min (x.silence + 1) 255 } :=
  if_neg fun h => stays.elim (fun other => other h.1) fun within => absurd h.2 (not_lt.2 within)

end Gauge

/-! ## The commands -/

/-- A change of a gauge is told to heads and inhibits, which leaves every gauge as it stands (R156, R158). -/
theorem gaugeChanged_gauge (s : State) (g j : GaugeNo) (old : Gauge) : (s.gaugeChanged g old).gauge j = s.gauge j := by
  have read : ∀ w, ReadOff w fun t => t.gauges = s.gauges := fun w a t gauges _ p => gauges.trans p
  have kept : KeptByGauges fun t => t.gauges = s.gauges :=
    { (read 0).kept with
      head := fun _ v p => (read v).updateHead p
      inhibits := fun _ v p => (read v).kept.evaluateInhibits p }
  have same : (s.gaugeChanged g old).gauges = s.gauges := kept.gaugeChanged g old rfl
  unfold State.gauge
  rw [same]

/-- A change of the state of a gauge raises GAUGE_CHANGE (R154). -/
theorem gaugeChanged_latched {s : State} {g : GaugeNo} {old : Gauge} (moved : old.state ≠ (s.gauge g).state) :
    (s.gaugeChanged g old).latched .gaugeChange = true := by
  have raised : (s.raiseIf .gaugeChange (old.state != (s.gauge g).state)).latched .gaugeChange = true := by
    unfold State.raiseIf
    rw [if_pos (by simpa using moved)]
    exact (latched_raise ..).trans (by simp)
  have k := kept_latched .gaugeChange
  unfold State.gaugeChanged
  dsimp only
  split <;> [exact k.inhibitsOf _ (k.headsOf _ raised); exact raised]

/-- A telegram is received by its gauge and no other, and a change of its state raises GAUGE_CHANGE (R153, R154). -/
theorem exec_gaugeTelegram_received (s : State) (g : GaugeNo) (bytes : List Byte) :
    ∃ t, exec (.gaugeTelegram g bytes) s = .next t ∧ t.gauge g = (s.gauge g).receive g bytes ∧
      (∀ j, j ≠ g → t.gauge j = s.gauge j) ∧
      ((s.gauge g).state ≠ ((s.gauge g).receive g bytes).state → t.latched .gaugeChange = true) := by
  have own : (s.quiet.modGauge g fun x => x.receive g bytes).gauge g = (s.gauge g).receive g bytes := by
    rw [gauge_modGauge, if_pos rfl]; rfl
  refine ⟨_, exec_event rfl s, (gaugeChanged_gauge ..).trans own, fun j other => ?_, fun moved => ?_⟩
  · refine (gaugeChanged_gauge ..).trans ?_
    rw [gauge_modGauge, if_neg other.symm]
    rfl
  · exact gaugeChanged_latched (by rw [own]; exact moved)

theorem exec_gaugeSilenceCount {s : State} {g : GaugeNo} (due : DueEvent.gaugeSilence g ∈ s.due) :
    exec (.gaugeSilenceCount g) s = .next (((s.takes (.gaugeSilence g)).setGauge g (s.gauge g).silenceMark).raiseIf .gaugeChange
      ((s.gauge g).silenceMark.state != (s.gauge g).state)) := by
  rw [exec_event rfl, takeDue_quiet due]
  rfl

/-- Settles O55: a telegram by its judgement and the run it raises, and a second mark by the silence count. -/
theorem gaugesJudgedAndSupervised : Obligations.GaugesJudgedAndSupervised := by
  refine ⟨?telegram, ?mark⟩
  case telegram =>
    rintro s g bytes level heard good reason x rfl rfl heard_iff good_iff held frame notValid range
    rw [← telegramHeard_iff] at heard_iff
    have judged : good ↔ judgeTelegram (s.gauge g) g bytes = none := by
      rw [good_iff, heard_iff, judgeTelegram_eq_none_iff]
      refine and_congr_right fun _ => and_congr_right fun _ => and_congr_right fun _ => forall_congr' fun valid => ?_
      obtain ⟨v, hv⟩ := Option.isSome_iff_exists.1 (held valid)
      simp [hv, levelDistance, telegramLevel]
    obtain ⟨t, taken, own, others, latched⟩ := exec_gaugeTelegram_received s g bytes
    refine ⟨t, taken, fun passes => ?_, fun fails => ?_, others⟩
    · obtain ⟨level, lastBad, silence, valid, short, third⟩ := Gauge.receive_good_leaves (judged.1 passes) own
      refine ⟨level, lastBad, silence, valid, short, fun other two => ?_⟩
      obtain ⟨state, runs⟩ := third other two
      exact ⟨state, runs.1, runs.2, latched (by rw [← own, state]; exact other)⟩
    · have bad : judgeTelegram (s.gauge g) g bytes = some reason := by
        rw [heard_iff] at frame notValid range
        exact judgeTelegram_eq_some (mt judged.2 fails) frame notValid range
      obtain ⟨level, high, low, lastBad, silence, third, short⟩ := Gauge.receive_bad_leaves bad own
      refine ⟨level, high, low, lastBad, silence, fun now => ?_, short⟩
      obtain ⟨state, runs⟩ := third now
      exact ⟨state, runs.1, runs.2, latched (by rw [← own, state, now.1]; simp)⟩
  case mark =>
    rintro s g n due rfl
    rw [exec_gaugeSilenceCount due]
    refine ⟨fun valid past => ?_, fun stays => ?_⟩
    · rw [Gauge.silenceMark_fault valid past]
      exact congrArg _ (if_pos (by simp [valid]))
    · rw [Gauge.silenceMark_counts stays]
      exact congrArg _ (if_neg (by simp))

end Sys2Proof.Machine
end

section
/-! # A new level under a gate that is SPACING: flags, heads and inhibits (R29, R30, R157, R158) -/

namespace Sys2Proof.Machine

/-! ## Flags, inhibits and heads as figures -/

theorem evalHigh_iff {limit hysteresis level : Nat} {flag : Bool} :
    evalHigh limit hysteresis level flag = true ↔ limit ≤ level ∨ (limit < level + hysteresis ∧ flag = true) := by
  unfold evalHigh
  split
  · next reached => simp [reached]
  · split
    · next clears => simp; omega
    · next below stands => simp [below, not_le.1 stands]

theorem evalLow_iff {limit hysteresis level : Nat} {flag : Bool} :
    evalLow limit hysteresis level flag = true ↔ level ≤ limit ∨ (level < limit + hysteresis ∧ flag = true) := by
  unfold evalLow
  split
  · next reached => simp [reached]
  · split
    · next clears => simp; omega
    · next above stands => simp [above, not_le.1 stands]

theorem pumpInhibitOf_iff {upper lower : Gauge} : pumpInhibitOf upper lower = true ↔
    upper.high = true ∨ lower.low = true ∨ upper.state = .unknown ∨ lower.state = .unknown := by
  unfold pumpInhibitOf; simp [or_assoc]

theorem genInhibitOf_iff {upper lower : Gauge} : genInhibitOf upper lower = true ↔
    upper.low = true ∨ lower.high = true ∨ upper.state = .unknown ∨ lower.state = .unknown := by
  unfold genInhibitOf; simp [or_assoc]

/-- The live head is the difference of the levels, kept within 500..90 000 (R29). -/
theorem headOf_levels {s : State} {w : WaterwayNo} {a b : Nat} (upper : (s.gauge (s.waterway w).upper).level = some a)
    (lower : (s.gauge (s.waterway w).lower).level = some b) (upperKnown : (s.gauge (s.waterway w).upper).state ≠ .unknown)
    (lowerKnown : (s.gauge (s.waterway w).lower).state ≠ .unknown) :
    s.headOf w = (max 500 (min 90000 (a - b)), decide (a < b + 500)) := by
  unfold State.headOf
  dsimp only
  rw [if_neg (not_or.2 ⟨upperKnown, lowerKnown⟩), upper, lower, Option.getD_some, Option.getD_some]
  split
  · next small => exact Prod.ext (by show 500 = _; omega) (by simp; omega)
  · split
    · next large => exact Prod.ext (by show 90000 = _; omega) (by simp; omega)
    · next notSmall notLarge => exact Prod.ext (by show Int.toNat _ = _; omega) (by simp; omega)

/-! ## What a new level writes -/

/-- Only gauges, latches, and what units and waterways show of levels differ: contributions, live heads, live net flows and
inhibits (R30, R31, R36, R158). -/
structure State.OnlyLevels (s t : State) : Prop where
  unit : ∀ v, ∃ q b o, t.unit v = { s.unit v with contribution := q, saturated := b, headOutside := o }
  waterway : ∀ w, ∃ h l n p g, t.waterway w =
    { s.waterway w with liveHead := h, headLow := l, netFlow := n, pumpInhibit := p, genInhibit := g }
  frame : t = { s with units := t.units, waterways := t.waterways, gauges := t.gauges, latches := t.latches }

namespace State.OnlyLevels

variable {s t v : State}

theorem trans (a : s.OnlyLevels t) (b : t.OnlyLevels v) : s.OnlyLevels v where
  unit u := by
    obtain ⟨q, m, o, e⟩ := a.unit u
    obtain ⟨q', m', o', e'⟩ := b.unit u
    exact ⟨q', m', o', by rw [e', e]⟩
  waterway w := by
    obtain ⟨h, l, n, p, g, e⟩ := a.waterway w
    obtain ⟨h', l', n', p', g', e'⟩ := b.waterway w
    exact ⟨h', l', n', p', g', by rw [e', e]⟩
  frame := by rw [b.frame, a.frame]

/-- Gauges and latches written, and nothing else. -/
theorem ofFrame (frame : t = { s with gauges := t.gauges, latches := t.latches }) : s.OnlyLevels t where
  unit v := ⟨_, _, _, by rw [frame]; rfl⟩
  waterway w := ⟨_, _, _, _, _, by rw [frame]; rfl⟩
  frame := by rw [frame]

theorem refl (s : State) : s.OnlyLevels s := ofFrame rfl

/-- A waterway written in its live head, head low, live net flow and inhibits. -/
theorem water (s : State) (w : WaterwayNo) {f : Waterway → Waterway}
    (hf : ∀ x, f x = { x with
      liveHead := (f x).liveHead, headLow := (f x).headLow, netFlow := (f x).netFlow
      pumpInhibit := (f x).pumpInhibit, genInhibit := (f x).genInhibit } := by exact fun _ => rfl) :
    s.OnlyLevels (s.modWaterway w f) where
  unit v := ⟨_, _, _, rfl⟩
  waterway v := by
    rw [waterway_modWaterway]
    split
    · next same => subst same; exact ⟨_, _, _, _, _, hf _⟩
    · exact ⟨_, _, _, _, _, rfl⟩
  frame := rfl

theorem ofMarks (marks : s.OnlyMarks t) : s.OnlyLevels t where
  unit v := by
    obtain ⟨b, o, e⟩ := marks.unit v
    exact ⟨_, b, o, e⟩
  waterway w := ⟨_, _, _, _, _, marks.waterway w⟩
  frame := by rw [marks.frame]

theorem refreshContribution (s : State) (u : UnitNo) : s.OnlyLevels (s.refreshContribution u) where
  unit v := by
    obtain ⟨q, b, e⟩ := (sameButFlow_refreshContribution s u).unit v
    exact ⟨q, b, _, e⟩
  waterway w := by
    obtain ⟨n, e⟩ := (sameButFlow_refreshContribution s u).waterway w
    exact ⟨_, _, n, _, _, e⟩
  frame := by unfold State.refreshContribution; split <;> rfl

/-- What one step after another leaves so, they leave so together. -/
theorem foldl {α : Type} {f : State → α → State} (step : ∀ (s : State) a, s.OnlyLevels (f s a)) (l : List α) (s : State) :
    s.OnlyLevels (l.foldl f s) :=
  List.foldlRecOn (motive := s.OnlyLevels) l _ (refl s) fun _ same a _ => same.trans (step _ a)

theorem takeHead (s : State) (w : WaterwayNo) (head : Nat) (low : Bool) : s.OnlyLevels (s.takeHead w head low) := by
  have fresh : ∀ (s : State) u, s.OnlyLevels (if s.headDependent u then s.refreshContribution u else s) := fun s u => by
    split <;> [exact refreshContribution s u; exact refl s]
  unfold State.takeHead
  dsimp only
  exact ((water s w).trans (foldl fresh _ _)).trans ((water _ w).trans (foldl (fun s u => ofMarks (.refreshOutside s u)) _ _))

/-- A new live head grants nothing while the gate is SPACING (R30, R109). -/
theorem updateHead {w : WaterwayNo} (spaced : (s.waterway w).spacing.isSome = true) : s.OnlyLevels (s.updateHead w) := by
  unfold State.updateHead
  dsimp only
  split
  · exact water s w
  · have taken := takeHead s w (s.headOf w).1 (s.headOf w).2
    rw [gateOpportunity_spaced]
    · exact taken
    · obtain ⟨_, _, _, _, _, e⟩ := taken.waterway w
      rw [e]
      exact spaced

theorem inhibitsTold (s : State) (w : WaterwayNo) (pump gen : Bool) : s.OnlyLevels (s.inhibitsTold w pump gen) := by
  refine (water s w (f := fun x => { x with pumpInhibit := pump, genInhibit := gen })).trans (ofFrame ?_)
  unfold State.inhibitsTold State.raiseIf
  split <;> rfl

end State.OnlyLevels

/-! ## The walk of an inhibit (R159, R160) -/

/-- Where no inhibit has set, no order is treated. -/
theorem inhibitUnit_noneSet (s : State) (u : UnitNo) : State.inhibitUnit ⟨false, false⟩ s u = s := by
  have stops : ∀ m, InhibitsSet.stops ⟨false, false⟩ m = false := fun m => by cases m <;> rfl
  have stopsPair : ∀ sense, InhibitsSet.stopsPair ⟨false, false⟩ sense = false := fun sense => by
    rcases sense with _ | _ | _ <;> rfl
  unfold State.inhibitUnit State.inhibitPair
  simp only [stops, stopsPair, Bool.false_and, Bool.false_eq_true, if_false, ite_self]
  split
  · split
    · split
      · split <;> rfl
      · rfl
    · rfl
  · rfl

/-- The inhibits evaluated: the walk over the units of the waterway, and a clearing that grants nothing while the gate is SPACING
(R109, R158, R159). -/
theorem evaluateInhibits_walk {s t : State} {w : WaterwayNo} {pump gen : Bool}
    (givesPump : pumpInhibitOf (s.gauge (s.waterway w).upper) (s.gauge (s.waterway w).lower) = pump)
    (givesGen : genInhibitOf (s.gauge (s.waterway w).upper) (s.gauge (s.waterway w).lower) = gen)
    (walk : ((s.inhibitsTold w pump gen).unitsOf w).foldl
      (State.inhibitUnit ⟨pump && !(s.waterway w).pumpInhibit, gen && !(s.waterway w).genInhibit⟩) (s.inhibitsTold w pump gen) = t)
    (spaced : (t.waterway w).spacing.isSome = true) : s.evaluateInhibits w = t := by
  have walked : (if (pump && !(s.waterway w).pumpInhibit || gen && !(s.waterway w).genInhibit) = true then
      ((s.inhibitsTold w pump gen).unitsOf w).foldl
        (State.inhibitUnit ⟨pump && !(s.waterway w).pumpInhibit, gen && !(s.waterway w).genInhibit⟩) (s.inhibitsTold w pump gen)
      else s.inhibitsTold w pump gen) = t := by
    split
    · exact walk
    · next noneSet =>
      obtain ⟨noPump, noGen⟩ := Bool.or_eq_false_iff.1 (Bool.not_eq_true _ ▸ noneSet)
      rw [noPump, noGen] at walk
      rw [← walk]
      exact (List.foldlRecOn (motive := (· = s.inhibitsTold w pump gen)) _ _ rfl fun _ same u _ => by
        rw [same, inhibitUnit_noneSet]).symm
  unfold State.evaluateInhibits
  dsimp only
  rw [givesPump, givesGen]
  unfold State.inhibitsTold at walked
  rw [walked, gateOpportunity_spaced spaced, ite_self]

/-! ## The telegram -/

/-- The inhibits of a waterway that its gauges set, where they have not stood before (R158). -/
def State.setBy (s : State) (w : WaterwayNo) (upper lower : Gauge) : InhibitsSet where
  pump := pumpInhibitOf upper lower && !(s.waterway w).pumpInhibit
  gen := genInhibitOf upper lower && !(s.waterway w).genInhibit

/-- The state once a waterway has taken a new level of its upper gauge, before the orders that its inhibits stop are treated. -/
structure State.LevelTaken (s a : State) (w : WaterwayNo) (upper lower : Gauge) : Prop where
  levels : s.quiet.OnlyLevels a
  pump : (a.waterway w).pumpInhibit = pumpInhibitOf upper lower
  gen : (a.waterway w).genInhibit = genInhibitOf upper lower
  event : (s.setBy w upper lower).pump = true ∨ (s.setBy w upper lower).gen = true → a.latched .inhibitChange = true

section
variable {s : State} {g : GaugeNo} {bytes : List Byte} {w : WaterwayNo} {x : Gauge}

theorem State.UpperTold.names (told : s.UpperTold g bytes w x) (v : WaterwayNo) : (s.waterway v).names g = decide (v = w) := by
  unfold Waterway.names
  by_cases same : v = w
  · rw [same, told.upper]; simp
  · obtain ⟨upper, lower⟩ := told.others v same
    simp [upper, lower, same]

/-- A telegram with a new level is heard, the live head follows, the inhibits follow, and the walk treats the orders they stop
(R156, R158, R159, log entry 23). -/
theorem exec_gaugeTelegram_walk (told : s.UpperTold g bytes w x) (spaced : (s.waterway w).spacing.isSome = true) :
    ∃ a, s.LevelTaken a w x (s.gauge (s.waterway w).lower) ∧ ∀ t,
      (a.unitsOf w).foldl (State.inhibitUnit (s.setBy w x (s.gauge (s.waterway w).lower))) a = t →
      (t.waterway w).spacing.isSome = true → exec (.gaugeTelegram g bytes) s = .next t := by
  obtain ⟨l, found⟩ := gaugeHeard_eq (s := s) (g := g) (x := x)
  have water : (s.gaugeHeard g x).waterway w = s.waterway w := by rw [found]; rfl
  have heard : s.quiet.OnlyLevels (s.gaugeHeard g x) := .ofFrame (by rw [found]; rfl)
  obtain ⟨gauges, reads⟩ := updateHead_reads (s.gaugeHeard g x) w
  let b := (s.gaugeHeard g x).updateHead w
  have gauge : ∀ j, b.gauge j = if g = j then x else s.gauge j := fun j => by
    unfold State.gauge
    rw [gauges, found]
    exact gauge_setGauge ..
  have upper : b.gauge (b.waterway w).upper = x := by
    rw [reads.upper, headTold_waterway, water, gauge, if_pos told.upper.symm]
  have lower : b.gauge (b.waterway w).lower = s.gauge (s.waterway w).lower := by
    rw [reads.lower, headTold_waterway, water, gauge, if_neg (Ne.symm told.lower)]
  have pumpBefore : (b.waterway w).pumpInhibit = (s.waterway w).pumpInhibit := by rw [reads.pumpInhibit, headTold_waterway, water]
  have genBefore : (b.waterway w).genInhibit = (s.waterway w).genInhibit := by rw [reads.genInhibit, headTold_waterway, water]
  refine ⟨b.inhibitsTold w (pumpInhibitOf x (s.gauge (s.waterway w).lower)) (genInhibitOf x (s.gauge (s.waterway w).lower)),
    ⟨(heard.trans (.updateHead (by rw [water]; exact spaced))).trans (.inhibitsTold ..), by rw [inhibitsTold_waterway],
      by rw [inhibitsTold_waterway], fun sets => ?_⟩, fun t walk after => ?_⟩
  · unfold State.inhibitsTold State.raiseIf
    rw [pumpBefore, genBefore, if_pos]
    · exact (latched_raise ..).trans (by simp)
    · unfold State.setBy at sets
      rcases sets with set | set
      all_goals
        obtain ⟨now, before⟩ := Bool.and_eq_true_iff.1 set
        rw [Bool.not_eq_true'] at before
        simp [now, before]
  · rw [exec_gaugeTelegram told.received told.level told.names]
    refine congrArg _ (evaluateInhibits_walk (by rw [upper, lower]) (by rw [upper, lower]) ?_ after)
    rw [pumpBefore, genBefore]
    exact walk

end

end Sys2Proof.Machine
end

section
/-! # The orders that an inhibit stops: the walk, and the stops it begins under a gate that is SPACING (R75 to R77, R81, R82, R159,
R160) -/

namespace Sys2Proof.Machine

/-! ## The walk over the units of a waterway (R159, R160) -/

/-- A walk whose step acts at one place alone, and leaves the outcome as it is everywhere. -/
theorem foldl_once {α : Type} {f : State → α → State} {s t : State} {u : α} (acts : f s u = t) {l : List α} (mem : u ∈ l)
    (before : ∀ v ∈ l, v ≠ u → f s v = s) (after : ∀ v ∈ l, f t v = t) : l.foldl f s = t := by
  induction l with
  | nil => cases mem
  | cons v l ih =>
    rw [List.foldl_cons]
    by_cases same : v = u
    · rw [same, acts]
      exact List.foldlRecOn (motive := (· = t)) l f rfl fun _ now a ha => now ▸ after a (.tail _ ha)
    · rw [before v (.head _) same]
      exact ih ((List.mem_cons.1 mem).resolve_left (Ne.symm same)) (fun a ha => before a (.tail _ ha))
        fun a ha => after a (.tail _ ha)

/-- The walk leaves an engaged order alone: a single order whose inhibit has not set or that moves no water, a GENERATE leg, and a
PUMP leg whose pair is not treated (R159, R160). -/
def State.LeavesAlone (s : State) (i : InhibitsSet) (h : Handle) (r : Order) : Prop :=
  if r.isPairLeg then r.mode = .pump → s.inhibitPair i h r = s else (i.stops r.mode && r.life.movesWater) = false

section
variable {s t : State} {i : InhibitsSet} {u : UnitNo} {w : WaterwayNo} {h g : Handle} {r q : Order}

theorem inhibitUnit_leavesAlone (alone : ∀ k y, s.engagedOrder u = some (k, y) → s.LeavesAlone i k y) :
    State.inhibitUnit i s u = s := by
  unfold State.inhibitUnit
  split
  · next k y engaged =>
    have left := alone k y engaged
    unfold State.LeavesAlone at left
    split
    · next leg =>
      rw [if_pos leg] at left
      split
      · next pump => exact left pump
      · rfl
    · next single =>
      rw [if_neg single] at left
      rw [left]
      rfl
  · rfl

theorem inhibitUnit_single (engaged : s.engagedOrder u = some (h, r)) (single : r.partner = none)
    (stops : (i.stops r.mode && r.life.movesWater) = true) : State.inhibitUnit i s u = (s.beginStop h .limit).finish := by
  unfold State.inhibitUnit
  rw [engaged]
  dsimp only
  rw [if_neg (by simp [Order.isPairLeg, single]), if_pos stops]

theorem inhibitUnit_pumpLeg (engaged : s.engagedOrder u = some (h, r)) (partner : r.partner = some g) (pump : r.mode = .pump) :
    State.inhibitUnit i s u = s.inhibitPair i h r := by
  unfold State.inhibitUnit
  rw [engaged]
  dsimp only
  rw [if_pos (by simp [Order.isPairLeg, partner]), if_pos pump]

theorem leavesAlone_single (single : r.partner = none) (idle : (i.stops r.mode && r.life.movesWater) = false) :
    s.LeavesAlone i h r := by
  unfold State.LeavesAlone
  rw [if_neg (by simp [Order.isPairLeg, single])]
  exact idle

theorem leavesAlone_genLeg (partner : r.partner = some g) (generate : r.mode = .generate) : s.LeavesAlone i h r := by
  unfold State.LeavesAlone
  rw [if_pos (by simp [Order.isPairLeg, partner])]
  intro pump
  cases generate.symm.trans pump

theorem leavesAlone_pumpLeg (partner : r.partner = some g) (untreated : s.inhibitPair i h r = s) : s.LeavesAlone i h r := by
  unfold State.LeavesAlone
  rw [if_pos (by simp [Order.isPairLeg, partner])]
  exact fun _ => untreated

/-- What moves water is engaged. -/
theorem Life.engaged_of_movesWater {l : Life} (moves : l.movesWater = true) : l.engaged = true := by
  cases l <;> simp_all [Life.movesWater, Life.onLine, Life.engaged]

/-- A walk that treats no order changes nothing. -/
theorem inhibitWalk_idle
    (alone : ∀ k y, s.order? k = some y → y.life.engaged = true → (s.unit y.unit).waterway = w → s.LeavesAlone i k y) :
    (s.unitsOf w).foldl (State.inhibitUnit i) s = s := by
  refine List.foldlRecOn (motive := (· = s)) _ _ rfl fun _ same v mem => ?_
  rw [same]
  refine inhibitUnit_leavesAlone fun k y engaged => ?_
  obtain ⟨hy, rfl, live⟩ := engagedOrder_some engaged
  exact alone k y hy live (mem_unitsOf.1 mem)

/-- A walk that treats one order, and leaves alone what the waterway has engaged beside it and afterwards (R159, R160). -/
theorem inhibitWalk_treats (hr : s.order? h = some r) (engaged : r.life.engaged = true) (home : (s.unit r.unit).waterway = w)
    (alone : ∀ k y, s.order? k = some y → y.life.engaged = true → y.unit = r.unit → k = h)
    (treated : s.engagedOrder r.unit = some (h, r) → State.inhibitUnit i s r.unit = t)
    (before : ∀ k y, s.order? k = some y → y.life.engaged = true → (s.unit y.unit).waterway = w → k ≠ h → s.LeavesAlone i k y)
    (after : ∀ k y, t.order? k = some y → y.life.engaged = true → (s.unit y.unit).waterway = w → t.LeavesAlone i k y) :
    (s.unitsOf w).foldl (State.inhibitUnit i) s = t := by
  have first : s.engagedOrder r.unit = some (h, r) :=
    engagedOrder_iff.2 ⟨hr, rfl, engaged, fun k y hy unit live => by rw [alone k y hy live unit]⟩
  refine foldl_once (treated first) (mem_unitsOf.2 home) (fun v mem other => ?_) fun v mem => ?_
  all_goals
    refine inhibitUnit_leavesAlone fun k y engaged => ?_
    obtain ⟨hy, rfl, live⟩ := engagedOrder_some engaged
  · refine before k y hy live (mem_unitsOf.1 mem) fun same => other ?_
    subst same
    cases hr.symm.trans hy
    rfl
  · exact after k y hy live (mem_unitsOf.1 mem)

/-- The walk that stops the one engaged order of a waterway (R159). -/
theorem inhibitWalk_single (hr : s.order? h = some r) (single : r.partner = none) (home : (s.unit r.unit).waterway = w)
    (only : ∀ k y, s.order? k = some y → y.life.engaged = true → (s.unit y.unit).waterway = w → k = h)
    (stops : (i.stops r.mode && r.life.movesWater) = true) (result : (s.beginStop h .limit).finish = t) {l : Life}
    (record : t.order? h = some (r.into l)) (stands : l.movesWater = false) (others : ∀ k, k ≠ h → t.order? k = s.order? k) :
    (s.unitsOf w).foldl (State.inhibitUnit i) s = t := by
  refine inhibitWalk_treats hr (Life.engaged_of_movesWater (Bool.and_eq_true_iff.1 stops).2) home
    (fun k y hy live unit => only k y hy live (by rw [unit, home]))
    (fun engaged => (inhibitUnit_single engaged single stops).trans result)
    (fun k y hy live at_ other => absurd (only k y hy live at_) other) fun k y hy live at_ => ?_
  by_cases same : k = h
  · subst same
    cases record.symm.trans hy
    exact leavesAlone_single single (by simp [stands])
  · exact absurd (only k y ((others k same).symm.trans hy) live at_) same

/-- The walk that treats the one pair of a waterway, at the unit of its PUMP leg (R160). -/
theorem inhibitWalk_pair (pair : s.IsPair h g r q) (engaged : r.life.engaged = true) (home : (s.unit r.unit).waterway = w)
    (only : ∀ k y, s.order? k = some y → y.life.engaged = true → (s.unit y.unit).waterway = w → k = h ∨ k = g)
    (result : s.inhibitPair i h r = t) {r' q' : Order} (pumpLeg : t.order? h = some r') (pumpPartner : r'.partner = some g)
    (genLeg : t.order? g = some q') (genPartner : q'.partner = some h) (genMode : q'.mode = .generate)
    (settled : t.inhibitPair i h r' = t) (others : ∀ k y, k ≠ h → k ≠ g → t.order? k = some y → s.order? k = some y) :
    (s.unitsOf w).foldl (State.inhibitUnit i) s = t := by
  refine inhibitWalk_treats pair.pumpLeg engaged home (fun k y hy live unit => ?_)
    (fun engaged => (inhibitUnit_pumpLeg engaged pair.pumpPartner pair.pumpMode).trans result)
    (fun k y hy live at_ other => ?_) fun k y hy live at_ => ?_
  · refine (only k y hy live (by rw [unit, home])).resolve_right fun same => pair.units ?_
    subst same
    cases pair.genLeg.symm.trans hy
    exact unit.symm
  · obtain rfl := (only k y hy live at_).resolve_left other
    cases pair.genLeg.symm.trans hy
    exact leavesAlone_genLeg pair.genPartner pair.genMode
  · by_cases pump : k = h
    · subst pump
      cases pumpLeg.symm.trans hy
      exact leavesAlone_pumpLeg pumpPartner settled
    · by_cases gen : k = g
      · subst gen
        cases genLeg.symm.trans hy
        exact leavesAlone_genLeg genPartner genMode
      · exact absurd (only k y (others k y pump gen hy) live at_) (by simp [pump, gen])

/-- A pair judged as it stands (R160, log entry 53). -/
theorem inhibitPair_eq (partner : r.partner = some g) (hq : s.order? g = some q) : s.inhibitPair i h r =
    if q.life.isStopping then s
    else if q.life.onLine then
      if i.stopsPair r.pairSense then ((s.beginStop g .limit).finish.beginStop h .limit).finish else s
    else if i.pump && r.life.movesWater then (s.beginStop h .limit).finish else s := by
  unfold State.inhibitPair
  rw [partner, Option.bind_some, hq]
  rfl

end

/-! ## Stops begun (Table 4-3) -/

@[simp] theorem send_waterway (s : State) (u : UnitNo) (d : Directive) (w : WaterwayNo) : (s.send u d).waterway w = s.waterway w :=
  rfl

section
variable {s : State} {h : Handle} {r : Order}

/-- The stop of a RUNNING order that is not of mode GENERATE, without partner and successor (R75, R76). -/
theorem beginStop_unnamed_awaitsGate (free : s.named = []) (hr : s.order? h = some r)
    (spaced : (s.waterway (s.unit r.unit).waterway).spacing.isSome = true) (running : r.life = .running)
    (other : r.mode ≠ .generate) (single : r.partner = none) (last : r.successor = none) (c : DoneCause) :
    ∃ t, (s.beginStop h c).finish = t ∧ s.StopBegins t h r .awaitingGate c ∧ s.AwaitsStop t h r := by
  obtain ⟨t, effect, facts⟩ := stopEffect_awaitsGate free hr spaced running other c
  refine ⟨t, ?_, facts⟩
  rw [beginStop_atOnce hr running (deferringLeg_single single), effect, stopTasks_last last, single]
  simp [finish_nil]

/-- The stop of a RUNNING GENERATE order above Pmin, without successor (R75, R76). -/
theorem beginStop_unnamed_unloads (free : s.named = []) (hr : s.order? h = some r)
    (spaced : (s.waterway (s.unit r.unit).waterway).spacing.isSome = true) (running : r.life = .running)
    (generate : r.mode = .generate) (last : r.successor = none) {p : Nat} {x : Capability}
    (setpoint : (s.unit r.unit).setpoint = some p) (record : (s.unit r.unit).link.current = some x) (above : x.pmin < p)
    (c : DoneCause) : ∃ t, (s.beginStop h c).finish = t ∧ s.StopBegins t h r .unloading c := by
  obtain ⟨t, effect, stops⟩ := stopEffect_unloads free hr spaced running generate setpoint record above c
  refine ⟨t, ?_, stops⟩
  rw [beginStop_atOnce hr running (deferringLeg_notPump (by simp [generate])), effect, stopTasks_last last,
    if_neg (by simp [generate])]
  exact finish_nil t

/-- The stop of a single order in RUNUP, whose link can take the directive at once: ABORT_START is sent and the order is in RUNDOWN
(R77, R138, Table 4-3). -/
theorem beginStop_aborts (free : s.named = []) (hr : s.order? h = some r) (runup : r.life = .starting .runup)
    (single : r.partner = none) (last : r.successor = none) (up : (s.unit r.unit).link.state = .up)
    (ready : (s.unit r.unit).link.outstanding = none) (c : DoneCause) :
    ∃ t, (s.beginStop h c).finish = t ∧ t.order? h = some (r.into (.stopping .rundown c)) ∧
      (∀ k, k ≠ h → t.order? k = s.order? k) ∧
      t.linkOut = s.linkOut ++ [(r.unit, .directive (s.unit r.unit).link.toggle .abortStart)] ∧
      (t.unit r.unit).supervision = some (s.rundownTime r.unit r.mode) ∧ ∀ w, t.waterway w = s.waterway w := by
  have begins : s.beginStop h c = (s.abortToRundown h r c, []) := by
    unfold State.beginStop State.stopNow State.stopEffect
    rw [hr]
    dsimp only
    rw [if_pos (by simp [runup, Life.isStarting]), deferringLeg_single single, stopTasks_last last, single, runup]
    simp
  let a := (s.stopSupervision r.unit).enterRundown h r c
  have time : (s.stopSupervision r.unit).rundownTime r.unit r.mode = s.rundownTime r.unit r.mode := by
    simp [State.rundownTime, State.capTime, State.stopSupervision]
  have noted : s.abortToRundown h r c = ((a.modOrder h fun r => { r with unseen := true }).raise .orderChanged).send r.unit
      .abortStart := by
    have unnamed : a.note h .orderChanged = (a.modOrder h fun r => { r with unseen := true }).raise .orderChanged :=
      if_neg (by simp [a, State.enterRundown, State.startSupervision, State.stopSupervision, free])
    unfold State.abortToRundown
    rw [unnamed, ask_up]
    · simpa [a, State.enterRundown, State.startSupervision, State.stopSupervision] using up
    · simpa [a, State.enterRundown, State.startSupervision, State.stopSupervision] using ready
  rw [begins, finish_nil, noted]
  refine ⟨_, rfl, ?_, fun k other => ?_, ?_, ?_, fun w => ?_⟩
  · simp [a, State.enterRundown, State.startSupervision, State.stopSupervision, hr, Order.into]
  · simp [a, State.enterRundown, State.startSupervision, State.stopSupervision, other]
  · simp [a, State.enterRundown, State.startSupervision, State.stopSupervision]
  · simp [a, State.enterRundown, State.startSupervision, time]
  · simp [a, State.enterRundown, State.startSupervision, State.stopSupervision]

end

section
variable {s : State} {h g : Handle} {r q : Order}

/-- The stop of a RUNNING PUMP leg whose GENERATE leg is in PAIR_HOLD: that leg is DONE with cause PARTNER (R81, R82). -/
theorem beginStop_pumpLeg (free : s.named = []) (pair : s.IsPair h g r q) (running : r.life = .running)
    (holds : q.life = .starting .pairHold) (none : r.awaited = none) (stays : q.retirePending = false)
    (spaced : (s.waterway (s.unit r.unit).waterway).spacing.isSome = true)
    (noDue : ∀ k x, s.order? k = some x → x.unit = q.unit → x.life ≠ .due) (c : DoneCause) :
    ∃ t, (s.beginStop h c).finish = t ∧ t.order? h = some (r.into (.stopping .awaitingGate c)) ∧
      t.order? g = some (q.into (.done .partner s.plantTime)) ∧ (t.unit q.unit).context = .idle ∧
      (∀ w, (t.waterway w).spacing = (s.waterway w).spacing) ∧
      ∀ k y, k ≠ h → k ≠ g → t.order? k = some y → s.order? k = some y := by
  obtain ⟨a, effect, stops, -⟩ := stopEffect_awaitsGate free pair.pumpLeg spaced running (by simp [pair.pumpMode]) c
  have genLeg : a.order? g = some q := (stops.others g pair.distinct.symm).trans pair.genLeg
  obtain ⟨t, treated, ends⟩ := pumpStopped_waiting genLeg pair.genMode (.inl holds)
  have table := ends.table (stops.named.trans free) stays
  have pumpLeg : t.order? h = some (r.into (.stopping .awaitingGate c)) := by
    rw [table.others h pair.distinct, stops.record]
    exact congrArg some (Order.afterEnding_last (q := r.into _) pair.pumpLink ..)
  have idle := engagement_idle (s := t) (u := q.unit) (table.noDue fun k x hx unit due => by
    by_contra other
    by_cases pump : k = h
    · subst pump
      cases stops.record.symm.trans hx
      cases due
    · exact noDue k x ((stops.others k pump).symm.trans hx) unit due)
  have still := partnerEnded_stopped pumpLeg (.inl rfl) none
  rw [endTasks_last pair.genLink, pair.genPartner] at treated
  refine ⟨t, ?_, pumpLeg, ?_, ?_, fun w => (ends.spacing w).trans (stops.spacing w), fun k y pump gen hy => ?_⟩
  · rw [beginStop_atOnce pair.pumpLeg running (deferringLeg_pair pair.pumpPartner pair.genLeg (by rw [holds]; exact ⟨rfl, rfl⟩)),
      effect, stopTasks_last pair.pumpLink, if_pos pair.pumpMode, pair.pumpPartner]
    exact Settles.finish (.step treated (.step idle (.step still .done)))
  · rw [table.record, Order.ended_last pair.genLink, stops.plantTime]
    rfl
  · obtain ⟨_, _, _, _, own⟩ := ends.own
    rw [own]
    rfl
  · rw [table.others k gen, stops.others k pump] at hy
    obtain ⟨x, hx, same⟩ := Option.map_eq_some_iff.1 hy
    rw [hx, ← same]
    rfl

/-- The stop of a pair whose legs are RUNNING: the GENERATE leg unloads, and the stop of the PUMP leg is awaited (R81). -/
theorem beginStop_pair (free : s.named = []) (pair : s.IsPair h g r q) (running : r.life = .running) (none : r.awaited = none)
    (generates : q.life = .running) (spaced : (s.waterway (s.unit q.unit).waterway).spacing.isSome = true) {p : Nat}
    {x : Capability} (setpoint : (s.unit q.unit).setpoint = some p) (record : (s.unit q.unit).link.current = some x)
    (above : x.pmin < p) :
    ∃ t, ((s.beginStop g .limit).finish.beginStop h .limit).finish = t ∧
      t.order? g = some (q.into (.stopping .unloading .limit)) ∧ t.order? h = some { r with awaited := some .limit } ∧
      (∀ w, (t.waterway w).spacing = (s.waterway w).spacing) ∧
      ∀ k y, k ≠ h → k ≠ g → t.order? k = some y → s.order? k = some y := by
  obtain ⟨a, begins, stops⟩ := beginStop_unnamed_unloads free pair.genLeg spaced generates pair.genMode pair.genLink setpoint
    record above .limit
  have pumpLeg : a.order? h = some r := (stops.others h pair.distinct).trans pair.pumpLeg
  have unloading : a.IsPair h g r (q.into (.stopping .unloading .limit)) :=
    { pair with pumpLeg := pumpLeg, genLeg := stops.record }
  refine ⟨_, rfl, ?_, ?_, fun w => ?_, fun k y pump gen => ?_⟩
  all_goals rw [begins, beginStop_deferred unloading running (.inr rfl) (by simp), finish_nil]
  · rw [order?_modOrder, if_neg pair.distinct.symm, stops.record]
  · rw [order?_modOrder, if_pos rfl, pumpLeg, Option.map_some, none]
    rfl
  · rw [modOrder_waterway, stops.spacing]
  · rw [order?_modOrder, if_neg pump, stops.others k gen]
    exact id

end

end Sys2Proof.Machine
end

section
/-! # A telegram that sets an inhibit, and the orders of its waterway (R81, R82, R158 to R160) -/

namespace Sys2Proof.Machine

theorem setBy_pump {s : State} {w : WaterwayNo} {x lower : Gauge} :
    (s.setBy w x lower).pump = true ↔ (s.waterway w).pumpInhibit = false ∧ pumpInhibitOf x lower = true := by
  simp [State.setBy, and_comm]

theorem setBy_gen {s : State} {w : WaterwayNo} {x lower : Gauge} :
    (s.setBy w x lower).gen = true ↔ (s.waterway w).genInhibit = false ∧ genInhibitOf x lower = true := by
  simp [State.setBy, and_comm]

/-- What the elementary changes keep is kept by the walk of an inhibit. -/
theorem Kept.inhibitWalk {P : State → Prop} (k : Kept P) {s : State} (i : InhibitsSet) (w : WaterwayNo) (p : P s) :
    P ((s.unitsOf w).foldl (State.inhibitUnit i) s) :=
  Kept.foldl (fun _ u q => k.inhibitUnit i u q) _ p

namespace State.LevelTaken

variable {s a t : State} {w : WaterwayNo} {x lower : Gauge} (taken : s.LevelTaken a w x lower)
include taken

theorem order (k : Handle) : a.order? k = s.order? k := by rw [taken.levels.frame]; rfl
theorem named : a.named = s.named := by rw [taken.levels.frame]; rfl
theorem plantTime : a.plantTime = s.plantTime := by rw [taken.levels.frame]; rfl
theorem linkOut : a.linkOut = [] := by rw [taken.levels.frame]; rfl
theorem home (u : UnitNo) : (a.unit u).waterway = (s.unit u).waterway := by obtain ⟨_, _, _, e⟩ := taken.levels.unit u; rw [e]; rfl
theorem link (u : UnitNo) : (a.unit u).link = (s.unit u).link := by obtain ⟨_, _, _, e⟩ := taken.levels.unit u; rw [e]; rfl
theorem setpoint (u : UnitNo) : (a.unit u).setpoint = (s.unit u).setpoint := by
  obtain ⟨_, _, _, e⟩ := taken.levels.unit u; rw [e]; rfl
theorem spacing (v : WaterwayNo) : (a.waterway v).spacing = (s.waterway v).spacing := by
  obtain ⟨_, _, _, _, _, e⟩ := taken.levels.waterway v; rw [e]; rfl

theorem rundownTime (u : UnitNo) (m : Mode) : a.rundownTime u m = s.rundownTime u m := by
  have settings : a.supervision = s.supervision := by rw [taken.levels.frame]; rfl
  unfold State.rundownTime State.capTime
  rw [taken.link, settings]

theorem pair {h g : Handle} {r q : Order} (pair : s.IsPair h g r q) : a.IsPair h g r q :=
  { pair with pumpLeg := (taken.order h).trans pair.pumpLeg, genLeg := (taken.order g).trans pair.genLeg }

theorem spaced {u : UnitNo} (home : (s.unit u).waterway = w) (spaced : (s.waterway w).spacing.isSome = true) :
    (a.waterway (a.unit u).waterway).spacing.isSome = true := by
  rw [taken.home, taken.spacing, home, spaced]

/-- The engaged orders of the waterway are the same. -/
theorem engaged {p : Handle → Prop}
    (only : ∀ k q, s.order? k = some q → q.life.engaged = true → (s.unit q.unit).waterway = w → p k) :
    ∀ k q, a.order? k = some q → q.life.engaged = true → (a.unit q.unit).waterway = w → p k :=
  fun k q hq live at_ => only k q ((taken.order k).symm.trans hq) live ((taken.home q.unit).symm.trans at_)

/-- The inhibits and their event stand when the orders they stop are treated (R158). -/
theorem walked {i : InhibitsSet} (walk : (a.unitsOf w).foldl (State.inhibitUnit i) a = t) :
    (t.waterway w).pumpInhibit = pumpInhibitOf x lower ∧ (t.waterway w).genInhibit = genInhibitOf x lower ∧
      ((s.setBy w x lower).pump = true ∨ (s.setBy w x lower).gen = true → t.latched .inhibitChange = true) := by
  have read : ReadOff w fun t => (t.waterway w).pumpInhibit = pumpInhibitOf x lower ∧
      (t.waterway w).genInhibit = genInhibitOf x lower :=
    fun s t _ same p => ⟨same.pumpInhibit.trans p.1, same.genInhibit.trans p.2⟩
  subst walk
  have inhibits := read.kept.inhibitWalk i w ⟨taken.pump, taken.gen⟩
  exact ⟨inhibits.1, inhibits.2, fun sets => (kept_latched .inhibitChange).toKept.inhibitWalk i w (taken.event sets)⟩

end State.LevelTaken

/-! ## A single order (R159) -/

section
variable {s : State} {g : GaugeNo} {bytes : List Byte} {w : WaterwayNo} {x : Gauge} {h : Handle} {r : Order}
  (told : s.UpperTold g bytes w x) (free : s.named = []) (spaced : (s.waterway w).spacing.isSome = true)
  (hr : s.order? h = some r) (single : r.partner = none) (last : r.successor = none) (home : (s.unit r.unit).waterway = w)
  (only : ∀ k q, s.order? k = some q → q.life.engaged = true → (s.unit q.unit).waterway = w → k = h)
include told free spaced hr single last home only

/-- PUMP_INHIBIT stops a RUNNING PUMP order: its STOP entry waits at the gate. -/
theorem gaugeTelegram_stopsPump (pump : r.mode = .pump) (running : r.life = .running)
    (before : (s.waterway w).pumpInhibit = false) (now : pumpInhibitOf x (s.gauge (s.waterway w).lower) = true) :
    ∃ t, exec (.gaugeTelegram g bytes) s = .next t ∧ (t.waterway w).pumpInhibit = true ∧
      t.order? h = some (r.into (.stopping .awaitingGate .limit)) ∧
      (∃ e ∈ (t.waterway w).queue, e.handle = h ∧ e.kind = .stop ∧ e.unit = r.unit) ∧ t.latched .inhibitChange = true ∧
      t.latched .orderChanged = true := by
  obtain ⟨a, taken, result⟩ := exec_gaugeTelegram_walk told spaced
  have sets := setBy_pump.2 ⟨before, now⟩
  obtain ⟨t, stopped, stops, entry⟩ := beginStop_unnamed_awaitsGate (taken.named.trans free) ((taken.order h).trans hr)
    (taken.spaced home spaced) running (by simp [pump]) single last .limit
  have walk := inhibitWalk_single ((taken.order h).trans hr) single ((taken.home _).trans home) (taken.engaged only)
    (by rw [pump, running]; exact Bool.and_eq_true_iff.2 ⟨sets, rfl⟩) stopped stops.record rfl stops.others
  obtain ⟨inhibit, -, event⟩ := taken.walked walk
  unfold State.AwaitsStop at entry
  rw [taken.home, home] at entry
  exact ⟨t, result t walk (by rw [stops.spacing, taken.spacing, spaced]), inhibit.trans now, stops.record, entry, event (.inl sets),
    stops.event⟩

/-- GEN_INHIBIT stops a RUNNING GENERATE order: above Pmin it unloads. -/
theorem gaugeTelegram_stopsGenerate {p : Nat} {c : Capability} (generate : r.mode = .generate) (running : r.life = .running)
    (before : (s.waterway w).genInhibit = false) (now : genInhibitOf x (s.gauge (s.waterway w).lower) = true)
    (setpoint : (s.unit r.unit).setpoint = some p) (record : (s.unit r.unit).link.current = some c) (above : c.pmin < p) :
    ∃ t, exec (.gaugeTelegram g bytes) s = .next t ∧ (t.waterway w).genInhibit = true ∧
      t.order? h = some (r.into (.stopping .unloading .limit)) ∧ t.latched .inhibitChange = true ∧
      t.latched .orderChanged = true := by
  obtain ⟨a, taken, result⟩ := exec_gaugeTelegram_walk told spaced
  have sets := setBy_gen.2 ⟨before, now⟩
  obtain ⟨t, stopped, stops⟩ := beginStop_unnamed_unloads (taken.named.trans free) ((taken.order h).trans hr)
    (taken.spaced home spaced) running generate last ((taken.setpoint _).trans setpoint) (by rw [taken.link]; exact record) above
    .limit
  have walk := inhibitWalk_single ((taken.order h).trans hr) single ((taken.home _).trans home) (taken.engaged only)
    (by rw [generate, running]; exact Bool.and_eq_true_iff.2 ⟨sets, rfl⟩) stopped stops.record rfl stops.others
  obtain ⟨-, inhibit, event⟩ := taken.walked walk
  exact ⟨t, result t walk (by rw [stops.spacing, taken.spacing, spaced]), inhibit.trans now, stops.record, event (.inr sets),
    stops.event⟩

/-- The inhibit of its mode aborts an order in RUNUP. -/
theorem gaugeTelegram_aborts
    (sets : (r.mode = .pump ∧ (s.waterway w).pumpInhibit = false ∧ pumpInhibitOf x (s.gauge (s.waterway w).lower) = true) ∨
      (r.mode = .generate ∧ (s.waterway w).genInhibit = false ∧ genInhibitOf x (s.gauge (s.waterway w).lower) = true))
    (runup : r.life = .starting .runup) (up : (s.unit r.unit).link.state = .up)
    (ready : (s.unit r.unit).link.outstanding = none) :
    ∃ t, exec (.gaugeTelegram g bytes) s = .next t ∧ t.order? h = some (r.into (.stopping .rundown .limit)) ∧
      t.linkOut = [(r.unit, .directive (s.unit r.unit).link.toggle .abortStart)] ∧
      (t.unit r.unit).supervision = some (s.rundownTime r.unit r.mode) := by
  obtain ⟨a, taken, result⟩ := exec_gaugeTelegram_walk told spaced
  have stops : ((s.setBy w x (s.gauge (s.waterway w).lower)).stops r.mode && r.life.movesWater) = true := by
    rw [runup]
    rcases sets with ⟨pump, set⟩ | ⟨generate, set⟩
    · rw [pump]; exact Bool.and_eq_true_iff.2 ⟨setBy_pump.2 set, rfl⟩
    · rw [generate]; exact Bool.and_eq_true_iff.2 ⟨setBy_gen.2 set, rfl⟩
  obtain ⟨t, stopped, abandoned, others, sent, timer, water⟩ := beginStop_aborts (taken.named.trans free) ((taken.order h).trans hr)
    runup single last (by rw [taken.link]; exact up) (by rw [taken.link]; exact ready) .limit
  have walk := inhibitWalk_single ((taken.order h).trans hr) single ((taken.home _).trans home) (taken.engaged only) stops stopped
    abandoned rfl others
  refine ⟨t, result t walk (by rw [water, taken.spacing, spaced]), abandoned, ?_, ?_⟩
  · rw [sent, taken.linkOut, taken.link]; rfl
  · rw [timer, taken.rundownTime]

omit free last home in
/-- A condensing order, and one whose water is not yet moving or has its stop begun, is left as it stands. -/
theorem gaugeTelegram_leaves
    (idle : (r.mode = .condenseG ∨ r.mode = .condenseP) ∨ (r.life ≠ .running ∧ r.life ≠ .starting .runup)) :
    ∃ t, exec (.gaugeTelegram g bytes) s = .next t ∧ t.order? h = some r ∧ t.linkOut = [] := by
  obtain ⟨a, taken, result⟩ := exec_gaugeTelegram_walk told spaced
  have stands : ((s.setBy w x (s.gauge (s.waterway w).lower)).stops r.mode && r.life.movesWater) = false := by
    rcases idle with (condenses | condenses) | ⟨notRunning, notRunup⟩
    · rw [condenses]; rfl
    · rw [condenses]; rfl
    · have still : r.life.movesWater = false := by
        unfold Life.movesWater Life.onLine
        split
        · next runup => exact absurd runup notRunup
        · next running => exact absurd running notRunning
        · rfl
      rw [still, Bool.and_false]
  have walk : (a.unitsOf w).foldl (State.inhibitUnit (s.setBy w x (s.gauge (s.waterway w).lower))) a = a :=
    inhibitWalk_idle fun k y hy live at_ => by
      obtain rfl := taken.engaged only k y hy live at_
      cases ((taken.order k).trans hr).symm.trans hy
      exact leavesAlone_single single stands
  exact ⟨a, result a walk (by rw [taken.spacing, spaced]), (taken.order h).trans hr, taken.linkOut⟩

end

/-! ## A pair (R81, R82, R160) -/

section
variable {s : State} {u : GaugeNo} {bytes : List Byte} {w : WaterwayNo} {x : Gauge} {h g : Handle} {r q : Order}
  (told : s.UpperTold u bytes w x) (free : s.named = []) (spaced : (s.waterway w).spacing.isSome = true)
  (pair : s.IsPair h g r q) (pumpHome : (s.unit r.unit).waterway = w) (genHome : (s.unit q.unit).waterway = w)
  (none : r.awaited = none)
  (only : ∀ k y, s.order? k = some y → y.life.engaged = true → (s.unit y.unit).waterway = w → k = h ∨ k = g)
  (running : r.life = .running)
include told spaced pair pumpHome only running

/-- A pair on line judged by an inhibit of the other sense, or by one that does not set, is left as it stands. -/
theorem gaugeTelegram_leavesPair (generates : q.life = .running)
    (other : (s.setBy w x (s.gauge (s.waterway w).lower)).stopsPair r.pairSense = false) :
    ∃ t, exec (.gaugeTelegram u bytes) s = .next t ∧ t.order? g = some q ∧ t.order? h = some r := by
  obtain ⟨a, taken, result⟩ := exec_gaugeTelegram_walk told spaced
  have both := taken.pair pair
  have untreated : a.inhibitPair (s.setBy w x (s.gauge (s.waterway w).lower)) h r = a := by
    rw [inhibitPair_eq both.pumpPartner both.genLeg, generates, other]
    rfl
  have walk := inhibitWalk_pair both (by rw [running]; rfl) ((taken.home _).trans pumpHome) (taken.engaged only) untreated
    both.pumpLeg both.pumpPartner both.genLeg both.genPartner both.genMode untreated fun _ _ _ _ => id
  exact ⟨a, result a walk (by rw [taken.spacing, spaced]), both.genLeg, both.pumpLeg⟩

include free none

include genHome in
/-- The inhibit of its sense stops a pair on line: the GENERATE leg above Pmin unloads, and the stop of the PUMP leg is awaited. -/
theorem gaugeTelegram_stopsPair {p : Nat} {c : Capability} (generates : q.life = .running)
    (setpoint : (s.unit q.unit).setpoint = some p) (record : (s.unit q.unit).link.current = some c) (above : c.pmin < p)
    (own : (s.setBy w x (s.gauge (s.waterway w).lower)).stopsPair r.pairSense = true) :
    ∃ t, exec (.gaugeTelegram u bytes) s = .next t ∧ t.order? g = some (q.into (.stopping .unloading .limit)) ∧
      t.order? h = some { r with awaited := some .limit } := by
  obtain ⟨a, taken, result⟩ := exec_gaugeTelegram_walk told spaced
  have both := taken.pair pair
  obtain ⟨t, stopped, genLeg, pumpLeg, spacing, others⟩ := beginStop_pair (taken.named.trans free) both running none generates
    (taken.spaced genHome spaced) ((taken.setpoint _).trans setpoint) (by rw [taken.link]; exact record) above
  have walk := inhibitWalk_pair both (by rw [running]; rfl) ((taken.home _).trans pumpHome) (taken.engaged only)
    (i := s.setBy w x (s.gauge (s.waterway w).lower)) (t := t)
    (by rw [inhibitPair_eq both.pumpPartner both.genLeg, generates, own]; exact stopped) pumpLeg both.pumpPartner genLeg
    both.genPartner both.genMode (inhibitPair_eq both.pumpPartner genLeg) others
  exact ⟨t, result t walk (by rw [spacing, taken.spacing, spaced]), genLeg, pumpLeg⟩

/-- PUMP_INHIBIT stops the PUMP leg alone while its GENERATE leg is in PAIR_HOLD, which is then DONE with cause PARTNER. -/
theorem gaugeTelegram_stopsPumpLeg (holds : q.life = .starting .pairHold) (stays : q.retirePending = false)
    (before : (s.waterway w).pumpInhibit = false) (now : pumpInhibitOf x (s.gauge (s.waterway w).lower) = true)
    (noDue : ∀ k y, s.order? k = some y → y.unit = q.unit → y.life ≠ .due) :
    ∃ t, exec (.gaugeTelegram u bytes) s = .next t ∧ t.order? h = some (r.into (.stopping .awaitingGate .limit)) ∧
      t.order? g = some (q.into (.done .partner s.plantTime)) ∧ (t.unit q.unit).context = .idle := by
  obtain ⟨a, taken, result⟩ := exec_gaugeTelegram_walk told spaced
  have both := taken.pair pair
  have sets := setBy_pump.2 ⟨before, now⟩
  obtain ⟨t, stopped, pumpLeg, genLeg, context, spacing, others⟩ := beginStop_pumpLeg (taken.named.trans free) both running holds
    none stays (taken.spaced pumpHome spaced) (fun k y hy => noDue k y ((taken.order k).symm.trans hy)) .limit
  have walk := inhibitWalk_pair both (by rw [running]; rfl) ((taken.home _).trans pumpHome) (taken.engaged only)
    (i := s.setBy w x (s.gauge (s.waterway w).lower)) (t := t)
    (by rw [inhibitPair_eq both.pumpPartner both.genLeg, holds, sets, running]; exact stopped) pumpLeg both.pumpPartner genLeg
    both.genPartner both.genMode (by
      rw [inhibitPair_eq (r := r.into _) both.pumpPartner genLeg]
      simp [Life.isStopping, Life.movesWater, Life.onLine]) others
  exact ⟨t, result t walk (by rw [spacing, taken.spacing, spaced]), pumpLeg, by rw [genLeg, taken.plantTime], context⟩

end

/-- Settles O56: flags, inhibits and heads as figures; then a telegram is the walk over the units of its waterway, which treats the
one order, or the one pair, that the waterway has engaged. -/
theorem levelsGiveFlagsInhibitsAndHead : Obligations.LevelsGiveFlagsInhibitsAndHead := by
  refine ⟨fun x v level => ?flags, fun upper lower => ⟨pumpInhibitOf_iff, genInhibitOf_iff⟩,
    fun s w a b upper lower => ⟨fun unknown => if_pos unknown, headOf_levels upper lower⟩, ?single, ?pair⟩
  case flags =>
    unfold Gauge.evaluateFlags
    rw [level]
    exact ⟨evalHigh_iff, evalLow_iff⟩
  case single =>
    rintro s g bytes w x _ h r told rfl free spaced hr single last home only
    exact ⟨gaugeTelegram_stopsPump told free spaced hr single last home only,
      fun p c => gaugeTelegram_stopsGenerate told free spaced hr single last home only,
      gaugeTelegram_aborts told free spaced hr single last home only, gaugeTelegram_leaves told spaced hr single only⟩
  case pair =>
    rintro s u bytes w x _ h g r q told rfl free spaced pair pumpHome genHome none only running
    refine ⟨fun p c sense generates setpoint record above judged => ⟨fun own => ?_, fun other => ?_⟩,
      gaugeTelegram_stopsPumpLeg told free spaced pair pumpHome none only running⟩
    · refine gaugeTelegram_stopsPair told free spaced pair pumpHome genHome none only running generates setpoint record above ?_
      rw [judged]
      rcases own with ⟨rfl, set⟩ | ⟨rfl, set⟩
      · exact setBy_pump.2 set
      · exact setBy_gen.2 set
    · refine gaugeTelegram_leavesPair told spaced pair pumpHome only running generates ?_
      rw [judged]
      rcases other with ⟨rfl, stands⟩ | ⟨rfl, stands⟩
      · show (s.setBy ..).pump = false
        rw [← Bool.not_eq_true, setBy_pump]
        rcases stands with was | clear <;> simp [*]
      · show (s.setBy ..).gen = false
        rw [← Bool.not_eq_true, setBy_gen]
        rcases stands with was | clear <;> simp [*]

end Sys2Proof.Machine
end
